-- ==== Sys2Proof/Word.lean ====
section
/-! DEFINITION. The word types of the model and the dyadic numbers exact arithmetic is done in.

The manual (02_numerics.md) states every product and sum before its rounding as an exact number; a
dyadic rational `m · 2^e` holds each of them. -/

namespace Sys2Proof

/-- A byte, the smallest addressable unit of every memory of the module (R552). -/
abbrev Byte := BitVec 8

/-- A 32-bit word: cell core registers, INT32 values, sync counters. -/
abbrev Word := BitVec 32

/-- The bits below the opcode of a 128-bit sequencer instruction (R65, R184): bits [119:0]. -/
abbrev Body := BitVec 120

/-- The dyadic rational `m · 2^e`. -/
structure Dy where
  m : Int
  e : Int
  deriving DecidableEq, Repr

/-- A pavilion index 4p + q (R18). -/
abbrev PavIx := Fin 224
/-- A plot index 8·row + col (R17). -/
abbrev PlotIx := Fin 56
/-- A ring segment (R31). -/
abbrev SegIx := Fin 8
/-- An HBM stack (R31). -/
abbrev StackIx := Fin 24
/-- An allotment (R355). -/
abbrev AllotIx := Fin 16
/-- A program stream of a pavilion (R166). -/
abbrev StreamIx := Fin 4
/-- A host port (R375). -/
abbrev PortIx := Fin 4
/-- A PCIe function of a host port (R376). -/
abbrev FnIx := Fin 8
/-- A server port (R400). -/
abbrev SrvIx := Fin 16
/-- A cell core register g0–g31 (R206). -/
abbrev RegIx := Fin 32

/-- A cell's global coordinates (R19). -/
structure CellXY where
  x : Fin 512
  y : Fin 476
  deriving DecidableEq, Repr

end Sys2Proof
end

