-- ==== Sys2Proof/Syntax.lean ====
section
/-! DEFINITION. The commands of the module: one constructor of `Instr` for each row of
spec/opcode_table.json, with the operands that the row's step takes from outside.

What only the environment knows is an operand: the words of a packet, a frame or a host memory read,
a measurement, the syndrome that a checker saw. -/

namespace Sys2Proof

/-! ### Operand types -/

/-- What a fault has done to a checked result (R88–R90, R423). -/
inductive VerdictObs where
  /-- No fault has struck what is compared. -/
  | pass
  /-- A fault has changed s1 − t1 and s2 − t2 of the row by so much (R88). -/
  | checksum (e1 e2 : Dy)
  /-- A fault has changed the total of checksum column c1 by so much against T (R89). -/
  | cross (e : Dy)
  /-- The duplicated output stage disagrees (R423). -/
  | outputStage
  /-- The duplicated pruning unit disagrees (R423). -/
  | pruning
  /-- The accumulator code sees more than one wrong bit (R423). -/
  | accumulator
  deriving DecidableEq, Repr

/-- The beat, counted from 0, whose hardware check fails, if any does (R155, R425, R423). -/
abbrev Chk := Option Nat

/-- How a transfer that the fabric carries has ended, as its owner sees it (R290, R307). -/
inductive XferEnd where
  /-- The last byte has landed. -/
  | landed
  /-- The last byte has landed and the two digests of R426 differ. -/
  | digestMismatch
  /-- The transfer has failed under R307. -/
  | failed
  deriving DecidableEq, Repr

/-- The second operand of an integer instruction of the cell core: class T or class I (R209). -/
inductive Src where
  | reg (g : RegIx)
  | imm (v : BitVec 16)
  deriving DecidableEq, Repr

/-- The shifts of the cell core (R208), and a function of their class that no instruction defines (R209). -/
inductive ShiftKind where
  | left | rightLogical | rightArith | undefined
  deriving DecidableEq, Repr

/-- The conditions of compare-and-branch (R208). -/
inductive BranchCond where
  | eq | ne | lt | ge | ltu | geu
  deriving DecidableEq, Repr

/-- The relations of the FP32 compare; R208 names the instruction and not its relations. -/
inductive FRel where
  | eq | lt | le
  deriving DecidableEq, Repr

/-- The directions of the cell core's fcvt (R208). -/
inductive FCvtDir where
  | intToFp | fpToInt
  deriving DecidableEq, Repr

/-- The sizes of a cell core load or store (R208): 8, 16 or 32 bits. -/
inductive MemSize where
  | b8 | b16 | b32
  deriving DecidableEq, Repr

/-- A Promenade beat: 512 data bits and the sideband of R251. -/
structure Beat where
  data : BitVec 512
  side : BitVec 32
  deriving DecidableEq, Repr

/-- What the hop code of R253 sees on a beat. -/
inductive BeatErr where
  | clean | corrected | uncorrectable
  deriving DecidableEq, Repr

/-- A packet of the fabric (R284): header, payload and tail. -/
structure Packet where
  dstX : BitVec 9
  dstY : BitVec 9
  srcX : BitVec 9
  srcY : BitVec 9
  vc : BitVec 2
  ptype : BitVec 4
  age : BitVec 6
  tag : BitVec 12
  opq : BitVec 4
  payload : BitVec 384
  seq : BitVec 16
  reserved : BitVec 4
  escape : Bool
  retry : Bool
  poison : Bool
  last : Bool
  valid : BitVec 8
  crc : BitVec 32
  deriving DecidableEq, Repr

/-- A Holcel frame (R338): the Ethernet addresses and type, the header, the payload and the authentication tag, with the
port it arrived on (`onB`) and whether its Ethernet FCS holds. -/
structure HFrame where
  onB : Bool
  fcsOk : Bool
  macDst : BitVec 48
  macSrc : BitVec 48
  vlan : Bool
  ethertype : BitVec 16
  version : BitVec 4
  rsp : Bool
  service : BitVec 4
  dst : BitVec 7
  src : BitVec 7
  hops : BitVec 6
  seq : BitVec 16
  index : BitVec 16
  sub : BitVec 8
  code : BitVec 16
  length : BitVec 11
  session : BitVec 16
  param : BitVec 16
  payload : List Byte
  tag : List Byte
  deriving DecidableEq, Repr

/-- A server-port transport frame as it arrives (R404). -/
structure TFrame where
  peer : BitVec 48
  fcsOk : Bool
  ethertype : BitVec 16
  vlan : Bool
  version : BitVec 4
  ftype : BitVec 4
  flags : BitVec 8
  handle : BitVec 32
  xid : BitVec 16
  seq : BitVec 20
  reserved1 : BitVec 12
  offset : BitVec 64
  length : BitVec 32
  bytes : BitVec 16
  status : BitVec 8
  round : BitVec 8
  nbase : BitVec 32
  counter : BitVec 64
  pmap : BitVec 128
  reserved2 : BitVec 64
  data : List Byte
  tag : List Byte
  deriving DecidableEq, Repr

/-- Who makes a dictionary access: a ring station in a session (0 for none), or the mailbox of function
`f` of host port `h` (R347, R358). -/
inductive Requester where
  | ring (station : BitVec 7) (session : BitVec 16)
  | mailbox (h : PortIx) (f : FnIx)
  deriving DecidableEq, Repr

/-- What a read of host memory over PCIe returns (R393): data with one poison mark per 64 bytes, no
completion yet, or an Unsupported Request or Completer Abort. -/
inductive HostRead where
  | data (bytes : List Byte) (poison : List Bool)
  | waiting
  | error
  deriving DecidableEq, Repr

/-- A router: of a cell, by plot and local position, of a plot's gate, or of a ring segment (R280, R34). -/
inductive Router where
  | cell (p : PlotIx) (lx : Fin 64) (ly : Fin 68)
  | gate (p : PlotIx)
  | segment (n : SegIx)
  deriving DecidableEq, Repr

/-- A link of the module, for the counts and withdrawals of R308 and the checks of R505. -/
inductive LinkId where
  /-- Express link j (0–3) of a plot toward neighbour d (N, E, S, W). -/
  | express (plot : PlotIx) (d j : Fin 4)
  /-- Promenade edge channel c of edge e of a plot. -/
  | prom (plot : PlotIx) (e : Fin 4) (c : Fin 64)
  /-- The cell-torus link into the cell at this local position, in direction d. -/
  | cellTorus (plot : PlotIx) (lx : Fin 64) (ly : Fin 68) (d : Fin 4)
  /-- The link between a plot's gate and the i-th of its 16 attachment cells, 4·(local y − 32) + local x − 30: into the gate
  (`up`) or out of it (R282). -/
  | attach (plot : PlotIx) (i : Fin 16) (up : Bool)
  /-- The path between a pavilion's DMA engine and its gate through the port cell, into the gate or out of it (R282). -/
  | port (p : PavIx) (up : Bool)
  /-- Link j of the 16 of attachment i (0–3) of a segment to its gate (R32). -/
  | segGate (seg : SegIx) (i : Fin 4) (j : Fin 16)
  /-- A Colonnade ring hop leaving a segment, clockwise (0) or not (1). -/
  | colonnade (seg : SegIx) (ring : Fin 2)
  /-- A Footbridge span: rows 0–6, the north rim 7, the south rim 8. -/
  | span (n : Fin 9)
  /-- The lanes of the north rim span that carry the East branch of the service spine (R14). -/
  | spine
  /-- A server port. -/
  | server (s : SrvIx)
  /-- An HBM stack's interface. -/
  | stack (k : StackIx)
  /-- A host port. -/
  | host (h : PortIx)
  deriving DecidableEq, Repr, Inhabited

/-- What a plot's BIST found (R501). Cells are local positions 64·y + x. -/
structure BistResult where
  /-- ME lines to retire: pavilion q of the plot, column (true) or row, physical line. -/
  meLines : List (Fin 4 × Bool × Nat)
  /-- Bit columns steered into the spare bit: pavilion q, physical cell of the garden, bank. -/
  bitColumns : List (Fin 4 × Fin 1088 × Fin 4)
  /-- Failed cells, as pavilion q and physical cell, with router-dead marks. -/
  cells : List (Fin 4 × Fin 1088 × Bool)
  /-- Pavilions whose engine block failed. -/
  pavilions : List (Fin 4)
  /-- Failed tracks of stitched links (R16). -/
  tracks : List (LinkId × Nat)
  deriving DecidableEq, Repr

/-- A card of a deal with its place (R514) and its 4,096 bytes. -/
structure Card where
  number : Fin 16384
  scope : BitVec 4
  slot : BitVec 12
  target : BitVec 18
  deal : BitVec 8
  data : List Byte
  deriving DecidableEq, Repr

/-- A target of a card (R512, R514): a presented cell, an engine stage or a gate's firmware store. -/
inductive DealTarget where
  | cell (p : PavIx) (n : Fin 1024)
  | stage (p : PavIx)
  | gate (p : PlotIx)
  deriving DecidableEq, Repr

/-- The unit of a drill (R445, R446): kind as the drill entry has it, and where. -/
structure DrillUnit where
  kind : BitVec 8
  plot : PlotIx
  q : Fin 4
  subunit : BitVec 16
  deriving DecidableEq, Repr

/-- The measurement of one power domain (R490–R492), in rail numbering: planned millivolts at 2.1 GHz
and at 1.68 GHz, and the hours of remaining life. -/
structure AgeMeas where
  rail : Fin 177
  plan21 : Nat
  plan168 : Nat
  life : BitVec 32
  deriving DecidableEq, Repr

/-- A reading of one rail over AVSBus (R475). -/
structure RailReading where
  rail : Fin 201
  mv : BitVec 16
  amps : BitVec 16
  deriving DecidableEq, Repr

/-- A sensor location of R482: a plot, a segment or the Lodge. -/
inductive HeatSite where
  | plot (p : PlotIx)
  | segment (n : SegIx)
  deriving DecidableEq, Repr

/-- Where a record waits before it is sent to the Lodge (R442): a plot's service node or a segment. -/
inductive CoalNode where
  | plot (p : PlotIx)
  | segment (n : SegIx)
  deriving DecidableEq, Repr

/-- A power-up step of R496. -/
abbrev StepNo := Fin 7

/-- The digest comparison that a read-back of an interval makes (R433). -/
inductive DigestCmp where
  | d1 | d2
  deriving DecidableEq, Repr

/-- A receiver of the fabric (R287). -/
inductive Receiver where
  | cell (c : CellXY)
  | dma (p : PavIx)
  | agent (p : PlotIx)
  | host (h : PortIx)
  | server (s : SrvIx)
  deriving DecidableEq, Repr

/-- What freezes a section (R277, R449). -/
inductive FreezeCause where
  | checkFault | circuitFault | poisonedProgram | unitDeath | plotCut | digestFault | poison | drill
  deriving DecidableEq, Repr

/-- The reset sources of a plot's loss of power (R478). -/
inductive DomainKind where
  | E | G | H
  deriving DecidableEq, Repr

/-- A power domain that may be switched (R469). -/
inductive Domain where
  | plot (p : PlotIx) (k : DomainKind)
  | segment (n : SegIx)
  deriving DecidableEq, Repr

/-- The flash regions of R493 that a sector write belongs to. -/
inductive FlashRegion where
  | firmware | security | settings | repair | ageing | images | drill
  deriving DecidableEq, Repr

/-- The commands, in the order of spec/opcode_table.json. Instructions of the pavilion sequencer carry
the pavilion, the stream that offers them and the instruction bits below the opcode; instructions of a
cell core carry the cell and their operands. -/
inductive Instr where
  -- matrix engine
  | mgeom (p : PavIx) (s : StreamIx) (w : Body)
  | mload (p : PavIx) (s : StreamIx) (w : Body)
  | tileLoadDone (p : PavIx)
  | moset (p : PavIx) (s : StreamIx) (w : Body)
  | mpset (p : PavIx) (s : StreamIx) (w : Body)
  | mfset (p : PavIx) (s : StreamIx) (w : Body)
  | mrun (p : PavIx) (s : StreamIx) (w : Body)
  | macc (p : PavIx) (s : StreamIx) (w : Body)
  | rowIssue (p : PavIx)
  | rowVerdict (p : PavIx) (o : VerdictObs)
  | shadowShift (p : PavIx) (o : List (Fin 512 × VerdictObs))
  | drainStart (p : PavIx)
  | lineRetirement (p : PavIx) (column : Bool) (line : Fin 530)
  | forecastSlotDisabled (p : PavIx) (slot : Fin 64)
  | forecastWindowEnd (p : PavIx) (slot : Fin 64)
  | munpk (p : PavIx) (s : StreamIx) (w : Body) (c : Chk)
  | mpack (p : PavIx) (s : StreamIx) (w : Body) (c : Chk)
  -- vector engine
  | vadd (p : PavIx) (s : StreamIx) (w : Body) (c : Chk)
  | vsub (p : PavIx) (s : StreamIx) (w : Body) (c : Chk)
  | vmul (p : PavIx) (s : StreamIx) (w : Body) (c : Chk)
  | vfma (p : PavIx) (s : StreamIx) (w : Body) (c : Chk)
  | vfmai (p : PavIx) (s : StreamIx) (w : Body) (c : Chk)
  | vaddi (p : PavIx) (s : StreamIx) (w : Body) (c : Chk)
  | vmuli (p : PavIx) (s : StreamIx) (w : Body) (c : Chk)
  | vmax (p : PavIx) (s : StreamIx) (w : Body) (c : Chk)
  | vmin (p : PavIx) (s : StreamIx) (w : Body) (c : Chk)
  | vabs (p : PavIx) (s : StreamIx) (w : Body) (c : Chk)
  | vneg (p : PavIx) (s : StreamIx) (w : Body) (c : Chk)
  | vbcast (p : PavIx) (s : StreamIx) (w : Body) (c : Chk)
  | viadd (p : PavIx) (s : StreamIx) (w : Body) (c : Chk)
  | vimul (p : PavIx) (s : StreamIx) (w : Body) (c : Chk)
  | vilog (p : PavIx) (s : StreamIx) (w : Body) (c : Chk)
  | vishi (p : PavIx) (s : StreamIx) (w : Body) (c : Chk)
  | vcmp (p : PavIx) (s : StreamIx) (w : Body) (c : Chk)
  | vcmpi (p : PavIx) (s : StreamIx) (w : Body) (c : Chk)
  | vicmp (p : PavIx) (s : StreamIx) (w : Body) (c : Chk)
  | vsel (p : PavIx) (s : StreamIx) (w : Body) (c : Chk)
  | vpst (p : PavIx) (s : StreamIx) (w : Body) (c : Chk)
  | vpld (p : PavIx) (s : StreamIx) (w : Body) (c : Chk)
  | vpcnt (p : PavIx) (s : StreamIx) (w : Body) (c : Chk)
  | vcvt (p : PavIx) (s : StreamIx) (w : Body) (c : Chk)
  | vpkmx (p : PavIx) (s : StreamIx) (w : Body) (c : Chk)
  | vupmx (p : PavIx) (s : StreamIx) (w : Body) (c : Chk)
  | vsplit (p : PavIx) (s : StreamIx) (w : Body) (c : Chk)
  | vi2f (p : PavIx) (s : StreamIx) (w : Body) (c : Chk)
  | vf2i (p : PavIx) (s : StreamIx) (w : Body) (c : Chk)
  | vrcp (p : PavIx) (s : StreamIx) (w : Body) (c : Chk)
  | vrsqrt (p : PavIx) (s : StreamIx) (w : Body) (c : Chk)
  | vexp2 (p : PavIx) (s : StreamIx) (w : Body) (c : Chk)
  | vlog2 (p : PavIx) (s : StreamIx) (w : Body) (c : Chk)
  | vtanh (p : PavIx) (s : StreamIx) (w : Body) (c : Chk)
  | vsigm (p : PavIx) (s : StreamIx) (w : Body) (c : Chk)
  | vred (p : PavIx) (s : StreamIx) (w : Body) (c : Chk)
  | vscan (p : PavIx) (s : StreamIx) (w : Body) (c : Chk)
  | vgath (p : PavIx) (s : StreamIx) (w : Body) (c : Chk)
  | vflags (p : PavIx) (s : StreamIx) (w : Body) (c : Chk)
  -- DMA port
  | dcopy (p : PavIx) (s : StreamIx) (w : Body)
  | dcopyFinish (p : PavIx) (k : Fin 4) (e : XferEnd)
  | psend (p : PavIx) (s : StreamIx) (w : Body)
  | precv (p : PavIx) (s : StreamIx) (w : Body)
  | precvItem (p : PavIx) (port : Fin 16)
  -- control port
  | nop (p : PavIx) (s : StreamIx) (w : Body)
  | wait (p : PavIx) (s : StreamIx) (w : Body)
  | waitEnd (p : PavIx) (s : StreamIx)
  | halt (p : PavIx) (s : StreamIx) (w : Body)
  | loop (p : PavIx) (s : StreamIx) (w : Body)
  | syncw (p : PavIx) (s : StreamIx) (w : Body)
  | syncwRelease (p : PavIx) (s : StreamIx)
  | synca (p : PavIx) (s : StreamIx) (w : Body)
  | cpost (p : PavIx) (s : StreamIx) (w : Body)
  | fence (p : PavIx) (s : StreamIx) (w : Body)
  | markp (p : PavIx) (s : StreamIx) (w : Body)
  | stalledIssue (p : PavIx) (s : StreamIx)
  | stallLimit (p : PavIx) (s : StreamIx)
  | runStart (p : PavIx)
  | runEnd (p : PavIx)
  | markTaken (p : PavIx)
  | markVerified (p : PavIx)
  | digestReadback (p : PavIx) (c : DigestCmp)
  -- cell core
  | add (c : CellXY) (gd ga : RegIx) (b : Src)
  | sub (c : CellXY) (gd ga : RegIx) (b : Src)
  | and (c : CellXY) (gd ga : RegIx) (b : Src)
  | or (c : CellXY) (gd ga : RegIx) (b : Src)
  | xor (c : CellXY) (gd ga : RegIx) (b : Src)
  | shifts (c : CellXY) (k : ShiftKind) (gd ga : RegIx) (b : Src)
  | setLessThan (c : CellXY) (unsigned : Bool) (gd ga : RegIx) (b : Src)
  | min (c : CellXY) (gd ga : RegIx) (b : Src)
  | max (c : CellXY) (gd ga : RegIx) (b : Src)
  | loadUpperImmediate (c : CellXY) (gd : RegIx) (imm : BitVec 21)
  | mul (c : CellXY) (gd ga gb : RegIx)
  | mulh (c : CellXY) (gd ga gb : RegIx)
  | mulhu (c : CellXY) (gd ga gb : RegIx)
  | div (c : CellXY) (gd ga gb : RegIx)
  | divu (c : CellXY) (gd ga gb : RegIx)
  | rem (c : CellXY) (gd ga gb : RegIx)
  | remu (c : CellXY) (gd ga gb : RegIx)
  | fadd (c : CellXY) (gd ga gb : RegIx)
  | fsub (c : CellXY) (gd ga gb : RegIx)
  | fmul (c : CellXY) (gd ga gb : RegIx)
  | ffma (c : CellXY) (gd ga gb : RegIx)
  | fmin (c : CellXY) (gd ga gb : RegIx)
  | fmax (c : CellXY) (gd ga gb : RegIx)
  | fcmp (c : CellXY) (r : FRel) (gd ga gb : RegIx)
  | fcvt (c : CellXY) (d : FCvtDir) (gd ga : RegIx)
  | fdiv (c : CellXY) (gd ga gb : RegIx)
  | fsqrt (c : CellXY) (gd ga : RegIx)
  | ld (c : CellXY) (z : MemSize) (gd ga : RegIx) (off : BitVec 16)
  | st (c : CellXY) (z : MemSize) (gd ga : RegIx) (off : BitVec 16)
  | ldp (c : CellXY) (gd ga : RegIx) (off : BitVec 16)
  | stp (c : CellXY) (gd ga : RegIx) (off : BitVec 16)
  | compareAndBranch (c : CellXY) (k : BranchCond) (ga gb : RegIx) (off : BitVec 16)
  | jump (c : CellXY) (off : BitVec 26)
  | jumpAndLink (c : CellXY) (off : BitVec 26)
  | movq (c : CellXY) (ga : RegIx)
  | sigc (c : CellXY) (ga gb : RegIx)
  | rdctr (c : CellXY) (gd ga : RegIx)
  | wfe (c : CellXY)
  | wfeWake (c : CellXY)
  | csrr (c : CellXY) (gd : RegIx) (n : BitVec 12)
  | csrw (c : CellXY) (ga : RegIx) (n : BitVec 12)
  | trap (c : CellXY)
  | tret (c : CellXY)
  | coreFence (c : CellXY)
  | moveTransferStart (c : CellXY)
  | moveTransferFinish (c : CellXY) (k : Fin 4) (e : XferEnd)
  -- garden memory
  | correctionWriteBack (p : PavIx) (cell : Fin 1088) (bank : Fin 4)
  | gardenPatrolScrub (p : PavIx) (cell : Fin 1088) (bank : Fin 4)
  | tagWaitEnd (p : PavIx) (tag : Fin 65536)
  | tagTimeout (p : PavIx) (tag : Fin 65536)
  | plotScrub (p : PlotIx)
  | plotScrubDone (p : PlotIx) (failedPavs : List (Fin 4)) (failedCells : List (Fin 4 × Fin 1088))
  -- Promenade
  | beatArrival (p : PlotIx) (src : Fin 512) (b : Beat) (e : BeatErr)
  | steeringResolve (p : PlotIx) (u : Fin 32)
  | skewTimeout (p : PlotIx) (join : Fin 48)
  | mergeEmit (p : PlotIx) (m : Fin 16) (ok : Bool)
  | sectionEnd (a : AllotIx)
  | sectionFreeze (a : AllotIx) (c : FreezeCause)
  -- packet fabric
  | req (k : Packet)
  | read (k : Packet)
  | reply (k : Packet)
  | data (k : Packet)
  | nack (k : Packet)
  | signalPacket (k : Packet)
  | control (k : Packet)
  | granule (k : Packet)
  | heldGrant (r : Receiver)
  | fullRetry (r : Receiver) (tag : BitVec 12)
  | requestTimeout (r : Receiver) (tag : BitVec 12)
  | landingTimeout (r : Receiver) (entry : BitVec 12)
  | doneQuery (r : Receiver) (tag : BitVec 12)
  | escapeSet (r : Router) (column : Bool) (k : Packet)
  | ageRaise (k : Packet)
  | linkErrorWindow (l : LinkId) (failures bits : Nat)
  | linkWithdrawal (l : LinkId) (vc : BitVec 2)
  | granuleResend (p : PlotIx) (tag : BitVec 12)
  -- stacked memory
  | hbmPatrolScrub (k : StackIx) (line : Nat)
  | pcReplacement (k : StackIx) (pc : Fin 64)
  | stackFailed (k : StackIx)
  | hbmRetrain (k : StackIx) (temp : BitVec 32) (ok : Bool)
  | hbmZeroingDone (a : AllotIx)
  -- Holcel ring
  | relayOpen
  | watchdogExpiry (restarted : Nat)
  | expeditedRead (f : HFrame)
  | expeditedWrite (f : HFrame)
  | segmentedRead (f : HFrame)
  | segmentedWrite (f : HFrame)
  | segmentedTransferDrop (station : BitVec 7) (index : BitVec 16) (sub : BitVec 8)
  | blockControl (f : HFrame)
  | blockWrite (f : HFrame)
  | abort (f : HFrame)
  | eventAck (f : HFrame)
  | eventResend (seq : BitVec 16)
  | sync (f : HFrame) (residence : BitVec 64)
  | syncSend
  | delayReq (f : HFrame)
  | delayResp (f : HFrame)
  | syncLost
  | frameForward (f : HFrame)
  | stationAssign (f : HFrame)
  -- dictionary objects with behaviour
  | objectWrite (r : Requester) (index : BitVec 16) (sub : BitVec 8) (v : List Byte)
  | counterReadClear (r : Requester) (index : BitVec 16) (sub : BitVec 8)
  | moduleStop (r : Requester)
  | moduleOperate (r : Requester)
  | allotmentOpen (r : Requester) (a : AllotIx)
  | allotmentClose (r : Requester) (a : AllotIx)
  | allotmentOpenDone (a : AllotIx) (ok : Bool)
  | allotmentCloseDone (a : AllotIx)
  | plotDisable (r : Requester) (p : PlotIx)
  | plotEnable (r : Requester) (p : PlotIx) (failedDrill : List (Fin 4))
  | pavilionDisable (r : Requester) (p : PavIx)
  | pavilionEnable (r : Requester) (p : PavIx) (drillOk : Bool)
  | hostPortDisable (r : Requester) (h : PortIx)
  | hostPortEnable (r : Requester) (h : PortIx)
  | serverPortDisable (r : Requester) (s : SrvIx)
  | serverPortEnable (r : Requester) (s : SrvIx)
  | forecastRearm (r : Requester) (p : PavIx) (bits : BitVec 64)
  | overlaySelect (r : Requester) (a : AllotIx) (slot : BitVec 8)
  | parcelRedeal (a : AllotIx)
  | attachWrite (r : Requester) (a : AllotIx) (v : BitVec 8)
  | serverPortsWrite (r : Requester) (a : AllotIx) (v : BitVec 16)
  | powerCapWrite (r : Requester) (v : BitVec 32)
  | activeBaseWrite (r : Requester) (v : BitVec 8)
  | imageErase (r : Requester) (n : Fin 64) (v : BitVec 8)
  | imageCheckDone (n : Fin 64)
  | logRecordRead (r : Requester)
  | logPositionWrite (r : Requester) (v : BitVec 32)
  | logLostRead (r : Requester)
  | logClear (r : Requester) (v : BitVec 8)
  | nonceWrite (r : Requester) (nonce : List Byte)
  | reportRead (r : Requester)
  | serviceUnlock (r : Requester) (token : List Byte)
  | serviceUnlockExpiry
  | debugOpen (r : Requester) (token : List Byte)
  | firmwareWrite (r : Requester) (image : List Byte)
  | drillPackageCheckDone
  | hello (f : HFrame)
  | accept (f : HFrame)
  | close (f : HFrame)
  | wkeySet (f : HFrame)
  | wkeyDel (f : HFrame)
  | ownersSet (f : HFrame)
  | sessionTimeout (session : BitVec 16)
  | handshakeTimeout (station : BitVec 7)
  | getMeasurements (h : PortIx) (f : FnIx) (mlDsa : Bool)
  -- host ports
  | mailboxRead (h : PortIx) (f : FnIx) (ctrl : BitVec 32)
  | mailboxWrite (h : PortIx) (f : FnIx) (ctrl : BitVec 32)
  | registerWrite (h : PortIx) (f : FnIx) (off : BitVec 16) (v : BitVec 64) (wide : Bool)
  | evqCtrlWrite (h : PortIx) (f : FnIx) (v : BitVec 32)
  | evqHeadWrite (h : PortIx) (f : FnIx) (v : BitVec 32)
  | eventRingWrite (h : PortIx) (f : FnIx)
  | queueOpen (h : PortIx) (f : FnIx)
  | queueClose (h : PortIx) (f : FnIx)
  | submissionDoorbell (h : PortIx) (f : FnIx) (q : BitVec 16) (v : BitVec 32)
  | completionDoorbell (h : PortIx) (f : FnIx) (q : BitVec 16) (v : BitVec 32)
  | commandFetch (h : PortIx) (f : FnIx) (q : BitVec 16) (e : BitVec 512) (memError : Bool)
  | interruptCoalesceTimeout (h : PortIx) (f : FnIx) (q : BitVec 16)
  | bar4Read (h : PortIx) (f : FnIx) (off : BitVec 36) (len : BitVec 13)
  | bar4Write (h : PortIx) (f : FnIx) (off : BitVec 36) (v : List Byte) (poisoned : Bool)
  -- host commands, started from a queue of an allotment
  | launch (a : AllotIx) (q : BitVec 16)
  | jobEnd (a : AllotIx) (job : BitVec 64)
  | copy (a : AllotIx) (q : BitVec 16) (hd : HostRead)
  | wopen (a : AllotIx) (q : BitVec 16)
  | wclose (a : AllotIx) (q : BitVec 16)
  | mark (a : AllotIx) (q : BitVec 16)
  | hostFence (a : AllotIx) (q : BitVec 16)
  | waitEvent (a : AllotIx) (q : BitVec 16)
  | waitEventTimeout (a : AllotIx) (q : BitVec 16)
  | signal (a : AllotIx) (q : BitVec 16)
  | loadImage (a : AllotIx) (q : BitVec 16) (hd : HostRead)
  | queryProgress (a : AllotIx) (q : BitVec 16)
  | abortJob (a : AllotIx) (q : BitVec 16)
  -- PCIe events
  | perstAssert (h : PortIx)
  | perstRelease (h : PortIx)
  | linkDown (h : PortIx) (surprise : Bool)
  | linkUp (h : PortIx) (width : BitVec 8) (rate : BitVec 8)
  | flr (h : PortIx) (f : FnIx)
  | d3hotEntry (h : PortIx) (f : FnIx)
  -- server ports
  | transportWrite (s : SrvIx) (f : TFrame)
  | transportRead (s : SrvIx) (f : TFrame)
  | bind (s : SrvIx) (f : TFrame)
  | done (s : SrvIx) (f : TFrame)
  | transportNack (s : SrvIx) (f : TFrame)
  | transferTimer (s : SrvIx) (peer : BitVec 48) (xid : BitVec 16) (handle : BitVec 32)
  | outgoingResend (s : SrvIx) (xid : BitVec 16)
  | busyRetry (s : SrvIx) (xid : BitVec 16) (expired : Bool)
  | windowClosed (s : SrvIx) (entry : BitVec 12)
  | serverPortRetrain (s : SrvIx) (ber : BitVec 32)
  | footbridgeRetrain (n : Fin 9) (errors bits : Nat) (lanes : List (LinkId × Nat))
  -- drills and error records
  | drill (u : DrillUnit) (pass again : Bool)
  | forcedDrill (p : PavIx)
  | coalescerSend (n : CoalNode)
  | recordArrival
  -- recovery
  | replay (a : AllotIx)
  | freezeAbandon (a : AllotIx)
  | cellShuffle (p : PavIx) (cell : Fin 1088) (coreOnly : Bool) (dummy : Fin 1088)
  | pavilionShuffle (p : PavIx)
  | plotShuffle (p : PlotIx)
  | doubling (p : PavIx)
  | contextSwitch (p : PavIx)
  | standInFailure (p : PavIx)
  | doublingEnd (reserve : PavIx)
  -- power, clocks, heat, ageing
  | powerControlTick (readings : List RailReading)
  | alertLow (g : Fin 17)
  | alertClear (g : Fin 17)
  | avsStep (rail : Fin 201) (mv : BitVec 16)
  | shortDetected (d : Domain)
  | pgLoss (g : Fin 17)
  | pllLockLoss (p : PlotIx)
  | pllRelock (p : PlotIx) (bistOk : List (Fin 4))
  | derate (p : PlotIx)
  | thermalWarning (p : PlotIx) (temp : BitVec 32)
  | thermalDutyStep (p : PlotIx) (temp : BitVec 32)
  | shed (p : PlotIx) (temp : BitVec 32)
  | cut (p : PlotIx) (temp : BitVec 32)
  | thermTrip (s : HeatSite) (temp : BitVec 32)
  | thermTripRelease
  | plotReturn (p : PlotIx) (temp : BitVec 32)
  | ageingMeasurement (m : List AgeMeas)
  | flashSectorWrite
  -- start-up and resets
  | auxPowerOn
  | auxPowerLoss
  | lodgeResetAssert
  | lodgeResetRelease
  | segmentPowerOn
  | plotWave (w : Fin 7)
  | bistDone (p : PlotIx) (r : BistResult)
  | dealStart (a : Option AllotIx)
  | card (c : Card) (missed : List DealTarget)
  | deckEnd
  | dealRoundEnd (p : PlotIx)
  | linkCheck (l : LinkId) (ok okAgain : Bool) (lanes again : List (LinkId × Nat))
  | moduleReady
  | ringPortLinkChange (portB up : Bool)
  | spineBreak (east : Bool) (point : Fin 29)
  | powerGood (g : Option (Fin 17))
  | startupStepBound (n : StepNo)
  | segmentTrainingDone (n : SegIx) (stacksOk : List StackIx)
  | holdUpCharged (mJ : BitVec 32) (full : Bool)
  | pcieCompletionTimeout (a : AllotIx) (q : BitVec 16)
  | progressIndexRelease (k : Fin 160)
  | serverLinkTraining (s : SrvIx) (ok : Bool) (gelbuson : Bool)
  | ideKmKeyProg (h : PortIx) (f : FnIx) (key : List Byte)
  deriving DecidableEq, Repr

end Sys2Proof
end

