-- ==== Sys2Proof/Config.lean ====
section
/-! DEFINITION. What the manual leaves open: free values. Each constant has no body, so a statement holds for
every value it may take. Each names its row of the assumption log. -/

namespace Sys2Proof.Config

/-- Free value number n of width 32, 64, 16 or 8 bits (log 6). -/
opaque free32 : Nat → BitVec 32
opaque free64 : Nat → BitVec 64
opaque free16 : Nat → BitVec 16
opaque freeByte : Nat → BitVec 8
opaque freeBool : Nat → Bool

/-- Bits of part i of a row of sums whose contents are undefined, free value number n (R85; log 61). -/
opaque freeSum (n i : Nat) : BitVec 64

/-- The pass that stream i's work belongs to in a run, free value number n: 0 forward, 1 full backward, 2 pass-through backward
(R128, R374; log 53). -/
opaque passKind (n i : Nat) : Fin 3

/-- Rows of stack k that its soft post-package repair can repair (R316, R328; log 117). -/
opaque softRepairs (k : Nat) : Nat

/-- The link on which packet n that failed its CRC came (R305; log 114). -/
opaque failedLink (n : Nat) : LinkId

/-- The 16 random bits of draw n of pavilion p after the program load that took free value e as its seed (R50; log 9). -/
opaque random (p e n : Nat) : BitVec 16

/-- The result a transcendental unit proposes for an operand, as FP32 bits, and an immediate; it is the same in every run
(R55, R143; log 10). -/
opaque transcendental (op : Nat) (x imm : BitVec 32) : BitVec 32

/-- What a corrector delivers of a row with four or more bit errors, or a line with five or more symbol
errors: 0 poisoned, 1 miscorrected, 2 unchanged (R234, R319; log 19). -/
opaque beyondCode : Nat → Nat

/-- The data a miscorrection delivers: byte i of the row, free value n (log 19). -/
opaque miscorrected (n i : Nat) : BitVec 8

/-- Draw n of the Lodge's DRBG, of `len` bytes (R534; log 15). -/
opaque drbg (n len : Nat) : List (BitVec 8)

/-- The generation, less 1, that draw n of the Lodge's DRBG gives to entry e of a port (R406; log 15). -/
opaque windowGen (n e : Nat) : Fin 255

/-- ML-DSA-65 verification of FIPS 204: context string, public key, message, signature (R521; log 15). -/
opaque mlDsaVerify (context key message sig : List (BitVec 8)) : Bool

/-- The identity key's ML-DSA-65 signature over a message in a context (R522; log 15). -/
opaque mlDsaSign (context message : List (BitVec 8)) : List (BitVec 8)

/-- The start-up deck that a firmware image carries, whose layout R513 does not give: scope, slot, target and data of
each card, in card order (log 3). -/
opaque startDeck (image : List (BitVec 8)) : List (BitVec 4 × BitVec 12 × BitVec 18 × List (BitVec 8))

/-- The version that a Lodge firmware image carries, as 0x1000:06 reports it; R526 gives its place no layout (log 3). -/
opaque fwVersion (image : List (BitVec 8)) : BitVec 32

/-- The public identity key and the provisioning signature of R530, 5,261 bytes (log 3). -/
opaque identityKey : List (BitVec 8)

/-- The public key whose SHAKE256 digest is a key identifier admitted for a vendor role (R522; log 15):
role, keyid. -/
opaque vendorKey (role : Nat) (keyid : List (BitVec 8)) : Option (List (BitVec 8))

/-- ML-KEM-768 of FIPS 203: the encapsulation key of draw n, and decapsulation with that draw's key (R521;
log 15). -/
opaque mlKemKey (n : Nat) : List (BitVec 8)
opaque mlKemDecaps (n : Nat) (ciphertext : List (BitVec 8)) : List (BitVec 8)

/-- AES-256 key unwrap of SP 800-38F: none when the check value fails (R521; log 15). -/
opaque aesUnwrap (kek wrapped : List (BitVec 8)) : Option (List (BitVec 8))

/-- Digest of the measured object kinds that the module does not hold as bytes: Lodge ROM (1), and the fuse block (4, to which 256 times
the fuses blown is added) (R536; log 15). -/
opaque measured (kind : Nat) : BitVec 256

/-- The duty, less 1 and modulo 64, that the Lodge sets after reading free value number n's currents; R475 gives no formula
(log 43). -/
opaque capDuty (power cap n : Nat) : Nat

/-- The register that jump-and-link writes; class J has no gd field (R208, R209; log 16). -/
opaque linkReg : Fin 32

/-- Results the manual does not state for a cell core operation: operation, operands, free value number
(R208; log 16). -/
opaque coreOpen (op : Nat) (a b : BitVec 32) (n : Nat) : BitVec 32

/-- The MAC addresses of ring ports A (false) and B, with which the module sends (R338); the spec gives no value (log 122). -/
opaque ringMac (onB : Bool) : BitVec 48

end Sys2Proof.Config
end

