-- ==== Sys2Proof/Machine/StateEngine.lean ====
section
/-! DEFINITION. The state of one pavilion: garden, engine stage, matrix engine, vector engine, sequencer
and cell cores, as plain data. Each structure's docstring names the rules that give its fields. -/

namespace Sys2Proof.Machine

/-- A finite table from natural-number keys, held in ascending key order. What an absent key reads as is
given where the table is read. -/
abbrev Tab (α : Type) := List (Nat × α)

/-- A value read from a storage format (R37): a finite `(−1)^neg · m · 2^e`, an infinity, or a NaN that
is signalling or quiet (R39). -/
inductive FV where
  | fin (neg : Bool) (m : Nat) (e : Int)
  | inf (neg : Bool)
  | nan (signalling : Bool)
  deriving DecidableEq, Repr

/-- The stored condition of a 64-byte row or line (R234, R319): its poison bit, and how many bit or
symbol errors its storage has gathered beside the stored bytes. -/
structure RowMeta where
  poison : Bool
  errs : Nat
  deriving DecidableEq, Repr

/-- A memory of 64-byte rows: its bytes in canonical form (ascending addresses, no byte 0 listed; an
unlisted byte reads 0, R248, R250, R327) and the rows that are poisoned or hold errors. -/
structure Store where
  bytes : List Host.Cell
  rows : Tab RowMeta
  deriving DecidableEq, Repr

/-- The accumulation paths of R45. -/
inductive Path where
  | exact | block | wide | fp32
  deriving DecidableEq, Repr

/-- What a forecast load remembers of its record (R119–R123). -/
structure FcTile where
  slot : Nat
  dir : Bool
  span : Nat
  phase : Nat
  /-- The span index of each loaded column or K row. -/
  list : List Nat
  /-- Whether each entry of `list` is audited (R119). -/
  audited : List Bool
  /-- Loaded dense by R127 or R128. -/
  dense : Bool
  deriving DecidableEq, Repr

/-- A weight tile in a bank of PE registers (R61, R69, R78). `cols` lists the columns, MX values under their scales
(R80); a position that 2:4 compression does not name holds `none` and forms no product (R98, R102). -/
structure Tile where
  wfmt : BitVec 4
  spa : Bool
  part : Bool
  /-- Logical K extent (R73, R100). -/
  kext : Nat
  next : Nat
  cols : List (List (Option FV))
  /-- What the checksum columns c1 and c2 hold for each logical K row (R78, R79). -/
  ck : List (FV × FV)
  poison : Bool
  fc : Option FcTile
  /-- An empty forecast chunk, which loads nothing (R121). -/
  empty : Bool
  deriving DecidableEq, Repr

/-- A forecast recorder attached to an output context (R124, R125). -/
structure Recorder where
  aud : Bool
  raddr : Nat
  mask : BitVec 8192
  /-- slot, dir, span and phase of the source record, once a pass has used one. -/
  source : Option (Nat × Bool × Nat × Nat)
  /-- The scoreboard entry held over the destination record. -/
  entry : Nat
  deriving DecidableEq, Repr

/-- An output context (R71) with its pruning setting (R108). The scale and bias vectors are the values
read at the MOSET, with one poison mark per column (R87). -/
structure OutCtx where
  ofmt : BitVec 4
  rnd : Bool
  scl : Bool
  bia : Bool
  clp : Bool
  saddr : BitVec 17
  baddr : BitVec 17
  scale : Word
  clo : BitVec 16
  chi : BitVec 16
  svec : List Word
  bvec : List Word
  vpoison : List Bool
  pmode : BitVec 3
  iaddr : BitVec 32
  deriving DecidableEq, Repr

/-- A running sum with the special values beside it (R52, R53): products still in X96, the part already
in W40 (R46), the products so far, and which special products were seen. -/
structure Acc where
  run : Dy
  w40 : FV
  n : Nat
  nan : Bool
  pinf : Bool
  ninf : Bool
  hasProd : Bool
  allNegZero : Bool
  deriving DecidableEq, Repr

/-- One row of the accumulator array (R85) or of the PE accumulators (R74), with its poison tag (R436). -/
structure AccRow where
  cols : List Acc
  poison : Bool
  /-- Σ |x·w| over the row, for the tolerances of R88. -/
  mag : Dy
  deriving DecidableEq, Repr

/-- An MRUN or MACC that the ME holds (R190), as it stood at issue. -/
structure Pass where
  id : Nat
  macc : Bool
  stream : Nat
  slot : Nat
  w : Body
  ctx : OutCtx
  octx : Nat
  path : Path
  /-- Input rows of an MRUN, K-steps of a MACC. -/
  rows : Nat
  issued : Nat
  swapped : Bool
  xpitch : Nat
  wpitch : Nat
  ypitch : Nat
  /-- Scoreboard entries released at the last row read, and at the last verdict (R203). -/
  rd : List Nat
  wr : List Nat
  /-- Tag slots of the garden that the drain has set to filling (R243). -/
  filled : List Nat
  /-- The interval of its writes (R430). -/
  interval : Nat
  deriving DecidableEq, Repr

/-- The four sums that a row's verdict compares (R88): s1 and s2 of its data columns, t1 and t2 of the checksum columns. -/
structure RowSums where
  s1 : FV
  s2 : FV
  t1 : FV
  t2 : FV
  deriving DecidableEq, Repr

/-- The cross-check of R89 over 512 rows: the total of checksum column c1, T, and the magnitude of the rows. -/
structure CrossSums where
  total : FV
  t : FV
  mag : Dy
  deriving DecidableEq, Repr

/-- A row that has entered the output stage and waits for its verdict (R76, R88). -/
structure RowFlight where
  pass : Nat
  row : Nat
  macc : Bool
  /-- The row was added to a sum that the accumulator array held (R84). -/
  acc : Bool
  fin : Bool
  path : Path
  mag : Dy
  /-- K-steps the row's sums hold (R88's output-stationary tolerance). -/
  ksteps : Nat
  /-- Destination rows: garden (false) or engine stage (true), and the 64-byte row. -/
  dest : List (Bool × Nat)
  sums : RowSums
  /-- The cross-check that the last row of a drain completes (R89). -/
  cross : Option CrossSums
  /-- The last row of its pass. -/
  last : Bool
  deriving DecidableEq, Repr

/-- A check shadow of the PE accumulators (R83): what they held when it was copied, with the checksum columns. -/
structure Shadow where
  pass : Nat
  path : Path
  ksteps : Nat
  rows : Tab AccRow
  ck : Tab (FV × FV)
  t : FV
  /-- The copy after the last K-step of its MACC. -/
  last : Bool
  /-- The PEs still go on from the sums that it copied. -/
  live : Bool
  deriving DecidableEq, Repr

/-- A row of the ME output stream to the vector engine (R149). -/
structure StreamRow where
  fmt : BitVec 4
  vals : List (BitVec 64)
  poison : Bool
  pass : Nat
  row : Nat
  deriving DecidableEq, Repr

/-- A converted row that the pruning unit holds until its group of four is complete (R108, R113). -/
structure PruneRow where
  vals : List (BitVec 64)
  poison : List Bool
  pass : Nat
  row : Nat
  /-- It has failed its check, which poisons what its whole group writes. -/
  failed : Bool
  deriving DecidableEq, Repr

/-- The matrix engine (R59–R94). -/
structure ME where
  active : Option Tile
  idle : Option Tile
  /-- The loader is still shifting the idle tile (R77). -/
  loading : Bool
  /-- Scoreboard entries of the running load, its issue count and its stream. -/
  loadEntries : List Nat
  loadIssue : Nat
  loadStream : Nat
  running : Option Pass
  waiting : Option Pass
  /-- Passes whose rows have all been issued and whose last verdict is due. -/
  finishing : List Pass
  ctxs : List OutCtx
  recorders : List (Option Recorder)
  /-- Path and octx that the open accumulator array carries (R73). -/
  accOpen : Option (Path × Nat)
  acc : Tab AccRow
  /-- Steps done of the FP32 sequence of R92. -/
  fp32Step : Nat
  peAcc : Tab AccRow
  pePath : Option Path
  /-- K-steps in the PE accumulators. -/
  peSteps : Nat
  /-- The sums in the PEs of the checksum columns, by row, and T of R89. -/
  peCk : Tab (FV × FV)
  peT : FV
  /-- A drain has shifted the PE accumulators out, and nothing has been accumulated since. -/
  peGone : Bool
  /-- A-cycles of accumulation since the last shadow copy (R83). -/
  peSince : Nat
  /-- Check shadows that have not been compared, oldest first. -/
  shadows : List Shadow
  /-- A MACC whose K-steps are done and whose drain is due or running, with the rows shifted. -/
  drain : Option (Pass × Bool × Nat)
  prune : List PruneRow
  inFlight : List RowFlight
  streamBuf : List StreamRow
  /-- Rows whose verdict is due and that a VE instruction has taken: pass, row, and the scoreboard entry of what it wrote (R86,
  R90). -/
  fed : List (Nat × Nat × Nat)
  /-- Tile passes counted, and the pass count at the last fault of each physical column (R90). -/
  passes : Nat
  colFault : Tab Nat
  nextPass : Nat
  /-- Retired lines waiting to take effect (R94): column?, physical line. -/
  retiring : List (Bool × Nat)
  deriving DecidableEq, Repr

/-- The vector engine (R138, R152). -/
structure VE where
  preds : List (BitVec 8192)
  ppoison : List Bool
  sticky : Word
  snapshot : BitVec 7
  deriving DecidableEq, Repr

/-- An entry of the scoreboard (R201); `id` is the model's own name for it. -/
structure SbEntry where
  id : Nat
  intent : BitVec 2
  stage : Bool
  unit : BitVec 3
  stream : Nat
  base : Nat
  limit : Nat
  deriving DecidableEq, Repr

/-- A loop level (R192): first slot of the body, slot after it, trips left. -/
structure Loop where
  first : Nat
  limit : Nat
  left : Nat
  deriving DecidableEq, Repr

/-- What holds a stream (R191, R193, R195). -/
inductive Hold where
  | none
  | wait (cycles : Word)
  | sync (ctr : Nat) (value : Word)
  /-- A FENCE waits for the work issued before this issue count. -/
  | fence (issue : Nat)
  /-- The next instruction waits on the cadence, which does not count toward the stall limit. -/
  | cadence
  /-- The next instruction waits on a port, the scoreboard, a keep copy or the taint record. -/
  | stall
  deriving DecidableEq, Repr

/-- A stream's mark point (R196). -/
structure MarkPoint where
  tag : Word
  /-- Issue count of the MARKP: what its stream issued before it counts less. -/
  issue : Nat
  slot : Nat
  loops : List Loop
  deriving DecidableEq, Repr

/-- The passes of *Mode axes* (R374). -/
inductive PassKind where
  | forward | fullBackward | throughBackward
  deriving DecidableEq, Repr

/-- A program stream (R166, R188); its pitches outlive a run (R187). -/
structure Strm where
  /-- The pass that its work belongs to (R128, R176, R374), which the manual leaves to the program: a free value (log 53). -/
  pass : PassKind
  slot : Nat
  loops : List Loop
  halted : Bool
  hold : Hold
  /-- Time since which the stream is held (R191, R195). -/
  since : Nat
  /-- Its MARKPs whose mark has not been taken, oldest first (R196). -/
  markPts : List MarkPoint
  xpitch : BitVec 16
  wpitch : BitVec 16
  ypitch : BitVec 16
  /-- The interval its instructions belong to: one more than the marks it has passed (R430). -/
  interval : Nat
  deriving DecidableEq, Repr

/-- What a DMA place carries (R190, R198, R260, R261). -/
inductive DmaKind where
  | dcopy | psend | precv
  deriving DecidableEq, Repr

/-- A transfer of a DMA or move engine through the fabric, in parts of 3,145,728 bytes and one remainder (R292): what it moves, and
how many parts have begun, have been sent, and have finished; `fault` is the program-fault code of a failed part, or 0 (R307). -/
structure Parts where
  read : Bool
  dstX : BitVec 9
  dstY : BitVec 9
  address : Nat
  source : Nat
  length : Nat
  started : Nat
  sent : Nat
  done : Nat
  fault : Nat
  deriving DecidableEq, Repr

/-- A move that runs: its descriptor (R211) and its parts. -/
structure MoveXfer where
  d : BitVec 256
  parts : Parts
  deriving DecidableEq, Repr

/-- A transfer in one of the DMA engine's four places (R190, R198, R260, R261). -/
structure Dma where
  kind : DmaKind
  stream : Nat
  slot : Nat
  w : Body
  rd : List Nat
  wr : List Nat
  /-- Issue count (R193). -/
  issue : Nat
  /-- Positions a PRECV has landed or skipped, or beats a PSEND has sent (R262); 4 KiB pieces that a local DCOPY has moved in full/empty mode (R243). -/
  done : Nat
  /-- Its transfer through the fabric, when it has begun one. -/
  parts : Option Parts
  /-- The tag slot it waits on in full/empty mode (R243). -/
  tagWait : Option Nat
  /-- The interval of its writes (R430). -/
  interval : Nat
  deriving DecidableEq, Repr

/-- A full/empty tag (R239); parity is even over the other bits unless `badParity`. -/
structure Tag where
  state : BitVec 2
  readers : BitVec 4
  badParity : Bool
  deriving DecidableEq, Repr

/-- A mark record of the sequencer (R196). A pavilion whose run has ended or is still due has no points. -/
structure MarkRec where
  number : Nat
  tag : Word
  points : List MarkPoint
  /-- The cadence table and the synchronisation mode of its run, and whether its run is still due. -/
  cad : List Word
  tagged : Bool
  due : Bool
  /-- Its own work before the mark has finished; the section may still hold it back (R276). -/
  own : Bool
  cadEntry : Nat
  ctrs : List Word
  /-- The full/empty tags as they stand at the mark (R246), and the place of its section in the list. -/
  tags : Tab Tag
  sec : Nat
  deriving DecidableEq, Repr

/-- A taint entry (R430). -/
structure Taint where
  space : BitVec 3
  state : BitVec 2
  rew : Bool
  interval : Nat
  base : Nat
  limit : Nat
  unit : BitVec 3
  stream : BitVec 2
  dw : BitVec 51
  d1 : BitVec 64
  deriving DecidableEq, Repr

/-- A pair of the copy map (R438): a local range and the HBM bytes it was copied from. -/
structure CopyPair where
  stage : Bool
  base : Nat
  limit : Nat
  hbm : Nat
  deriving DecidableEq, Repr

/-- A keep copy (R450): the space (0 garden, 1 stage, 2 HBM), the row, where its copy stands, a garden row of a spare cell or an
HBM line of the keep area, and the interval of the write it precedes. -/
structure Keep where
  space : BitVec 3
  row : Nat
  at_ : Nat
  interval : Nat
  deriving DecidableEq, Repr

/-- The settings 0x2000:03–0x2000:08, which take effect for runs that begin after their write (R355). -/
structure Limits where
  window : BitVec 8
  threshold : BitVec 8
  stall : BitVec 8
  tag : BitVec 8
  skew : BitVec 8
  landing : Word
  deriving DecidableEq, Repr

/-- The pavilion sequencer (R184–R205, R430–R435). -/
structure Seq where
  /-- The settings of the run (R355). -/
  limits : Limits
  /-- The gate has still to start the pavilion's run of this section (R274, R392). -/
  due : Bool
  running : Bool
  /-- Issue is stopped: a program fault, a check fault or a freeze. -/
  stopped : Bool
  frozen : Bool
  nstr : Nat
  tagged : Bool
  cad : List Word
  cadEntry : Nat
  cadEnded : Bool
  cadPasses : Nat
  /-- The last MRUN issued under the current entry has fin = 0 (R169). -/
  cadOpen : Bool
  cadLoads : Nat
  /-- Loads already charged to a later entry (R167): entry and count. -/
  cadAhead : Option (Nat × Nat)
  /-- A cadence entry boundary has been reached since the mark points were complete. -/
  cadBoundary : Bool
  streams : List Strm
  /-- Last winning stream of each of the five ports (R189). -/
  lastWin : List Nat
  ctrs : List Word
  sb : List SbEntry
  nextId : Nat
  dma : List (Option Dma)
  /-- CPOST posts waiting for earlier work of their stream: stream, issue count, garden address, value and scoreboard
  entry. -/
  posts : List (Nat × Nat × Nat × Word × Nat)
  issued : Nat
  /-- Marks taken and not yet verified, oldest first. -/
  taken : List MarkRec
  /-- Verified marks, newest first; the last two are kept (R449). -/
  verified : List MarkRec
  interval : Nat
  /-- d1 and d2 comparisons still to pass for the mark being verified (R434). -/
  d1Pending : Bool
  d2Pending : Bool
  taint : List Taint
  copyMap : List CopyPair
  keep : List Keep
  /-- The tags as they stood at the start of the LAUNCH. -/
  startTags : Tab Tag
  runNs : Nat
  deriving DecidableEq, Repr

/-- A cell core with its move engine (R206–R215). -/
structure Core where
  regs : List Word
  pc : Word
  monitor : Bool
  /-- Held in reset until its hand is complete (R519), or clock-gated (R23, R221). -/
  held : Bool
  cause : Word
  epc : Word
  fflags : BitVec 5
  watch : BitVec 12
  /-- A write has landed in the watched row since the watch was set (R213). -/
  watchHit : Bool
  suspended : Bool
  /-- The entry point that the base image names for the cell, if it names one (R214). -/
  entry : Option Word
  moveQueue : List (BitVec 256)
  moves : List (Option MoveXfer)
  deriving DecidableEq, Repr

/-- A waiter of a tag slot (R243–R245): a DMA place, a place of the move engine of a pavilion's cell, the ME's drain or feed of the slot's
own pavilion, or a window's transfer. -/
inductive TagWaiter where
  | dma (p k : Nat)
  | move (p cell k : Nat)
  | drain
  | feed
  | window (s : Nat) (peer : Nat) (xid : Nat) (handle : Nat)
  deriving DecidableEq, Repr

/-- A write-back queued in slot 7 of a bank (R235): the garden row, and whether it sets poison. -/
structure WriteBack where
  row : Nat
  poison : Bool
  deriving DecidableEq, Repr

/-- Per physical cell error counts (R238). -/
structure EccCount where
  corrected : Word
  uncorrectable : Word
  dropped : Word
  deriving DecidableEq, Repr

/-- A forecast slot (R126). -/
structure FcSlot where
  /-- Audited outputs counted since the window began. -/
  audited : Nat
  /-- The misses among them, each by its place in the count. -/
  misses : List Nat
  disabled : Bool
  deriving DecidableEq, Repr

/-- The states of *Enable states* (R350). -/
inductive Enable where
  | closed | opening | open_ | closing | closingPending | failed
  deriving DecidableEq, Repr

/-- A pavilion's role (R18). -/
inductive Role where
  | presented | reserve | retired
  deriving DecidableEq, Repr

/-- A doubled context's place, listed at its pavilion index (R462–R466). -/
structure Doubled where
  standIn : Nat
  /-- HBM module address of its spill slot. -/
  spill : Nat
  deriving DecidableEq, Repr

/-- One physical pavilion (R18–R23). The garden holds its 1,088 physical cells at 262,144 bytes each, in
local row order; a presented position reaches its dummy through the plot's remap table. -/
structure Pav where
  role : Role
  enable : Enable
  me : ME
  ve : VE
  seq : Seq
  stage : Store
  garden : Store
  /-- The drill row of each bank lies outside the address map (R238). -/
  drillRows : Tab (List Byte)
  tags : Tab Tag
  tagPlan : Tab (BitVec 4)
  /-- Accesses that wait on a tag, each with the time since which it waits (R245). -/
  tagWaiters : List (Nat × TagWaiter × Nat)
  fullEmpty : Bool
  pool : BitVec 64
  /-- An overlay's garden settings take effect when the run ends (R371). -/
  settingsDue : Bool
  ecc : Tab EccCount
  writeBacks : Tab (List WriteBack)
  patrol : Tab Nat
  /-- Spare positions, as physical cells, that have failed (R501, R456). -/
  badSpares : List Nat
  /-- Spare bit column in use, per bank (R234). -/
  spareBits : List Nat
  /-- Cores of the presented positions, by cell number. -/
  cores : Tab Core
  dirty : Tab (BitVec 64)
  repair : List (BitVec 16)
  overfull : Word
  fallbacks : Word
  forecast : Tab FcSlot
  recordFaults : Word
  streamFaults : Word
  cadenceFaults : Word
  lastFault : Word
  checkFaults : Word
  /-- Circuit number bound to each Promenade out port, and in ports bound (R257). -/
  outBind : Tab (BitVec 6)
  inBind : List Nat
  inBuf : Tab (List Beat)
  /-- Random draws taken from the pavilion's generator since it was last seeded, and the free value that seeded it (R50). -/
  draws : Nat
  epoch : Nat
  doubled : Option Doubled
  /-- The pavilion's doubling has lowered the presented count, which R466 has not raised again. -/
  reduced : Bool
  /-- HBM module address of a stand-in's own spill slot (R463). -/
  ownSpill : Option Nat
  /-- Failed pavilions whose contexts this stand-in carries, and the context now running. -/
  partners : List Nat
  context : Nat
  /-- Time at which its context was switched out (R464). -/
  outAt : Nat
  lastDrill : Nat
  /-- Time of the last passed drill, by drill kind and subunit (R429). -/
  drillPass : Tab Nat
  drillDue : Bool
  /-- The hand bits that every presented cell has, and the hands of the cells that differ (R516). -/
  handAll : BitVec 64
  hands : Tab (BitVec 64)
  stageHand : BitVec 2048
  deriving DecidableEq, Repr

end Sys2Proof.Machine
end

