-- ==== Sys2Proof/Machine/StatePlot.lean ====
section
/-! DEFINITION. The state of the plots, the fabric's receivers, the links, the ring segments and the
stacks, as plain data. Each structure's docstring names the rules that give its fields. -/

namespace Sys2Proof.Machine

/-! ### Error records -/

/-- An error record of R441, without the reserved fields. -/
structure ErrRec where
  ty : BitVec 8
  severity : BitVec 4
  cls : BitVec 4
  plot : BitVec 6
  pavilion : BitVec 8
  x : BitVec 9
  y : BitVec 9
  subunit : BitVec 16
  opcode : BitVec 8
  paddr : BitVec 18
  allotment : BitVec 5
  time : BitVec 64
  temperature : BitVec 16
  rail : BitVec 16
  mark : BitVec 32
  count : BitVec 16
  bitmap : BitVec 64
  detail : BitVec 32
  number : BitVec 32
  anumber : BitVec 32
  address : BitVec 64
  deriving DecidableEq, Repr

/-- A record held in a coalescer (R442), with the time of its first occurrence in `rec.time`. -/
structure Coalescer where
  held : List ErrRec
  overflow : Word
  deriving DecidableEq, Repr

/-! ### The Promenade switch -/

/-- A merge unit's setting (R130, R132): vector length V, tree extent E, and whether it is the first unit
of a leaf. -/
structure MergeSet where
  v : Nat
  e : Nat
  leaf : Bool
  deriving DecidableEq, Repr

/-- One set of a switch's settings (R274, R275): slot tables by 64·port + entry (R256), steering settings
(R263), merge settings (R130), buffer divisions by 64·channel + cid (R259), and the port bindings of the
plot's pavilions, by 16·q + port. -/
structure PromSet where
  slots : Tab (BitVec 32)
  steer : Tab (BitVec 32)
  /-- Settings of the merge units that are on. -/
  merge : Tab MergeSet
  division : Tab Nat
  outBind : Tab (BitVec 6)
  inBind : List Nat
  deriving DecidableEq, Repr

/-- A steering unit (R264): r, next[x] and the admitted beats of each input. -/
structure Steer where
  r : Option (BitVec 16)
  next : List (Option (BitVec 16))
  bufs : List (List Beat)
  /-- Time at which the tag last resolved or the first item arrived while unresolved (R272). -/
  since : Nat
  /-- The rest of an item that is streaming through: input and outputs, or discarded. -/
  stream : List (Nat × List Nat × Bool)
  /-- Time since which the unit stalls on an empty input (R271). -/
  stall : Option Nat
  deriving DecidableEq, Repr

/-- A merge unit (R131–R133, R273). -/
structure Merge where
  seq : Option (BitVec 16)
  /-- The seq that the next header beat of each input must carry. -/
  next : List (Option (BitVec 16))
  bufs : List (List Beat)
  /-- The last data index that each input has offered in its stream. -/
  lastIn : List (Option (BitVec 32))
  /-- INDEX and POISON flags gathered for the END of each input's stream (R132). -/
  flags : List (BitVec 8)
  /-- Data beats still to come of a discarded item, per input. -/
  drop : List Nat
  since : Nat
  stall : Option Nat
  /-- The data item that streams through: the inputs that take part, the beats left, and its poison. -/
  cur : Option (List Nat × Nat × Bool)
  deriving DecidableEq, Repr

/-! ### Plots -/

/-- A remap table entry (R455). -/
structure Remap where
  rdead : Bool
  dx : Fin 64
  dy : Fin 68
  ux : Fin 64
  uy : Fin 68
  deriving DecidableEq, Repr

/-- A switched power domain (R469, R477): its switch, and whether a short has opened it. -/
structure PowerDom where
  on : Bool
  shorted : Bool
  deriving DecidableEq, Repr

/-- Why a plot's E and G are off while the plot may return (R461, R488). -/
inductive OffCause where
  | heat | disabled | lost
  deriving DecidableEq, Repr

/-- A card cached by a gate during a deal (R515). -/
structure CacheCard where
  number : Nat
  scope : BitVec 4
  slot : BitVec 12
  target : BitVec 18
  data : List Byte
  deriving DecidableEq, Repr

/-- A manifest line of a deck (R513): card number, scope, slot, target and 256-bit digest. -/
structure ManifestLine where
  number : Nat
  scope : BitVec 4
  slot : BitVec 12
  target : BitVec 18
  digest : BitVec 256
  deriving DecidableEq, Repr

/-- The deal as one gate sees it (R515–R518): its manifest lines, its cache, the lines that a
digest mismatch left missing, the round, and whether it has reported. -/
structure GateDeal where
  lines : List ManifestLine
  cache : List CacheCard
  missing : List Nat
  round : Nat
  ended : Bool
  reported : Bool
  deriving DecidableEq, Repr

/-- A write request or a read of GRANULE packets that an HBM agent has outstanding (R320, R324). -/
structure AgentReq where
  tag : BitVec 12
  line : BitVec 35
  lines : Nat
  write : Bool
  allotment : BitVec 4
  first : BitVec 6
  final : BitVec 6
  /-- Payload bytes of a write, by 48·sequence. -/
  data : List Byte
  /-- Sequences that came with POISON, and those received. -/
  bad : List Nat
  got : List Nat
  /-- The landing entry that the agent's write belongs to. -/
  entry : Option (BitVec 12)
  retries : Nat
  since : Nat
  deriving DecidableEq, Repr

/-- A plot: gate, switch, service node, domains, clock, heat and deal state (R17, R249, R254, R455, R469,
R474, R479–R488, R515). -/
structure Plot where
  enable : Enable
  e : PowerDom
  g : PowerDom
  h : PowerDom
  /-- 0 full, 1 derated, 2 shed, 3 cut, 4 off (0x2100+p:03). -/
  powerState : BitVec 8
  offCause : Option OffCause
  /-- The allotment the plot has joined; none while it is scrubbed (R249). -/
  owner : Option AllotIx
  scrubbing : Bool
  /-- Steps 1–4 of the scrub that runs are done (R248). -/
  zeroed : Bool
  /-- The gate refuses traffic for the plot (R311). -/
  fenced : Bool
  /-- Receivers answer new REQs FULL (R484 step 1). -/
  shedding : Bool
  remap : List Remap
  /-- The cells whose routers are dead, by local coordinates: their ring neighbours are spliced together (R300). -/
  deadRouters : List (Nat × Nat)
  promWithdrawn : BitVec 256
  promCorrected : Word
  skewStalls : Tab Word
  skewFaults : Word
  circuitFaults : Word
  stranded : Word
  discarded : Word
  prom : PromSet
  /-- An enable that waited for a disable is opening the plot (R354). -/
  pendOpen : Bool
  /-- The idle set of settings, with the section that it is for (R275). -/
  promIdle : Option (Nat × PromSet)
  /-- Beats on their way into or waiting at an input source, by 64·source + cid (R259); cid 0 for the outputs of steering
  and merge units. -/
  circuits : Tab (List Beat)
  steers : Tab Steer
  merges : Tab Merge
  duty : Nat
  /-- The duty that the warning of R483 allows, and the duty the cap of R475 allows. -/
  heatDuty : Nat
  capDuty : Nat
  lastDutyStep : Nat
  temp : BitVec 32
  warned : Bool
  /-- Time since which the hottest sensor has been below the warning threshold (R487). -/
  coolSince : Option Nat
  pll : Bool
  relockTried : Bool
  derated : Bool
  derateDue : Bool
  /-- When the derating became due (R481). -/
  derateSince : Nat
  aligned : Bool
  bistDone : Bool
  bistTask : Bool
  linkTask : Bool
  dealTask : Bool
  deal : GateDeal
  dealt : Bool
  gateStore : Tab (List Byte)
  gateHand : BitVec 4096
  coal : Coalescer
  agent : List AgentReq
  agentNext : Nat
  /-- Requests that the agent holds back (R320, R323). -/
  agentWait : List AgentReq
  lastDrill : Nat
  /-- Time of the last passed drill, by drill kind and subunit (R429). -/
  drillPass : Tab Nat
  /-- Planned E, G and H voltages in mV, a lower plan awaiting confirmation, and hours of life. -/
  plan : List Nat
  planLow : List (Option Nat)
  life : Word
  degraded : Bool
  deriving DecidableEq, Repr

/-! ### Links, segments and stacks -/

/-- A link's state and counts (R308): 0 up, 1 retry, 2 withdrawn; the counts of the object; the start of the current 1 s
window. -/
structure Link where
  state : BitVec 8
  crc : Word
  bits : BitVec 64
  winStart : Nat
  /-- CRC failures counted in this window as packets arrived (R305). -/
  fails : Nat
  trained : Bool
  checked : Bool
  /-- Its failed lanes or tracks (R14–R16): those of its first direction, its groups' spares among them, then those of the
  other. -/
  failed : List Nat
  deriving DecidableEq, Repr

/-- A ring segment (R31, R469, R499). -/
structure Seg where
  dom : PowerDom
  pll : Bool
  trained : Bool
  linkTask : Bool
  trainTask : Bool
  coal : Coalescer
  temp : BitVec 32
  plan : Nat
  /-- A lower plan that waits for the next measurement (R490). -/
  planLow : Option Nat
  /-- GRANULE write requests whose data packets are still arriving. -/
  writes : List (BitVec 9 × BitVec 9 × AgentReq)
  /-- GRANULE packets that wait while their stack retrains (R330), oldest first. -/
  waiting : List Packet
  deriving DecidableEq, Repr

/-- An HBM stack (R316–R331). -/
structure Stack where
  /-- 0 serving, 1 training, 2 failed. -/
  state : BitVec 8
  temperature : BitVec 32
  lastTrainTemp : BitVec 32
  pcFailed : BitVec 64
  pcReplacements : Nat
  /-- A replacement in progress: pseudo-channel and the next granule to move (R328). -/
  pcMove : Option (Nat × Nat)
  corrected : Word
  uncorrectable : Word
  rowsRepaired : Word
  /-- The replacement place, 0–3, of each pseudo-channel that has moved (R328), and the places that have failed themselves. -/
  pcMap : Tab Nat
  spareFailed : BitVec 4
  /-- The row remap table: the rows that stand in the reserve, in its order (R317, R328). -/
  remap : List Nat
  /-- Rows repaired by soft post-package repair (R328). -/
  softUsed : Nat
  /-- Its interface errors have passed 1 per 10^12 bits in a window, so that it must retrain (R330). -/
  due : Bool
  /-- Corrected lines per row and uncorrectable lines per pseudo-channel, 64 + r for replacement place r, in this scrub pass. -/
  rowCorr : Tab Nat
  pcUnc : Tab Nat
  scrubPos : Nat
  trained : Bool
  task : Bool
  deriving DecidableEq, Repr

/-! ### Receivers and senders of the fabric -/

/-- A landing entry (R287–R293, R306). -/
structure Landing where
  srcX : BitVec 9
  srcY : BitVec 9
  tag : BitVec 12
  /-- Fabric address at which sequence 0 lands. -/
  base : BitVec 64
  length : Nat
  /-- Bit s: sequence s has landed. -/
  landed : Nat
  count : Nat
  round : Nat
  since : Nat
  /-- Granted to the receiver's own READ. -/
  own : Bool
  poison : Bool
  deriving DecidableEq, Repr

/-- A REQ or READ in a receiver's queue (R287, R291). -/
structure HeldReq where
  srcX : BitVec 9
  srcY : BitVec 9
  tag : BitVec 12
  address : BitVec 64
  length : Nat
  entry : BitVec 12
  opq : BitVec 4
  since : Nat
  deriving DecidableEq, Repr

/-- A done record (R290). -/
structure DoneRec where
  srcX : BitVec 9
  srcY : BitVec 9
  tag : BitVec 12
  length : Nat
  landed : Nat
  /-- The entry that was granted, and whether the receiver had granted it to its own READ; its tag is then the entry. -/
  entry : BitVec 12
  own : Bool
  deriving DecidableEq, Repr

/-- What stands behind a sender's transfer: a move of a cell, or a place of a DMA engine (R198, R211). -/
inductive TxOwner where
  | move (cell : Nat) (k : Nat)
  | dma (k : Nat)
  deriving DecidableEq, Repr

/-- The phase of a sender's transfer (R288). -/
inductive TxPhase where
  | requested | held | full | sent
  deriving DecidableEq, Repr

/-- A transfer as its sender keeps it (R287–R292, R305–R307). `read` marks a READ sent by this endpoint. -/
structure Tx where
  owner : TxOwner
  read : Bool
  dstX : BitVec 9
  dstY : BitVec 9
  opq : BitVec 4
  address : BitVec 64
  /-- Where the bytes come from, as a fabric address. -/
  source : BitVec 64
  length : Nat
  phase : TxPhase
  entry : BitVec 12
  first : Nat
  last : Nat
  fullAt : Nat
  /-- The receiver has sent DONE, and the part counts as finished (R290). -/
  counted : Bool
  deriving DecidableEq, Repr

/-- The landing side of an endpoint (R287): entries, held requests, done records, READs served (up to 4)
and queued (up to 16), and the transfers it has sent, by tag. -/
structure Rx where
  entries : Tab Landing
  held : List HeldReq
  done : List DoneRec
  reads : List HeldReq
  readQueue : List HeldReq
  tx : Tab Tx
  nextTag : Nat
  framing : Word
  deriving DecidableEq, Repr

end Sys2Proof.Machine
end

