-- ==== Sys2Proof/Machine/StateHost.lean ====
section
/-! DEFINITION. The state of allotments, jobs, host ports, queues, server ports and windows, as plain data.
Each structure's docstring names the rules that give its fields. -/

namespace Sys2Proof.Machine

/-! ### Events -/

/-- An event of R343: the payload fields and the code. -/
structure Event where
  time : BitVec 64
  value : BitVec 64
  index : BitVec 16
  sub : BitVec 8
  allotment : BitVec 5
  code : BitVec 16
  deriving DecidableEq, Repr

/-! ### Parcels -/

/-- A chunk of an image (R360, R361) with its bytes. -/
structure Chunk where
  ty : BitVec 8
  parcel : BitVec 4
  target : BitVec 12
  section_ : BitVec 8
  alt : BitVec 8
  data : List Byte
  deriving DecidableEq, Repr

/-! ### Queues and commands -/

/-- How far a fetched command has come (R390, R391). -/
inductive CmdState where
  | fetched | running | waiting | held
  deriving DecidableEq, Repr

/-- A submission entry that the module has fetched and not completed (R387, R390). -/
structure Cmd where
  /-- Fetch order in the allotment. -/
  id : Nat
  entry : BitVec 512
  state : CmdState
  sqhead : Nat
  recovered : Bool
  record : Nat
  poisoned : Bool
  position : Nat
  started : Nat
  /-- When a COPY began to wait for a tag (R245). -/
  waits : Option Nat
  /-- Its completion has been written already, and replay runs it again (R396). -/
  written : Bool
  deriving DecidableEq, Repr

/-- A queue pair (R380, R386–R390). -/
structure Queue where
  sqBase : BitVec 64
  cqBase : BitVec 64
  size : Word
  arb : Word
  vec : Word
  coal : Word
  state : Enable
  err : Nat
  sqHead : Nat
  sqTail : Nat
  cqHead : Nat
  cqTail : Nat
  phase : Bool
  cmds : List Cmd
  /-- COPYs completed and held for replay (R396). -/
  kept : List Cmd
  deficit : Nat
  /-- Completions since the last interrupt, and the time of the first of them. -/
  uncoalesced : Nat
  firstAt : Nat
  deriving DecidableEq, Repr

/-! ### Jobs and allotments -/

/-- A running job (R392, R395, R396). -/
structure Job where
  id : BitVec 64
  launch : Bool
  queue : Nat
  cmd : Nat
  /-- 1 when launched under fail-fast policy (R373). -/
  failFast : Bool
  marks : Nat
  /-- Tags and numbers of the last 16 verified marks, newest first. -/
  tags : List (Word × Nat)
  /-- Fetch ids at the last two completed MARKs, newest first. -/
  horizon : List Nat
  /-- The allotment's fetch count at the last two verified marks, newest first. -/
  points : List Nat
  recovered : Bool
  /-- Set when the job's last section has ended or a fault has stopped it: the completion status. -/
  ended : Option (BitVec 8)
  /-- Number of the job-stop record, 0 for none (R439, R443). -/
  record : Nat
  aborted : Bool
  deriving DecidableEq, Repr

/-- An entry of the pavilion map (R457). -/
structure PavMap where
  failed : PavIx
  standIn : PavIx
  doubled : Bool
  deriving DecidableEq, Repr

/-- A cause that waits for, or runs, a replay (R449, R453). -/
structure Frozen where
  cause : FreezeCause
  since : Nat
  /-- The older of the last two verified marks is the restore point. -/
  older : Bool
  /-- A shuffle must complete first (R451 step 2). -/
  shuffle : Bool
  abandoned : Bool
  deriving DecidableEq, Repr

/-- A tunnelled Promenade hop (R460): the plot and output port it replaces. -/
structure Tunnel where
  plot : Nat
  port : Nat
  deriving DecidableEq, Repr

/-- An allotment (R318, R355, R371, R382–R384, R391–R396). -/
structure Allot where
  enable : Enable
  plots : BitVec 64
  hostPort : BitVec 8
  pf : BitVec 8
  ranges : List (BitVec 32 × BitVec 32)
  weight : BitVec 8
  attach : BitVec 8
  queuePairs : BitVec 32
  failFast : BitVec 8
  serverPorts : BitVec 16
  bar4 : BitVec 8
  msix : BitVec 16
  overlay : BitVec 8
  /-- Plots claimed while another allotment closes (R382). -/
  claims : BitVec 64
  zeroed : Bool
  /-- Image slot and parcel number of the dealt parcel (R367). -/
  parcel : Option (Nat × Nat)
  /-- The dealt parcel's chunks, overlay replacements applied (R368). -/
  chunks : List Chunk
  /-- An overlay write that waits for a section boundary, or for the jobs to end (R371). -/
  overlayPending : Option (BitVec 8)
  redealDue : Bool
  attachPending : Option (BitVec 8)
  dealing : Bool
  /-- Key pair of the allotment by generation number; the pair itself is never readable (R534, R535). -/
  key : Option Nat
  wkeys : List (BitVec 32 × List Byte)
  queues : Tab Queue
  fetchCount : Nat
  jobs : List Job
  counters : Tab (BitVec 64)
  evq : List Event
  sections : List Nat
  sectionPos : Nat
  sectionActive : Bool
  frozen : Option Frozen
  frozenNext : List FreezeCause
  /-- Replays in a row from one restore point that ended in a fault of one unit (R453). -/
  replayRow : Nat
  /-- The unit whose fault caused the last freeze, as the model numbers units. -/
  faultUnit : Nat
  /-- Poisoned rows for which a replay has been tried (R438): 4·pavilion + space, and row. -/
  tried : List (Nat × Nat)
  pavMap : List PavMap
  tunnels : List Tunnel
  spills : List Nat
  taint : List Taint
  keep : List Keep
  records : Nat
  closeDue : Bool
  /-- The opening in progress carries out a pending enable (R354). -/
  pendOpen : Bool
  deriving DecidableEq, Repr

/-! ### Host ports -/

/-- A PCIe function (R358, R376–R381, R398). -/
structure Fn where
  bar2 : Nat
  /-- log2 of the latched BAR4 size, 0 for none. -/
  bar4 : Nat
  mbxCtrl : Word
  mbxStatus : Word
  mbxLength : Word
  mbxOffset : Word
  mbxData : List Host.Cell
  /-- Pieces of a DOM write gathered so far (R358). -/
  mbxGather : Tab (List Byte)
  evqBase : BitVec 64
  evqCtrl : Word
  evqHead : Word
  evqTail : Nat
  evqPhase : Bool
  qsel : Word
  classWeight : Word
  w4ctrl : Word
  w4base : BitVec 64
  msix : List Host.Cell
  pba : BitVec 2048
  ideKey : Option (List Byte)
  deriving DecidableEq, Repr

/-- A host port (R375–R379). -/
structure HostPort where
  enable : Enable
  linkUp : Bool
  perst : Bool
  width : BitVec 8
  rate : BitVec 8
  l0p : Bool
  ide : Bool
  errors : Tab Word
  fns : Tab Fn
  trained : Bool
  deriving DecidableEq, Repr

/-! ### Server ports -/

/-- A WOPEN held behind a closing window (R408). -/
structure HeldOpen where
  queue : Nat
  cmd : Nat
  deriving DecidableEq, Repr

/-- A window (R405–R420). -/
structure Window where
  closing : Bool
  since : Nat
  gen : BitVec 8
  allotment : AllotIx
  space : BitVec 8
  base : BitVec 64
  length : Nat
  dir : BitVec 2
  auth : Bool
  key : BitVec 32
  binding : Option (BitVec 48 × BitVec 32)
  completed : Nat
  /-- Last completed transfers (peer, xid), newest first, at most 1,024. -/
  last : List (BitVec 48 × BitVec 16)
  /-- Highest counter accepted and the accepted counters within 1,024 of it; highest counter sent. -/
  rxHigh : Nat
  rxSeen : List Nat
  txHigh : Nat
  held : Option HeldOpen
  closers : List HeldOpen
  deriving DecidableEq, Repr

/-- An incoming transfer (R410, R411, R420). -/
structure Incoming where
  peer : BitVec 48
  xid : BitVec 16
  handle : BitVec 32
  offset : BitVec 64
  length : Nat
  landed : Nat
  count : Nat
  round : Nat
  since : Nat
  /-- Waits for the tags of its range (R420). -/
  tagWait : Bool
  waiting : List TFrame
  deriving DecidableEq, Repr

/-- An outgoing transfer: RDATA answering a READ, or a PUSH (R412, R414, R415). -/
structure Outgoing where
  push : Bool
  peer : BitVec 48
  xid : BitVec 16
  entry : BitVec 12
  /-- The peer's window handle of a PUSH, the module's own of RDATA. -/
  handle : BitVec 32
  offset : BitVec 64
  length : Nat
  rounds : Nat
  since : Nat
  /-- Time of the first BUSY of the transfer (R415). -/
  busySince : Option Nat
  /-- The peer answered BUSY, and the transfer has not been started again. -/
  busy : Bool
  /-- Not started: its rows' tags are not full, its context is switched out, or no place is free (R411, R420). -/
  wait : Bool
  deriving DecidableEq, Repr

/-- A server port (R400–R422). -/
structure SrvPort where
  mode : BitVec 8
  enable : Enable
  ethertype : BitVec 16
  mac : BitVec 48
  ber : BitVec 32
  counters : Tab Word
  linkUp : Bool
  retraining : Bool
  trained : Bool
  attempts : Nat
  /-- Generations that entries take at their next opening; an unlisted entry takes its byte of draw `genDraw` of the
  DRBG (R406). -/
  gens : Tab (BitVec 8)
  genDraw : Nat
  windows : Tab Window
  incoming : List Incoming
  outgoing : List Outgoing
  nextXid : Nat
  /-- Refused transfers and the time of the NACK sent for each (R409). -/
  refused : List (BitVec 48 × BitVec 16 × Nat)
  deriving DecidableEq, Repr

end Sys2Proof.Machine
end

