-- ==== Sys2Proof/Machine/StateLodge.lean ====
section
/-! DEFINITION. The state of the Lodge: dictionary settings, ring, sessions, log, images, flash, power,
start-up, security and the module's outputs, as plain data. Each structure's docstring names the rules that
give its fields. -/

namespace Sys2Proof.Machine

/-! ### Flash -/

/-- An image slot (R364, R365). -/
structure Image where
  content : List Byte
  /-- 0 empty, 1 writing, 2 verified, 3 rejected. -/
  status : BitVec 8
  /-- The allotment whose LOAD_IMAGE wrote the slot last. -/
  writer : Option AllotIx
  deriving DecidableEq, Repr

/-- The dictionary objects described as kept in flash, without images and the drill package (R355, R493). -/
structure Settings where
  station : BitVec 8
  watchdog : BitVec 16
  eventStation : BitVec 8
  autoStart : BitVec 8
  hbmTraining : BitVec 8
  laneRetrain : BitVec 8
  l0p : List (BitVec 8)
  ide : List (BitVec 8)
  srvMode : List (BitVec 8)
  srvMac : List (BitVec 48)
  powerCap : BitVec 32
  /-- 0x4000:03, which start-up reads (R367, R513; log 127). -/
  activeBase : BitVec 8
  deriving DecidableEq, Repr

/-- Lodge firmware (R497, R525, R526): its bytes, version and security version, as the image carries them. -/
structure Firmware where
  image : List Byte
  version : BitVec 32
  secver : BitVec 32
  deriving DecidableEq, Repr

/-- The security store (R493, R527, R529, R540). -/
structure SecStore where
  identity : Bool
  owners : List (List Byte)
  /-- The opening mark of a debug opening that is not complete. -/
  openingMark : Bool
  /-- The debug port has been opened since the last provisioning. -/
  debugOpened : Bool
  deriving DecidableEq, Repr

/-- Repair maps and BIST data (R93, R234, R493): per pavilion the repair map and the spare bit columns. -/
structure Repair where
  maps : Tab (List (BitVec 16))
  spareBits : Tab (List Nat)
  /-- Failed lanes and tracks of links (R14, R16, R493). -/
  lanes : List (LinkId × List Nat)
  deriving DecidableEq, Repr

/-- The ageing history (R492): per plot, (powered hours, planned E mV), oldest first. -/
structure AgeHist where
  points : Tab (List (Nat × Nat))
  deriving DecidableEq, Repr

/-- A drill package in force (R444). -/
structure Package where
  content : List Byte
  serial : BitVec 32
  deriving DecidableEq, Repr

/-- One of the two flash devices with its copy of every region (R493). A region in `bad` holds an incomplete
copy. -/
structure Flash where
  firmware : Firmware
  security : SecStore
  settings : Settings
  repair : Repair
  ageing : AgeHist
  images : Tab Image
  drill : Option Package
  bad : List FlashRegion
  /-- Image slots whose copy here is incomplete (R364). -/
  badSlots : List Nat
  deriving DecidableEq, Repr

/-- A flash write in progress (R364, R493, R494): the region, the image slot when it is the image store,
whether device A is already done, and the 64 KiB sectors left on this device. -/
structure FlashJob where
  region : FlashRegion
  slot : Nat
  onB : Bool
  left : Nat
  sectors : Nat
  deriving DecidableEq, Repr

/-! ### The ring -/

/-- A requester of the dictionary as the Lodge keeps it: a ring station or an allotment's mailbox (R356). -/
inductive Reader where
  | station (n : Nat)
  | mailbox (a : Nat)
  deriving DecidableEq, Repr

/-- A segmented or block transfer in progress (R341, R342). A segmented read keeps the value as its first segment
found it. -/
structure Transfer where
  reader : Reader
  write : Bool
  index : BitVec 16
  sub : BitVec 8
  block : Bool
  total : Nat
  segments : Tab (List Byte)
  since : Nat
  deriving DecidableEq, Repr

/-- A reader's place in the log (R356). -/
structure ReaderPos where
  position : Nat
  lost : Word
  deriving DecidableEq, Repr

/-- A Holcel session (R531–R533). -/
structure Session where
  number : BitVec 16
  station : BitVec 7
  ka : List Byte
  kw : List Byte
  framesIn : Nat
  framesOut : Nat
  last : Nat
  claim : Bool
  /-- Time at which the vendor unlock of this session ends, when one is in force (R539). -/
  unlock : Option Nat
  deriving DecidableEq, Repr

/-- A handshake between HELLO and READY (R530–R532). -/
structure Handshake where
  station : BitVec 7
  key : BitVec 8
  /-- The owner key that the HELLO named; empty for a claim. -/
  pub : List Byte
  /-- Number of the encapsulation key's draw. -/
  draw : Nat
  nr : List Byte
  number : BitVec 16
  nm : List Byte
  ek : List Byte
  transcript : List Byte
  since : Nat
  deriving DecidableEq, Repr

/-- A session step whose fragments are coming in (R527–R535): its station, session and step, the next fragment, and the data
so far. -/
structure StepIn where
  station : BitVec 7
  session : BitVec 16
  step : Nat
  next : Nat
  data : List Byte
  since : Nat
  deriving DecidableEq, Repr

/-- What the module knows of one of its two ring links (R344): its delay, the DELAY_REQ that waits for its answer, as frame number
and sending time, and when it last asked. -/
structure RingLink where
  delay : BitVec 64
  req : Option (BitVec 16 × Nat)
  asked : Option Nat
  deriving DecidableEq, Repr

/-- An event waiting for acknowledgement (R343). -/
structure Waiting where
  event : Event
  seq : BitVec 16
  attempts : Nat
  sent : Nat
  deriving DecidableEq, Repr

/-- A progress object (R357). For 0x7060–0x70FF, the operation it was assigned to: allotment, queue and
fetch id, or 4,096 + a for the deal of allotment a. -/
structure Progress where
  state : BitVec 8
  position : BitVec 64
  total : BitVec 64
  subject : BitVec 16
  owner : Option (Nat × Nat × Nat)
  ended : Nat
  deriving DecidableEq, Repr

/-! ### Power -/

/-- A rail of R469: voltage, commanded voltage, current, power-good and alert. -/
structure Rail where
  mv : BitVec 16
  setpoint : BitVec 16
  amps : BitVec 16
  deriving DecidableEq, Repr

/-- A rail group's lines (R471, R475). -/
structure Group where
  pg : Bool
  alert : Bool
  halved : Bool
  deriving DecidableEq, Repr

/-! ### Start-up and the deal -/

/-- Where the module is in R496. -/
inductive Phase where
  | off | held | rom | step1 | steps23 | step4 | step5 | ready
  deriving DecidableEq, Repr

/-- The Lodge's side of a deal (R513–R517): the allotment it serves (none at start-up), the deal number, the
deck's manifest, and whether the deck's end has been broadcast. -/
structure Deal where
  allotment : Option AllotIx
  number : Nat
  lines : List ManifestLine
  sent : List Nat
  ended : Bool
  deriving DecidableEq, Repr

/-! ### Outputs -/

/-- A way out of a router (R280–R282, R298): a hop along its row or column ring to the next or previous position, the path
between a plot's cells and its gate, a pavilion's DMA engine, a segment, the Colonnade, or the endpoint itself. -/
inductive Way where
  | hop (column up : Bool)
  | gate
  | cell (lx : Fin 64) (ly : Fin 68)
  | dma (q : Fin 4)
  | segment (n : SegIx)
  | plot (p : PlotIx)
  | colonnade (clockwise : Bool)
  | eject
  deriving DecidableEq, Repr

/-- Everything the module sends out, in order (the model's own field: the wires leave the block). -/
inductive Output where
  /-- A packet injected by an endpoint. -/
  | packet (k : Packet)
  /-- A packet forwarded after remapping (R299, R457). -/
  | forward (k : Packet)
  /-- A packet goes on from a router by a way, none where no way leads on (R297). -/
  | hop (r : Router) (way : Option Way) (k : Packet)
  /-- A Holcel frame, on ports A and B or on one of them (forwarding). -/
  | ring (onB : Bool) (f : HFrame)
  /-- The answer of a dictionary access: abort code and data (R348). -/
  | answer (r : Requester) (code : BitVec 16) (data : List Byte)
  /-- A write to host memory over PCIe with one poison mark per 64 bytes (R388, R393, R398); `relaxed` says whether relaxed ordering is
  set, as on COPY data alone (R375). -/
  | hostWrite (h : PortIx) (address : BitVec 64) (data : List Byte) (poison : List Bool) (relaxed : Bool)
  | interrupt (h : PortIx) (f : FnIx) (vector : Nat)
  /-- The completion of a BAR read: data and poison, or Unsupported Request. -/
  | readData (h : PortIx) (f : FnIx) (data : List Byte) (poison : Bool)
  | unsupported (h : PortIx) (f : FnIx)
  /-- A transport frame. -/
  | transport (s : SrvIx) (f : TFrame)
  /-- A beat leaving a plot's switch, by plot and output port. -/
  | beat (p : PlotIx) (port : Nat) (b : Beat)
  /-- An AVSBus voltage command (R472). -/
  | avs (rail : Nat) (mv : Nat)
  /-- THERM_TRIP_N driven low (true) or released (R486). -/
  | thermTrip (low : Bool)
  | relay (bypassed : Bool)
  /-- A card sent into the broadcast tree, or by unicast to one gate (R515, R517). -/
  | card (number : Nat) (plot : Option PlotIx)
  /-- SPDM measurement blocks over DOE (R537): index and digest, and whether the answer is signed. -/
  | measurements (h : PortIx) (f : FnIx) (blocks : List (BitVec 384)) (signed : Bool)
  /-- The JTAG port opens (R540). -/
  | jtag
  deriving DecidableEq, Repr

/-! ### The Lodge -/

/-- The Lodge (R332–R359, R439–R448, R469–R542). -/
structure Lodge where
  aux : Bool
  resetLow : Bool
  phase : Phase
  /-- 0 Starting, 1 Stopped, 2 Stopping, 3 Operational (0x2000:01). -/
  moduleState : BitVec 8
  computeReset : Bool
  /-- Time at which each power-up step began, by step. -/
  stepStart : Tab Nat
  waves : List Nat
  /-- Time of aux power, as the ns counter of the model counts it. -/
  bootAt : Nat
  fw : Firmware
  fwNext : Option Firmware
  secFuse : Nat
  opened : Word
  sec : SecStore
  set : Settings
  jtag : Bool
  /-- This boot's response of the fingerprint circuit unwraps the identity seed (R529, R530). -/
  fingerprint : Bool
  -- identity, as built (R355)
  serial : BitVec 64
  hwRevision : BitVec 16
  -- ring
  portA : Bool
  portB : Bool
  relay : Bool
  watchdogFired : Bool
  /-- Time at which the relay opened, from which the watchdog runs (R334). -/
  watchdogFrom : Nat
  timeMaster : BitVec 8
  syncInterval : BitVec 16
  timeLocked : Bool
  everLocked : Bool
  lastSync : Nat
  /-- Master time less the module's counter, as last measured; what R344 slews away. -/
  slew : Int
  /-- When, as time master, the module last sent a SYNC. -/
  syncSent : Option Nat
  linkA : RingLink
  linkB : RingLink
  framesBad : Word
  tagsBad : Word
  seen : List (BitVec 7 × BitVec 16)
  transfers : List Transfer
  nextSeq : BitVec 16
  eventMask : BitVec 64
  eventsLost : Word
  events : List Waiting
  sessions : List Session
  handshakes : List Handshake
  stepsIn : List StepIn
  nextSession : Nat
  nonces : List (Reader × List Byte)
  -- module-wide settings, 0x2000:03–08
  forecastWindow : BitVec 8
  forecastThreshold : BitVec 8
  stallLimit : BitVec 8
  tagTimeout : BitVec 8
  skewTimeout : BitVec 8
  landingTimeout : BitVec 32
  -- power, thermal, clocks, ageing
  rails : Tab Rail
  groups : Tab Group
  power : Word
  /-- The last ten 1 ms powers, newest first (0x3000:02), and the duty that the cap allows (R475). -/
  powers : List Nat
  capDuty : Nat
  shorts : Word
  holdup : BitVec 32
  warn : BitVec 32
  shed : BitVec 32
  tripLow : Bool
  ageing : AgeHist
  -- images and drills
  images : Tab Image
  drill : Option Package
  drillNew : Option (List Byte)
  drillStatus : BitVec 8
  drillInterval : BitVec 32
  drillRuns : BitVec 64
  drillFailures : Word
  flashA : Flash
  flashB : Flash
  flashJobs : List FlashJob
  -- records and recovery counters
  log : List ErrRec
  /-- Records that coalescers have sent and that have not arrived (R442). -/
  arriving : List ErrRec
  nextRecord : Nat
  readers : List (Reader × ReaderPos)
  replays : Word
  shuffles : List Word
  -- progress, deals, keys
  progress : Tab Progress
  nextProgress : Nat
  deal : Option Deal
  dealQueue : List AllotIx
  dealNumber : Nat
  nextKey : Nat
  moduleKey : Nat
  /-- Spine breaks, by branch (East) and point (R36). -/
  spineBreaks : List (Bool × Nat)
  deriving DecidableEq, Repr

end Sys2Proof.Machine
end

