-- ==== Sys2Proof/Machine/State.lean ====
section
/-! DEFINITION. The state of the module, the reasons a step can stop, and the module before aux power is
applied: `State.reset`. -/

namespace Sys2Proof.Machine

/-- Why a step stops with a fault: no command does. Safe: every step of the module answers a state. -/
inductive Fault where
  deriving DecidableEq, Repr

/-- Why a command is refused. -/
inductive Refusal where
  /-- Raised by an arm of `exec` for a command whose meaning is not written yet. Safe. -/
  | notModelled (mnemonic : String)
  deriving DecidableEq, Repr

/-- The module. Tables hold an entry for each unit whose state differs from its state as built; a unit
without an entry reads as `Pav.built`, `Plot.built` and so on. -/
structure State where
  /-- The order code: an IXW-840-B (R4, R6). -/
  orderB : Bool
  pavs : Tab Pav
  plots : Tab Plot
  segs : Tab Seg
  hbmStacks : Tab Stack
  /-- HBM by module address (R318), as decrypted under the key in force. -/
  hbm : Store
  links : List (LinkId × Link)
  rxs : List (Receiver × Rx)
  allots : Tab Allot
  hostPorts : Tab HostPort
  srvPorts : Tab SrvPort
  lodge : Lodge
  /-- The module ns counter (R344). -/
  ns : Nat
  /-- The model's own: index of the next free value. -/
  free : Nat
  /-- The model's own: commands that wait, first in, first out. -/
  pending : List Instr
  /-- The model's own: what has left the module, oldest first. -/
  out : List Output
  deriving DecidableEq, Repr

/-! ### Units as built -/

def Store.empty : Store := { bytes := [], rows := [] }

/-- R71: a cleared output context. -/
def OutCtx.cleared : OutCtx :=
  { ofmt := 0, rnd := false, scl := false, bia := false, clp := false, saddr := 0, baddr := 0, scale := 0,
    clo := 0, chi := 0, svec := [], bvec := [], vpoison := [], pmode := 0, iaddr := 0 }

def ME.cleared : ME :=
  { active := none, idle := none, loading := false, loadEntries := [], loadIssue := 0, loadStream := 0,
    running := none, waiting := none, finishing := [],
    ctxs := List.replicate 4 OutCtx.cleared, recorders := List.replicate 4 none, accOpen := none, acc := [],
    fp32Step := 0, peAcc := [], pePath := none, peSteps := 0, peCk := [], peT := .fin false 0 0, peGone := false
    peSince := 0, shadows := [], drain := none, prune := [], inFlight := [], streamBuf := [], fed := [], passes := 0, colFault := [], nextPass := 0,
    retiring := [] }

def VE.cleared : VE :=
  { preds := List.replicate 8 0, ppoison := List.replicate 8 false, sticky := 0, snapshot := 0 }

def Strm.cleared : Strm :=
  { pass := .forward, slot := 0, loops := [], halted := true, hold := .none, since := 0, markPts := [], xpitch := 0, wpitch := 0,
    ypitch := 0, interval := 1 }

def Seq.cleared : Seq :=
  { limits := { window := 16, threshold := 10, stall := 24, tag := 20, skew := 22, landing := 200000 }
    due := false, running := false, stopped := false, frozen := false, nstr := 1, tagged := false, cad := [],
    cadEntry := 0, cadEnded := false, cadPasses := 0, cadOpen := false, cadLoads := 0, cadAhead := none,
    cadBoundary := false, streams := List.replicate 4 Strm.cleared, lastWin := List.replicate 5 3,
    ctrs := List.replicate 16 0, sb := [], nextId := 0, dma := List.replicate 4 none, posts := [],
    issued := 0, taken := [], verified := [], interval := 0, d1Pending := false, d2Pending := false,
    taint := [], copyMap := [], keep := [], startTags := [], runNs := 0 }

/-- A cell core held in reset (R519): it will enter its monitor at 0x3_F000. -/
def Core.held0 : Core :=
  { regs := List.replicate 32 0, pc := 0x3F000, monitor := true, held := true, cause := 0, epc := 0,
    fflags := 0, watch := 0, watchHit := false, suspended := false, entry := none, moveQueue := []
    moves := List.replicate 4 none }

def Tag.empty : Tag := { state := 0, readers := 0, badParity := false }

def FcSlot.cleared : FcSlot := { audited := 0, misses := [], disabled := false }

/-- As built: the SW and SE pavilions of plots 48–55 are the reserve of an IXW-840-A, and those of plots 40–55 that of an
IXW-840-B, which R26 allows; the 208 or 192 other pavilions are presented (R4, R6; log 3). -/
def Pav.builtRole (orderB : Bool) (i : Nat) : Role :=
  if (if orderB then 160 else 192) ≤ i ∧ 2 ≤ i % 4 then .reserve else .presented

def Pav.built (orderB : Bool) (i : Nat) : Pav :=
  { role := Pav.builtRole orderB i, enable := .open_, me := ME.cleared, ve := VE.cleared, seq := Seq.cleared,
    stage := Store.empty, garden := Store.empty, drillRows := [], tags := [], tagPlan := [],
    tagWaiters := [], fullEmpty := false, pool := 0, settingsDue := false, ecc := [],
    writeBacks := [], patrol := [], badSpares := [], spareBits := [], cores := [], dirty := [],
    repair := List.replicate 32 0, overfull := 0, fallbacks := 0, forecast := [], recordFaults := 0,
    streamFaults := 0, cadenceFaults := 0, lastFault := 0, checkFaults := 0, outBind := [], inBind := [],
    inBuf := [], draws := 0, epoch := 0, doubled := none, reduced := false, ownSpill := none, partners := [], context := i, outAt := 0, lastDrill := 0,
    drillPass := [], drillDue := false, handAll := 0, hands := [], stageHand := 0 }

def PromSet.empty : PromSet :=
  { slots := [], steer := [], merge := [], division := [], outBind := [], inBind := [] }

def PowerDom.off : PowerDom := { on := false, shorted := false }

def Coalescer.empty : Coalescer := { held := [], overflow := 0 }

def GateDeal.empty : GateDeal :=
  { lines := [], cache := [], missing := [], round := 0, ended := false, reported := false }

/-- A plot before its power-on: switches open, nothing remapped (R470, R500). -/
def Plot.built : Plot :=
  { enable := .open_, e := .off, g := .off, h := .off, powerState := 0, offCause := none, owner := none,
    scrubbing := false, zeroed := false, fenced := false, shedding := false, remap := [], deadRouters := [], promWithdrawn := 0,
    promCorrected := 0, skewStalls := [], skewFaults := 0, circuitFaults := 0, stranded := 0,
    discarded := 0, prom := .empty, pendOpen := false, promIdle := none, circuits := [], steers := [], merges := [],
    duty := 64, heatDuty := 64, capDuty := 64, lastDutyStep := 0, temp := 200, warned := false,
    coolSince := none, pll := false, relockTried := false, derated := false, derateDue := false, derateSince := 0,
    aligned := false, bistDone := false, bistTask := false, linkTask := false, dealTask := false,
    deal := .empty, dealt := false, gateStore := [], gateHand := 0, coal := .empty, agent := [],
    agentNext := 0, agentWait := [], lastDrill := 0, drillPass := [], plan := [700, 700, 700],
    planLow := [none, none, none], life := 0xFFFFFFFF, degraded := false }

def Seg.built : Seg :=
  { dom := .off, pll := false, trained := false, linkTask := false, trainTask := false, coal := .empty,
    temp := 200, plan := 700, planLow := none, writes := [], waiting := [] }

def Stack.built : Stack :=
  { state := 0, temperature := 200, lastTrainTemp := 200, pcFailed := 0, pcReplacements := 0,
    pcMove := none, corrected := 0, uncorrectable := 0, rowsRepaired := 0, pcMap := [], spareFailed := 0
    remap := [], softUsed := 0, due := false, rowCorr := [], pcUnc := [],
    scrubPos := 0, trained := false, task := false }

def Link.built : Link :=
  { state := 0, crc := 0, bits := 0, winStart := 0, fails := 0, trained := false,
    checked := false, failed := [] }

def Rx.empty : Rx :=
  { entries := [], held := [], done := [], reads := [], readQueue := [], tx := [], nextTag := 0,
    framing := 0 }

/-- Allotment object defaults of R355. -/
def Allot.built : Allot :=
  { enable := .closed, plots := 0, hostPort := 0, pf := 0, ranges := [], weight := 16, attach := 0,
    queuePairs := 4096, failFast := 0, serverPorts := 0, bar4 := 0, msix := 64, overlay := 0, claims := 0,
    zeroed := false, parcel := none, chunks := [], overlayPending := none, redealDue := false,
    attachPending := none, dealing := false, key := none, wkeys := [], queues := [], fetchCount := 0,
    jobs := [], counters := [], evq := [], sections := [], sectionPos := 0, sectionActive := false,
    frozen := none, frozenNext := [], replayRow := 0, faultUnit := 0, tried := [], pavMap := [], tunnels := [], spills := [],
    taint := [], keep := [], records := 0, closeDue := false,
    pendOpen := false }

/-- R380 register resets. -/
def Queue.built : Queue :=
  { sqBase := 0, cqBase := 0, size := 0, arb := 0x10, vec := 0, coal := 1, state := .closed, err := 0,
    sqHead := 0, sqTail := 0, cqHead := 0, cqTail := 0, phase := true, cmds := [], kept := [], deficit := 0,
    uncoalesced := 0, firstAt := 0 }

def Fn.built : Fn :=
  { bar2 := 4096, bar4 := 0, mbxCtrl := 0, mbxStatus := 0, mbxLength := 0, mbxOffset := 0, mbxData := [],
    mbxGather := [], evqBase := 0, evqCtrl := 0, evqHead := 0, evqTail := 0, evqPhase := true, qsel := 0,
    classWeight := 0x10101010, w4ctrl := 0, w4base := 0, msix := [], pba := 0, ideKey := none }

def HostPort.built : HostPort :=
  { enable := .open_, linkUp := false, perst := false, width := 0, rate := 0, l0p := true, ide := true,
    errors := [], fns := [], trained := false }

def SrvPort.built (serial : BitVec 64) (s : Nat) : SrvPort :=
  { mode := 0, enable := .closed, ethertype := 0x88B5, mac := (serial + BitVec.ofNat 64 s).setWidth 48,
    ber := 0, counters := [], linkUp := false, retraining := false, trained := false, attempts := 0,
    gens := [], genDraw := 0, windows := [], incoming := [], outgoing := [], nextXid := 0, refused := [] }

/-! ### The Lodge as built -/

def Settings.built : Settings :=
  { station := 0x7E, watchdog := 1000, eventStation := 0, autoStart := 1, hbmTraining := 0,
    laneRetrain := 0, l0p := List.replicate 4 1, ide := List.replicate 4 1,
    srvMode := List.replicate 16 0, srvMac := (List.range 16).map (BitVec.ofNat 48), powerCap := 46000, activeBase := 0 }

def SecStore.built : SecStore :=
  { identity := true, owners := [], openingMark := false, debugOpened := false }

def Firmware.built : Firmware := { image := [], version := 0x00010000, secver := 0 }

def Flash.built : Flash :=
  { firmware := .built, security := .built, settings := .built, repair := { maps := [], spareBits := [], lanes := [] },
    ageing := { points := [] }, images := [], drill := none, bad := [], badSlots := [] }

def Lodge.built : Lodge :=
  { aux := false, resetLow := false, phase := .off, moduleState := 0, computeReset := false,
    stepStart := [], waves := [], bootAt := 0, fw := .built, fwNext := none, secFuse := 0, opened := 0,
    sec := .built, set := .built, jtag := false, fingerprint := true, serial := 0,
    hwRevision := 0, portA := false, portB := false, relay := true, watchdogFired := false, timeMaster := 0,
    syncInterval := 125, timeLocked := false, everLocked := false, lastSync := 0, slew := 0, syncSent := none,
    linkA := { delay := 0, req := none, asked := none }, linkB := { delay := 0, req := none, asked := none }, watchdogFrom := 0,
    framesBad := 0, tagsBad := 0, seen := [], transfers := [], nextSeq := 0,
    eventMask := BitVec.allOnes 64, eventsLost := 0, events := [], sessions := [],
    handshakes := [], stepsIn := [], nextSession := 0, nonces := [], forecastWindow := 16, forecastThreshold := 10,
    stallLimit := 24, tagTimeout := 20, skewTimeout := 22, landingTimeout := 200000, rails := [],
    groups := [], power := 0, powers := [], capDuty := 64, shorts := 0, holdup := 0, warn := 720, shed := 800, tripLow := false,
    ageing := { points := [] }, images := [], drill := none, drillNew := none,
    drillStatus := 0, drillInterval := 600, drillRuns := 0, drillFailures := 0, flashA := .built,
    flashB := .built, flashJobs := [], log := [], arriving := [], nextRecord := 1, readers := [], replays := 0,
    shuffles := [0, 0, 0], progress := [], nextProgress := 0, deal := none, dealQueue := [],
    dealNumber := 0, nextKey := 1, moduleKey := 0, spineBreaks := [] }

/-- The module as manufactured, before aux power is applied: nothing on, nothing listed, every register at
the reset value the manual gives or the value the assumption log names. -/
def State.reset : State :=
  { orderB := false, pavs := [], plots := [], segs := [], hbmStacks := [], hbm := Store.empty, links := [], rxs := [],
    allots := [], hostPorts := [], srvPorts := [], lodge := Lodge.built, ns := 0, free := 0, pending := [],
    out := [] }

end Sys2Proof.Machine
end

