-- ==== Sys2Proof/WellFormed.lean ====
section
/-! DEFINITION. The commands that stand for something that can reach the module. -/

namespace Sys2Proof

/-- R338: addressed to all, without VLAN tag, of type 0x88B6; payload 0–1,024 bytes, as the header says; a tag of 16 bytes exactly
when the session is not 0. -/
def HFrame.wf (f : HFrame) : Bool :=
  f.macDst == 0xFFFFFFFFFFFF && !f.vlan && f.ethertype == 0x88B6 &&
  f.payload.length == f.length.toNat && f.payload.length ≤ 1024 &&
  (if f.session = 0 then f.tag.length == 0 else f.tag.length == 16)

/-- The packet commands carry a packet of their own type, or of a reserved one, which every router discards (R285). -/
def Packet.ofType (k : Packet) (t : BitVec 4) : Bool := k.ptype == t || decide (8 ≤ k.ptype.toNat)

/-- A command that some step of the module can have. -/
def Instr.wf : Instr → Bool
  | .expeditedRead f | .expeditedWrite f | .segmentedRead f | .segmentedWrite f | .blockControl f
  | .blockWrite f | .abort f | .eventAck f | .sync f _ | .delayReq f | .delayResp f | .frameForward f
  | .stationAssign f | .hello f | .accept f | .close f | .wkeySet f | .wkeyDel f | .ownersSet f => f.wf
  | .req k => k.ofType 1
  | .read k => k.ofType 2
  | .reply k => k.ofType 3
  | .data k => k.ofType 0
  | .nack k => k.ofType 4
  | .signalPacket k => k.ofType 5
  | .control k => k.ofType 6
  | .granule k => k.ofType 7
  | _ => true

end Sys2Proof
end

