-- ==== Sys2Proof/Machine/Ops.lean ====
section
/-! DEFINITION. The named operations over tables, memories and units of the module that every meaning uses. -/

namespace Sys2Proof.Machine

/-- What a command answers. -/
abbrev Res := Host.Outcome State Fault Refusal

/-- A command whose condition does not hold leaves the state unchanged (log 2). -/
def onlyIf (c : Bool) (s t : State) : Res := .next (if c then t else s)

/-- A command whose operand is none that can reach the module this way stands for no step of it: it changes nothing (log 2). -/
def wfOr (c : Bool) (s : State) (r : Res) : Res := if c then r else .next s

/-! ### Tables -/

/-- The entry of key k, if the table lists one. -/
def tget? {α : Type} : Tab α → Nat → Option α
  | [], _ => none
  | (j, v) :: t, k => if j = k then some v else tget? t k

/-- The entry of key k, or the value an absent key reads as. -/
def tget {α : Type} (d : α) (t : Tab α) (k : Nat) : α := (tget? t k).getD d

/-- The table with key k set, in ascending key order. -/
def tset {α : Type} : Tab α → Nat → α → Tab α
  | [], k, v => [(k, v)]
  | (j, u) :: t, k, v =>
    if k < j then (k, v) :: (j, u) :: t else if k = j then (k, v) :: t else (j, u) :: tset t k v

/-- The table without key k. -/
def tdel {α : Type} (t : Tab α) (k : Nat) : Tab α := t.filter (fun e => e.1 ≠ k)

def tmod {α : Type} (d : α) (t : Tab α) (k : Nat) (f : α → α) : Tab α := tset t k (f (tget d t k))

/-- The entry of key k in a table keyed by a type with decidable equality. -/
def aget {α β : Type} [DecidableEq α] (d : β) : List (α × β) → α → β
  | [], _ => d
  | (j, v) :: t, k => if j = k then v else aget d t k

def aset {α β : Type} [DecidableEq α] : List (α × β) → α → β → List (α × β)
  | [], k, v => [(k, v)]
  | (j, u) :: t, k, v => if j = k then (k, v) :: t else (j, u) :: aset t k v

def lget {α : Type} (d : α) (l : List α) (i : Nat) : α := l.getD i d

/-! ### Counters -/

/-- A U32 counter that saturates (R355). -/
def satAdd (w : Word) (n : Nat) : Word := BitVec.ofNat 32 (min (w.toNat + n) 0xFFFFFFFF)

def satInc (w : Word) : Word := satAdd w 1

/-! ### Bytes -/

/-- The little-endian value of bytes (R338, R552). -/
def leNat : List Byte → Nat
  | [] => 0
  | b :: t => b.toNat + 256 * leNat t

/-- The n little-endian bytes of a value. -/
def natLE : Nat → Nat → List Byte
  | 0, _ => []
  | n + 1, v => BitVec.ofNat 8 v :: natLE n (v / 256)

/-- The n big-endian bytes of a value, most significant first. -/
def natBE (n v : Nat) : List Byte := (natLE n v).reverse

def beNat (l : List Byte) : Nat := leNat l.reverse

/-- n bytes from offset o of a byte list, zero beyond its end. -/
def bslice (l : List Byte) (o n : Nat) : List Byte :=
  let t := (l.drop o).take n
  t ++ List.replicate (n - t.length) 0

/-- ASCII characters as bytes. -/
def ascii (t : String) : List Byte := t.toList.map (fun c => BitVec.ofNat 8 c.toNat)

/-- Bits [hi:lo] of a value. -/
def bits (v hi lo : Nat) : Nat := (v / 2 ^ lo) % 2 ^ (hi + 1 - lo)

def bit (v i : Nat) : Bool := v.testBit i

/-- The numbers below n that satisfy a test. -/
def below (n : Nat) (f : Nat → Bool) : List Nat := (List.range n).filter f

def sumBy {α : Type} (l : List α) (f : α → Nat) : Nat := (l.map f).foldl (· + ·) 0

/-! ### Byte memories in canonical form -/

/-- A byte of a canonical memory: an unlisted byte reads 0. -/
def memByte : List Host.Cell → Nat → Byte
  | [], _ => 0
  | (j, v) :: t, k => if j = k then v else memByte t k

/-- Writing byte k: ascending addresses, no byte 0 listed. -/
def memSet : List Host.Cell → Nat → Byte → List Host.Cell
  | [], k, v => if v = 0 then [] else [(k, v)]
  | (j, u) :: t, k, v =>
    if k < j then (if v = 0 then (j, u) :: t else (k, v) :: (j, u) :: t)
    else if k = j then (if v = 0 then t else (k, v) :: t)
    else (j, u) :: memSet t k v

def memRead (m : List Host.Cell) (a n : Nat) : List Byte := (List.range n).map (fun i => memByte m (a + i))

def memWrite : List Host.Cell → Nat → List Byte → List Host.Cell
  | m, _, [] => m
  | m, a, b :: t => memWrite (memSet m a b) (a + 1) t

/-- Without the bytes of [a, a + n). -/
def memZero (m : List Host.Cell) (a n : Nat) : List Host.Cell :=
  m.filter (fun e => decide (e.1 < a ∨ a + n ≤ e.1))

/-- The canonical form: strictly ascending addresses above a bound, no byte 0. -/
def memWfFrom : Nat → List Host.Cell → Bool
  | _, [] => true
  | lo, (j, v) :: t => decide (lo ≤ j) && decide (v ≠ 0) && memWfFrom (j + 1) t

/-- The canonical form of a memory. -/
def Memory.wf (m : List Host.Cell) : Bool := memWfFrom 0 m

/-! ### Stores of 64-byte rows -/

def RowMeta.clean : RowMeta := { poison := false, errs := 0 }

def Store.rowMeta (m : Store) (row : Nat) : RowMeta := tget RowMeta.clean m.rows row

def Store.setMeta (m : Store) (row : Nat) (x : RowMeta) : Store :=
  if x = RowMeta.clean then { m with rows := tdel m.rows row } else { m with rows := tset m.rows row x }

/-- How many errors a store's code corrects and detects: 2 and 3 for SRAM rows (R234), 2 and 4 for HBM lines
(R319). -/
structure Code where
  correct : Nat
  detect : Nat
  deriving DecidableEq, Repr

def sramCode : Code := { correct := 2, detect := 3 }
def hbmCode : Code := { correct := 2, detect := 4 }

/-- What a corrector reports of a row (R234–R236, R319): delivered clean, corrected, with its stored poison, with it after a
correction, or poisoned as uncorrectable. -/
inductive Seen where
  | clean | corrected | poisoned | mended | uncorrectable
  deriving DecidableEq, Repr

/-- The row is delivered poisoned. -/
def Seen.bad : Seen → Bool
  | .poisoned | .mended | .uncorrectable => true
  | .clean | .corrected => false

/-- The corrector has fixed the row. -/
def Seen.fixed : Seen → Bool
  | .corrected | .mended => true
  | _ => false

/-- A row as the corrector delivers it: what it saw and the 64 bytes; n is the free value number for a row
beyond the code's guarantee (log 19). -/
def Store.correct (c : Code) (m : Store) (row n : Nat) : Seen × List Byte :=
  let x := m.rowMeta row
  let d := memRead m.bytes (64 * row) 64
  if x.errs = 0 then (if x.poison then .poisoned else .clean, d)
  else if x.errs ≤ c.correct then (if x.poison then .mended else .corrected, d)
  else if x.errs ≤ c.detect then (.uncorrectable, d)
  else match Config.beyondCode n % 4 with
    | 0 => (.uncorrectable, d)
    | 1 => (.clean, (List.range 64).map (Config.miscorrected n))
    | 2 => (.corrected, (List.range 64).map (Config.miscorrected n))
    | _ => (.clean, d)

/-- A row as the corrector delivers it into a copy: uncorrectable rows arrive poisoned. -/
def copiedMeta (c : Code) (m : Store) (row n : Nat) : List Byte × Bool :=
  let r := m.correct c row n
  (r.2, r.1.bad)

/-- Writing one whole row with its poison: R237, R322. -/
def Store.putRow (m : Store) (row : Nat) (d : List Byte) (poison : Bool) : Store :=
  ({ m with bytes := memWrite (memZero m.bytes (64 * row) 64) (64 * row) (bslice d 0 64) } : Store).setMeta row
    { poison := poison, errs := 0 }

/-- A row that the corrector has fixed, written back as delivered (R235, R322, R424). -/
def Store.putFixed (m : Store) (row : Nat) (r : Seen × List Byte) : Store := m.putRow row r.2 r.1.bad

/-- Writing part of a row merges it into the corrected old row (R237, R322). -/
def Store.putBytes (c : Code) (m : Store) (a : Nat) (d : List Byte) (poison : Bool) (n : Nat) : Store :=
  let row := a / 64
  let old := m.correct c row n
  let o := a % 64
  let merged := old.2.take o ++ d ++ old.2.drop (o + d.length)
  let whole := d.length = 64 ∧ o = 0
  m.putRow row merged
    (poison || (!decide whole && old.1.bad))

def Store.poisonRow (m : Store) (row : Nat) : Store := m.setMeta row { poison := true, errs := 0 }

/-- Writing bytes that may span rows, with one poison mark for all. -/
def Store.putRange (c : Code) (m : Store) (a : Nat) (d : List Byte) (poison : Bool) (n : Nat) : Nat → Store
  | 0 => m
  | fuel + 1 =>
    if d.isEmpty then m else
      let k := 64 - a % 64
      (m.putBytes c a (d.take k) poison n).putRange c (a + k) (d.drop k) poison n fuel

/-- Bytes from a, and whether any of their rows is delivered poisoned. -/
def Store.getRange (c : Code) (m : Store) (a len n : Nat) : List Byte × Bool :=
  let rows := (List.range ((a + len + 63) / 64 - a / 64)).map (fun i => m.correct c (a / 64 + i) n)
  (((rows.map (·.2)).flatten.drop (a % 64)).take len,
    rows.any (fun r => r.1 = .poisoned || r.1 = .uncorrectable))

/-- Zeroing rows [row, row + n). -/
def Store.zeroRows (m : Store) (row n : Nat) : Store :=
  { bytes := memZero m.bytes (64 * row) (64 * n),
    rows := m.rows.filter (fun e => decide (e.1 < row ∨ row + n ≤ e.1)) }

/-! ### Folded rings (R29, R280) -/

/-- The ring position of physical coordinate a on a folded ring of n routers (R280). -/
def foldPos (n a : Nat) : Nat := if a % 2 = 0 then a / 2 else n - 1 - (a - 1) / 2

/-- Two coordinates are at adjacent positions of a folded ring of n routers (R280). -/
def foldNear (n a b : Nat) : Bool :=
  (foldPos n a + 1) % n == foldPos n b || (foldPos n b + 1) % n == foldPos n a

/-! ### Links and their two ends (R29, R30) -/

/-- The gate that an express link leads to: the next or previous one of its folded row or column ring (R29; log 45). -/
def expressTo (p d : Nat) : Nat :=
  let ring := if d % 2 = 1 then [0, 2, 4, 6, 7, 5, 3, 1] else [0, 2, 4, 6, 5, 3, 1]
  let n := ring.length
  let i := if d % 2 = 1 then p % 8 else p / 8
  let at_ := (ring.findIdx? (· == i)).getD 0
  let dest := lget 0 ring (if d = 1 ∨ d = 2 then (at_ + 1) % n else (at_ + n - 1) % n)
  if d % 2 = 1 then 8 * (p / 8) + dest else 8 * dest + p % 8

/-- The gate across edge d of a plot, none on the rim (R30). -/
def edgeTo (p d : Nat) : Option Nat :=
  match d with
  | 0 => if p / 8 = 0 then none else some (p - 8)
  | 1 => if p % 8 = 7 then none else some (p + 1)
  | 2 => if p / 8 = 6 then none else some (p + 8)
  | _ => if p % 8 = 0 then none else some (p - 1)

/-- The plots at the ends of a link. -/
def linkEnds : LinkId → List Nat
  | .express p d _ => [p.val, expressTo p.val d.val]
  | .prom p e _ => p.val :: (edgeTo p.val e.val).toList
  | .cellTorus p _ _ _ => [p.val]
  | .attach p _ _ => [p.val]
  | .port p _ => [p.val / 4]
  | _ => []

/-- The link exists: an edge on the rim has no channels (R30). -/
def linkExists : LinkId → Bool
  | .prom p e _ => (edgeTo p.val e.val).isSome
  | _ => true

/-- Two gates lie in different Lawns (R11). -/
def crosses (p q : Nat) : Bool := decide (p % 8 < 4) != decide (q % 8 < 4)

/-- The wires of a link: whether they cross the Footbridge, and its data lanes or tracks in each direction (R14–R16, R32,
R251, R253; log 99). -/
def linkWires : LinkId → Option (Bool × Nat)
  | .express p d _ => let c := crosses p.val (expressTo p.val d.val); some (c, if c then 256 else 512)
  | .prom p e _ => (edgeTo p.val e.val).map (fun q => let c := crosses p.val q; (c, if c then 288 else 555))
  | .colonnade n r => if (if r = 0 then n = 0 ∨ n = 4 else n = 1 ∨ n = 5) then some (true, 4096) else none
  | .spine => some (true, 4)
  | _ => none

/-- The Footbridge span that carries a link (R14, R34, R35). -/
def spanOf (l : LinkId) : Option Nat :=
  match l, linkWires l with
  | .express p _ _, some (true, _) | .prom p _ _, some (true, _) => some (p.val / 8)
  | .colonnade n _, some (true, _) => some (if n.val < 4 then 7 else 8)
  | .spine, _ => some 7
  | _, _ => none

/-- The failed wires exceed the spares: of some group of 32 lanes with its spare across the Footbridge, or of a stitched
link's tracks, 1 spare for 32, in some direction (R15, R16). -/
def wiresLost (w : Bool × Nat) (failed : List Nat) : Bool :=
  let n := if w.1 then 1 else w.2 / 32
  let size := if w.1 then 33 else w.2 + n
  failed.any (fun k => decide (n < (failed.filter (fun j => j / size == k / size)).length))

/-- A link between two plots has a name at each end; its state is kept under the one at its lower-indexed end (R505,
R520; log 28). -/
def linkCanon : LinkId → LinkId
  | .express p d j =>
    let q := expressTo p.val d.val
    if q < p.val then .express (Fin.ofNat 56 q) (Fin.ofNat 4 (d.val + 2)) j else .express p d j
  | .prom p e c =>
    let q := (edgeTo p.val e.val).getD 56
    if q < p.val then .prom (Fin.ofNat 56 q) (Fin.ofNat 4 (e.val + 2)) c else .prom p e c
  | .cellTorus p x y d => .cellTorus p x y d
  | .attach p i u => .attach p i u
  | .port p u => .port p u
  | .segGate n i j => .segGate n i j
  | .colonnade n r => .colonnade n r
  | .span n => .span n
  | .spine => .spine
  | .server n => .server n
  | .stack k => .stack k
  | .host h => .host h

/-! ### Units of the state -/

def State.pav (s : State) (p : Nat) : Pav := tget (Pav.built s.orderB p) s.pavs p
def State.plot (s : State) (p : Nat) : Plot := tget Plot.built s.plots p
def State.seg (s : State) (n : Nat) : Seg := tget Seg.built s.segs n
def State.stack (s : State) (k : Nat) : Stack := tget Stack.built s.hbmStacks k
def State.allot (s : State) (a : Nat) : Allot := tget Allot.built s.allots a
def State.hostPort (s : State) (h : Nat) : HostPort := tget HostPort.built s.hostPorts h
def State.srv (s : State) (p : Nat) : SrvPort := tget (SrvPort.built s.lodge.serial p) s.srvPorts p
def State.rx (s : State) (r : Receiver) : Rx := aget Rx.empty s.rxs r
def State.link (s : State) (l : LinkId) : Link := aget Link.built s.links (linkCanon l)
def HostPort.fn (h : HostPort) (f : Nat) : Fn := tget Fn.built h.fns f
def State.fn (s : State) (h f : Nat) : Fn := (s.hostPort h).fn f
def Allot.queue (a : Allot) (q : Nat) : Queue := tget Queue.built a.queues q

def State.setPav (s : State) (p : Nat) (x : Pav) : State := { s with pavs := tset s.pavs p x }
def State.setPlot (s : State) (p : Nat) (x : Plot) : State := { s with plots := tset s.plots p x }
def State.setSeg (s : State) (n : Nat) (x : Seg) : State := { s with segs := tset s.segs n x }
def State.setStack (s : State) (k : Nat) (x : Stack) : State := { s with hbmStacks := tset s.hbmStacks k x }
def State.setAllot (s : State) (a : Nat) (x : Allot) : State := { s with allots := tset s.allots a x }
def State.setHost (s : State) (h : Nat) (x : HostPort) : State :=
  { s with hostPorts := tset s.hostPorts h x }
def State.setSrv (s : State) (p : Nat) (x : SrvPort) : State := { s with srvPorts := tset s.srvPorts p x }
def State.setRx (s : State) (r : Receiver) (x : Rx) : State := { s with rxs := aset s.rxs r x }
def State.setLink (s : State) (l : LinkId) (x : Link) : State := { s with links := aset s.links (linkCanon l) x }
def State.setLodge (s : State) (x : Lodge) : State := { s with lodge := x }

def State.modPav (s : State) (p : Nat) (f : Pav → Pav) : State := s.setPav p (f (s.pav p))
def State.modPlot (s : State) (p : Nat) (f : Plot → Plot) : State := s.setPlot p (f (s.plot p))
def State.modSeg (s : State) (n : Nat) (f : Seg → Seg) : State := s.setSeg n (f (s.seg n))
def State.modStack (s : State) (k : Nat) (f : Stack → Stack) : State := s.setStack k (f (s.stack k))
def State.modAllot (s : State) (a : Nat) (f : Allot → Allot) : State := s.setAllot a (f (s.allot a))
def State.modHost (s : State) (h : Nat) (f : HostPort → HostPort) : State := s.setHost h (f (s.hostPort h))
def State.modSrv (s : State) (p : Nat) (f : SrvPort → SrvPort) : State := s.setSrv p (f (s.srv p))
def State.modRx (s : State) (r : Receiver) (f : Rx → Rx) : State := s.setRx r (f (s.rx r))
def State.modLink (s : State) (l : LinkId) (f : Link → Link) : State := s.setLink l (f (s.link l))
def State.modLodge (s : State) (f : Lodge → Lodge) : State := s.setLodge (f s.lodge)
def State.modFn (s : State) (h f : Nat) (g : Fn → Fn) : State :=
  s.modHost h (fun x => { x with fns := tmod Fn.built x.fns f g })
def State.modQueue (s : State) (a q : Nat) (g : Queue → Queue) : State :=
  s.modAllot a (fun x => { x with queues := tmod Queue.built x.queues q g })
def State.modSeq (s : State) (p : Nat) (f : Seq → Seq) : State :=
  s.modPav p (fun x => { x with seq := f x.seq })
def State.modME (s : State) (p : Nat) (f : ME → ME) : State := s.modPav p (fun x => { x with me := f x.me })
def State.modVE (s : State) (p : Nat) (f : VE → VE) : State := s.modPav p (fun x => { x with ve := f x.ve })

/-- Sends something out of the module. -/
def State.emit (s : State) (o : Output) : State := { s with out := s.out ++ [o] }

def State.emits (s : State) (o : List Output) : State := { s with out := s.out ++ o }

/-- Takes the next free value number. -/
def State.fresh (s : State) : Nat × State := (s.free, { s with free := s.free + 1 })

/-- Runs an effect for each element of a list, in order. -/
def State.each {α : Type} (s : State) (l : List α) (f : State → α → State) : State := l.foldl f s

/-! ### Places on the wafer -/

/-- The plot of a pavilion (R18). -/
def plotOf (p : Nat) : Nat := p / 4

/-- The pavilions of a plot (R18). -/
def pavsOf (p : Nat) : List Nat := [4 * p, 4 * p + 1, 4 * p + 2, 4 * p + 3]

/-- The plot that holds cell (x, y) (R19). -/
def plotOfCell (x y : Nat) : Nat := 8 * (y / 68) + x / 64

/-- The quadrant of local coordinates (R20). -/
def quadOf (lx ly : Nat) : Nat := (if ly < 34 then 0 else 2) + (if lx < 32 then 0 else 1)

/-- The cell number of a presented position of quadrant q, none for a spare position (R20, R21). -/
def cellNumber (q lx ly : Nat) : Option Nat :=
  let c := lx - 32 * (q % 2)
  if q < 2 then (if 2 ≤ ly ∧ ly < 34 then some (32 * (ly - 2) + c) else none)
  else (if 34 ≤ ly ∧ ly < 66 then some (32 * (ly - 34) + c) else none)

/-- The local coordinates of cell n of quadrant q (R21). -/
def cellLocal (q n : Nat) : Nat × Nat :=
  (32 * (q % 2) + n % 32, if q < 2 then 2 + n / 32 else 34 + n / 32)

/-- The physical cell of local coordinates: its place, 0–1,087, in the garden's local row order. -/
def physOf (q lx ly : Nat) : Nat := 32 * (if q < 2 then ly else ly - 34) + (lx - 32 * (q % 2))

/-- The local coordinates of a physical cell of quadrant q. -/
def physLocal (q k : Nat) : Nat × Nat :=
  (32 * (q % 2) + k % 32, (if q < 2 then 0 else 34) + k / 32)

/-- The remap entry of a dead cell, if there is one (R455). -/
def Plot.remapOf (x : Plot) (lx ly : Nat) : Option Remap :=
  x.remap.find? (fun r => r.dx.val = lx && r.dy.val = ly)

/-- The physical cell that answers for cell n of pavilion p (R219). -/
def State.physCell (s : State) (p n : Nat) : Nat :=
  let q := p % 4
  let l := cellLocal q n
  match (s.plot (plotOf p)).remapOf l.1 l.2 with
  | some r => physOf q r.ux.val r.uy.val
  | none => physOf q l.1 l.2

/-- A physical cell is a spare position (R20). -/
def isSpare (q k : Nat) : Bool := (cellNumber q (physLocal q k).1 (physLocal q k).2).isNone

/-- The working spare cells of a pavilion that are not dummies (R24, R450). -/
def State.spareCells (s : State) (p : Nat) : List Nat :=
  below 1088 (fun k => isSpare (p % 4) k && !(s.pav p).badSpares.contains k &&
    !(s.plot (plotOf p)).remap.any (fun r => r.ux.val == (physLocal (p % 4) k).1 && r.uy.val == (physLocal (p % 4) k).2))

/-- Row i of a keep store that lies in these cells: 252 KiB of each (R450; log 90). -/
def keepSlot (cells : List Nat) (i : Nat) : Nat := 4096 * lget 1088 cells (i / 4032) + i % 4032

/-- The first row of a keep store that holds no copy. -/
def freeKeep (cells : List Nat) (keep : List Keep) : Nat :=
  ((List.range (keep.length + 1)).map (keepSlot cells)).find? (fun r => !keep.any (fun k => k.at_ == r)) |>.getD (keepSlot cells 0)

/-- A cell holds keep copies. -/
def Pav.keepsIn (x : Pav) (k : Nat) : Bool := x.seq.keep.any (fun e => e.at_ / 4096 == k)

/-- Keep copies in another keep store, one after another. -/
def rekeep (cells : List Nat) (keep : List Keep) : List Keep :=
  ((List.range keep.length).zip keep).map (fun e => { e.2 with at_ := keepSlot cells e.1 })

/-- A physical cell of pavilion p is dead: a spare one is used no more, a dead router is listed, and keep copies behind it
cannot be read again (R24, R300). -/
def State.cellDead (s : State) (p k : Nat) (rdead : Bool) : State :=
  let l := physLocal (p % 4) k
  let s := if isSpare (p % 4) k && !(s.pav p).badSpares.contains k then
      s.modPav p (fun v => { v with badSpares := v.badSpares ++ [k] }) else s
  let s := if rdead && (s.pav p).keepsIn k then s.modPav p (fun v => { v with
      garden := (v.seq.keep.filter (fun e => e.at_ / 4096 == k)).foldl (fun m e => m.poisonRow e.at_) v.garden }) else s
  if rdead && !(s.plot (plotOf p)).deadRouters.contains l then
    s.modPlot (plotOf p) (fun x => { x with
      deadRouters := x.deadRouters ++ [l]
      remap := x.remap.map (fun r => if r.dx.val = l.1 ∧ r.dy.val = l.2 then { r with rdead := true } else r) }) else s

/-- The row in the garden store that holds a pavilion-local address's row (R218, R219). -/
def State.gardenRow (s : State) (p a : Nat) : Nat :=
  s.physCell p (a / 0x40000 % 1024) * 4096 + a % 0x40000 / 64

/-- The port cell of quadrant q, in local coordinates (R20). -/
def portCell (q : Nat) : Nat × Nat := (if q % 2 = 0 then 31 else 32, if q < 2 then 33 else 34)

/-- The segments that a plot's gate is attached to (R31). -/
def segsOfPlot (p : Nat) : List Nat :=
  (if p < 4 then [0] else []) ++ (if 4 ≤ p ∧ p < 8 then [1] else []) ++
  (if p = 7 ∨ p = 15 ∨ p = 23 ∨ p = 31 then [2] else []) ++
  (if p = 31 ∨ p = 39 ∨ p = 47 ∨ p = 55 then [3] else []) ++
  (if 52 ≤ p ∧ p < 56 then [4] else []) ++ (if 48 ≤ p ∧ p < 52 then [5] else []) ++
  (if p = 48 ∨ p = 40 ∨ p = 32 ∨ p = 24 then [6] else []) ++
  (if p = 24 ∨ p = 16 ∨ p = 8 ∨ p = 0 then [7] else [])

/-- The gates of a segment, in the order of R31. -/
def gatesOfSeg (n : Nat) : List Nat :=
  lget [] [[0, 1, 2, 3], [4, 5, 6, 7], [7, 15, 23, 31], [31, 39, 47, 55], [55, 54, 53, 52],
    [51, 50, 49, 48], [48, 40, 32, 24], [24, 16, 8, 0]] n

/-- The rail of a domain (R469). -/
def railOf : Domain → Nat
  | .plot p .E => 3 * p.val
  | .plot p .G => 3 * p.val + 1
  | .plot p .H => 3 * p.val + 2
  | .segment n => 168 + n.val

/-- The rail group of a rail (R471); the Lodge rail 176 is on none and answers 17. -/
def groupOf (r : Nat) : Nat :=
  if r < 168 then let p := r / 3; 2 * (p / 8) + (if p % 8 < 4 then 0 else 1)
  else if r < 176 then (if r < 171 then 14 else if r < 174 then 15 else 16)
  else if r = 176 then 17
  else let k := r - 177; if k < 9 then 14 else if k < 18 then 15 else 16

/-! ### Allotments -/

/-- The allotment that a plot has joined, none while it is scrubbed (R249). -/
def State.ownerOf (s : State) (plot : Nat) : Option Nat := (s.plot plot).owner.map (·.val)

/-- The allotment of a pavilion. -/
def State.allotOfPav (s : State) (p : Nat) : Option Nat := s.ownerOf (plotOf p)

/-- Plots that have joined an allotment. -/
def State.plotsOf (s : State) (a : Nat) : List Nat := below 56 (fun p => s.ownerOf p == some a)

def State.pavsOfAllot (s : State) (a : Nat) : List Nat := (s.plotsOf a).flatMap pavsOf

/-- A pavilion that the presented counts take in: a presented one whose doubling has not lowered them (R466). -/
def Pav.counted (x : Pav) : Bool := x.role == .presented && !x.reduced

/-- A plot whose pavilions may take on work: fully on, and not about to be switched off (R461, R484). -/
def Plot.serves (x : Plot) : Bool := x.offCause.isNone && !x.shedding

/-- A reserve pavilion that works (R27): not failed, in a plot that is fully on. -/
def State.reserveWorks (s : State) (p : Nat) : Bool :=
  (s.pav p).role == .reserve && (s.pav p).enable == .open_ && (s.plot (plotOf p)).serves

def State.reservesOf (s : State) (a : Nat) : List Nat := (s.pavsOfAllot a).filter s.reserveWorks

/-- An allotment that is not closed (R382). -/
def Allot.live (x : Allot) : Bool := x.enable != .closed

/-- The allotment whose PF is function f of port h (R376). -/
def State.allotOfFn (s : State) (h f : Nat) : Option Nat :=
  (List.range 16).find? (fun a => (s.allot a).live && (s.allot a).hostPort.toNat == h
    && (s.allot a).pf.toNat == f)

/-- The allotment's HBM length in gigabytes: the sum of its ranges (R318). -/
def Allot.gigabytes (x : Allot) : Nat := sumBy x.ranges (fun r => r.2.toNat)

/-- The usable length in bytes, without the stage area of 1 GB (R368). -/
def Allot.usable (x : Allot) : Nat := 10 ^ 9 * (x.gigabytes - 1)

/-- The module address of an allotment offset (R318); none beyond its length. -/
def rangeAddr : List (BitVec 32 × BitVec 32) → Nat → Option Nat
  | [], _ => none
  | (b, l) :: t, o =>
    if o < 10 ^ 9 * l.toNat then some (10 ^ 9 * b.toNat + o) else rangeAddr t (o - 10 ^ 9 * l.toNat)

/-- The stack, pseudo-channel and granule of a module address (R318). -/
def hbmHash (addr : Nat) : Nat × Nat × Nat :=
  let g := addr / 256
  let q := g / 24
  let r := g % 24
  let u := q / 64
  ((r + q + q / 24 + q / 576) % 24, (q % 64) ^^^ (u % 64), u)

/-- The stand-in that answers for a pavilion (R457). -/
def Allot.mapped (x : Allot) (p : Nat) : Nat :=
  match x.pavMap.find? (fun m => m.failed.val = p) with
  | some m => m.standIn.val
  | none => p

/-- The pavilion that carries pavilion p's context now. -/
def State.carrier (s : State) (p : Nat) : Nat :=
  match s.allotOfPav p with
  | some a => (s.allot a).mapped p
  | none => p

/-- The pavilion index whose chunks a pavilion runs: the failed one that it replaces, or its own (R457, R458). -/
def Allot.targetOf (x : Allot) (d : Nat) : Nat :=
  match x.pavMap.find? (fun m => m.standIn.val == d && !m.doubled) with
  | some m => m.failed.val
  | none => d

/-- A presented, open pavilion with a context of its own: its doubled one has left it, unless it replaces another (R458,
R462). -/
def State.works (s : State) (a p : Nat) : Bool :=
  (s.pav p).role == .presented && (s.pav p).enable == .open_ &&
    ((s.pav p).doubled.isNone || (s.allot a).targetOf p != p)

/-- Where the context of pavilion p is now (R457, R462): in the pavilion that carries it, or, while a stand-in runs another
context, in a spill slot, whose contents stand under 224 + p for a doubled context and under 448 + d for the own context of
stand-in d (log 30). -/
def State.mappedTo (s : State) (a p : Nat) : Nat :=
  let m := (s.allot a).mapped p
  if (s.pav p).doubled.isSome then (if (s.pav m).context = p then m else 224 + p)
  else if (s.pav m).context = m then m else 448 + m

def State.holder (s : State) (p : Nat) : Nat :=
  match s.allotOfPav p with
  | some a => s.mappedTo a p
  | none => p

/-- The context of pavilion p is switched out of its stand-in (R464). -/
def State.switchedOut (s : State) (p : Nat) : Bool := decide (224 ≤ s.holder p)

/-- The pavilions of an allotment, and the spill slots that hold contexts of it. -/
def State.holdersOf (s : State) (a : Nat) : List Nat :=
  (s.pavsOfAllot a).flatMap (fun p =>
    p :: ((if (s.pav p).doubled.isSome && s.switchedOut p then [224 + p] else []) ++
      (if (s.pav p).context ≠ p then [448 + p] else [])))

/-! ### Records and events (R343, R398, R441–R443) -/

/-- A record with every field at the reset value of R441. -/
def ErrRec.base : ErrRec :=
  { ty := 0, severity := 0, cls := 0, plot := 63, pavilion := 0xFF, x := 0, y := 0, subunit := 0,
    opcode := 0, paddr := 0, allotment := 0x1F, time := 0, temperature := 0, rail := 0, mark := 0,
    count := 1, bitmap := 0, detail := 0, number := 0, anumber := 0, address := 0 }

/-- The 512 bits of a record, as R441 lays them out. -/
def ErrRec.toBits (r : ErrRec) : BitVec 512 :=
  r.ty ++ r.severity ++ r.cls ++ r.plot ++ r.pavilion ++ r.x ++ r.y ++ r.subunit ++ r.opcode ++ r.paddr ++
  r.allotment ++ (0 : BitVec 17) ++ r.time ++ r.temperature ++ r.rail ++ r.mark ++ r.count ++ r.bitmap ++
  r.detail ++ r.number ++ r.anumber ++ r.address ++ (0 : BitVec 32)

/-- The unit index of a record's bitmap (R441). -/
def ErrRec.unit (r : ErrRec) : Nat :=
  match r.cls.toNat with
  | 1 => 64 * (r.y.toNat % 68) + r.x.toNat % 64
  | 2 | 3 | 4 | 5 => r.pavilion.toNat % 4
  | 6 => r.subunit.toNat
  | 8 | 11 | 12 | 13 => r.subunit.toNat
  | _ => 0

/-- All readers of the log: 64 stations and 16 mailboxes (R356). -/
def allReaders : List Reader :=
  (List.range 64).map Reader.station ++ (List.range 16).map Reader.mailbox

def ReaderPos.start : ReaderPos := { position := 1, lost := 0 }

/-- The number a record has for a reader: the module's, or the allotment's (R359). -/
def ErrRec.numberFor (r : ErrRec) : Reader → Option Nat
  | .station _ => some r.number.toNat
  | .mailbox a => if r.allotment.toNat = a then some r.anumber.toNat else none

/-- A reader's place when a record is overwritten (R356). -/
def ReaderPos.overwrite (x : ReaderPos) (n : Option Nat) : ReaderPos :=
  match n with
  | some k => if x.position ≤ k then { x with lost := satInc x.lost } else x
  | none => x

/-- The log with a record added and, beyond 16,384 records, its oldest overwritten (R356). -/
def Lodge.logAdd (l : Lodge) (r : ErrRec) : Lodge :=
  let log := l.log ++ [r]
  match log with
  | old :: rest =>
    if 16384 < log.length then
      { l with
        log := rest
        readers := allReaders.map (fun d =>
          (d, (aget ReaderPos.start l.readers d).overwrite (old.numberFor d))) }
    else { l with log := log }
  | [] => l

/-- Stands for the number of a job-stop record that the Lodge has not numbered yet (R439, R442). -/
def pendingRecord : Nat := 2 ^ 32

/-- The record types that stop a job (R204, R214, R266, R439, R463). -/
def ErrRec.stops (r : ErrRec) : Bool :=
  [0x0A, 0x0B, 0x0D, 0x0E].contains r.ty.toNat || (r.ty.toNat == 0x11 && r.severity.toNat == 4)

/-- A record reaches the Lodge, which numbers it and writes it to the log (R441). A job that it stopped takes its
number. -/
def State.logRecord (s : State) (r : ErrRec) : State :=
  let a := r.allotment.toNat
  let an := if a < 16 then (s.allot a).records + 1 else 0
  let s := if a < 16 then s.modAllot a (fun x => { x with
      records := x.records + 1
      jobs := x.jobs.map (fun j =>
        if j.record = pendingRecord ∧ r.stops = true then { j with record := an } else j) }) else s
  s.modLodge (fun l =>
    { l.logAdd { r with number := BitVec.ofNat 32 l.nextRecord, anumber := BitVec.ofNat 32 an } with
      nextRecord := l.nextRecord + 1 })

/-- The coalescer that a record goes to (R442). -/
def ErrRec.node (r : ErrRec) : Option CoalNode :=
  if h : r.plot.toNat < 56 then some (.plot ⟨r.plot.toNat, h⟩)
  else match r.cls.toNat with
    | 11 => some (.segment (Fin.ofNat 8 (r.subunit.toNat / 3)))
    | 12 => some (.segment (Fin.ofNat 8 (2 * r.subunit.toNat + 1)))
    | 13 => some (.segment (Fin.ofNat 8 (r.subunit.toNat / 2)))
    | 8 | 10 | 15 => some (.segment (Fin.ofNat 8 r.subunit.toNat))
    | _ => none

/-- A record merges into a held one of its type, class and allotment (R442). -/
def ErrRec.merges (h r : ErrRec) : Bool := h.ty == r.ty && h.cls == r.cls && h.allotment == r.allotment

def ErrRec.bump (h r : ErrRec) : ErrRec :=
  { h with
    count := BitVec.ofNat 16 (min (h.count.toNat + 1) 65535)
    bitmap := h.bitmap ||| BitVec.ofNat 64 (2 ^ (r.unit % 64)) }

def mergeRec (r : ErrRec) : List ErrRec → List ErrRec
  | [] => []
  | h :: t => if h.merges r then h.bump r :: t else h :: mergeRec r t

/-- One of the 64 places is free for a record; 8 are kept for severity 2 or above (R442, R443). -/
def Coalescer.hasPlace (c : Coalescer) (r : ErrRec) : Bool :=
  decide (c.held.length < 64) && (decide (2 ≤ r.severity.toNat) ||
    decide ((c.held.filter (fun h => h.severity.toNat < 2)).length < 56))

/-- A coalescer takes a record: it merges, or finds a place (R442, R443). -/
def Coalescer.takes (c : Coalescer) (r : ErrRec) : Bool := c.held.any (fun h => h.merges r) || c.hasPlace r

/-- A record enters a coalescer, or is dropped and counted (R442, R443). -/
def Coalescer.add (c : Coalescer) (r : ErrRec) : Coalescer :=
  if c.held.any (fun h => h.merges r) then { c with held := mergeRec r c.held }
  else if c.hasPlace r then { c with held := c.held ++ [{ r with bitmap := BitVec.ofNat 64 (2 ^ (r.unit % 64)) }] }
  else { c with overflow := satInc c.overflow }

/-- The rail of a plot's record, by its class (R441): the E rail for engines, sequencers and stages, the G rail for cells and garden
banks, and the H rail for what remains. -/
def ErrRec.railOf (r : ErrRec) : Nat :=
  match r.cls.toNat with
  | 2 | 3 | 4 | 5 => 0
  | 1 | 6 => 1
  | _ => 2

/-- Writes an error record (R441–R443), stamping its time and the hottest sensor and the rail of its unit. -/
def State.record (s : State) (r : ErrRec) : State :=
  let r := { r with time := BitVec.ofNat 64 s.ns }
  match r.node with
  | some (.plot p) =>
    let r := { r with
      temperature := (s.plot p.val).temp.setWidth 16
      rail := (tget { mv := 0, setpoint := 0, amps := 0 } s.lodge.rails (3 * p.val + r.railOf)).mv }
    s.modPlot p.val (fun x => { x with coal := x.coal.add r })
  | some (.segment n) =>
    let r := { r with
      temperature := (s.seg n.val).temp.setWidth 16
      rail := (tget { mv := 0, setpoint := 0, amps := 0 } s.lodge.rails
        (if r.cls = 11 then 177 + r.subunit.toNat else 168 + n.val)).mv }
    s.modSeg n.val (fun x => { x with coal := x.coal.add r })
  | none => s.logRecord r

/-- What a job's completion will carry for a record about to be written (R439, R443): the number that it will take,
pending while a coalescer holds it, or 0 when it finds no place. -/
def State.recordNumber (s : State) (r : ErrRec) : Nat :=
  match r.node with
  | some (.plot p) => if (s.plot p.val).coal.takes r then pendingRecord else 0
  | some (.segment n) => if (s.seg n.val).coal.takes r then pendingRecord else 0
  | none => if r.allotment.toNat < 16 then (s.allot r.allotment.toNat).records + 1 else 0

/-- A record that names a pavilion and its allotment. -/
def State.pavRec (s : State) (p ty severity cls detail : Nat) : ErrRec :=
  { ErrRec.base with
    ty := BitVec.ofNat 8 ty, severity := BitVec.ofNat 4 severity, cls := BitVec.ofNat 4 cls,
    plot := BitVec.ofNat 6 (plotOf p), pavilion := BitVec.ofNat 8 p,
    allotment := BitVec.ofNat 5 ((s.allotOfPav p).getD 0x1F), detail := BitVec.ofNat 32 detail,
    mark := BitVec.ofNat 32 ((((s.pav p).seq.verified.head?).map (·.number)).getD 0) }

/-- A record that names a plot. -/
def State.plotRec (s : State) (p ty severity cls detail : Nat) : ErrRec :=
  { ErrRec.base with
    ty := BitVec.ofNat 8 ty, severity := BitVec.ofNat 4 severity, cls := BitVec.ofNat 4 cls,
    plot := BitVec.ofNat 6 p, allotment := BitVec.ofNat 5 ((s.ownerOf p).getD 0x1F),
    detail := BitVec.ofNat 32 detail }

/-- Lodge firmware runs (R497). -/
def Lodge.booted (l : Lodge) : Bool :=
  match l.phase with
  | .off | .held | .rom => false
  | _ => true

/-- The ring frame of an event (R343). -/
def eventFrame (station : BitVec 7) (dst : BitVec 7) (seq : BitVec 16) (e : Event) : HFrame :=
  { onB := false, fcsOk := true, macDst := 0xFFFFFFFFFFFF, macSrc := 0, vlan := false, ethertype := 0x88B6, version := 1, rsp := false,
    service := 5, dst := dst, src := station,
    hops := 63, seq := seq, index := 0, sub := 0, code := 0, length := 24, session := 0, param := e.code,
    payload := (natLE 24 ((0 : BitVec 35).toNat + 2 ^ 35 * e.allotment.toNat + 2 ^ 40 * e.sub.toNat +
      2 ^ 48 * e.index.toNat + 2 ^ 64 * e.value.toNat + 2 ^ 128 * e.time.toNat)),
    tag := [] }

/-- A frame of the module's own leaves on both ports, each with its own MAC address (R338, R339), unless the closed relay isolates
them (R333). -/
def State.ringOut (s : State) (f : HFrame) : State :=
  if s.lodge.relay then s
  else s.emits [.ring false { f with macSrc := Config.ringMac false }, .ring true { f with macSrc := Config.ringMac true }]

/-- An allotment receives an event (R398): its own, or one of none with code 0x000A to 0x000C. -/
def Event.reaches (e : Event) (a : Nat) : Bool :=
  e.allotment.toNat == a || (e.allotment == 0x1F && decide (10 ≤ e.code.toNat ∧ e.code.toNat ≤ 12))

/-- An event joins an allotment's queue of 64, or is counted lost (R398). -/
def State.queueEvent (s : State) (e : Event) (a : Nat) : State :=
  if (s.allot a).enable == .open_ && e.reaches a then
    if (s.allot a).evq.length < 64 then s.modAllot a (fun x => { x with evq := x.evq ++ [e] })
    else s.modLodge (fun l => { l with eventsLost := satInc l.eventsLost })
  else s

/-- Pushes an event to the ring and to the hosts (R343, R398). -/
def State.event (s : State) (code value index sub allot : Nat) : State :=
  let e : Event :=
    { time := BitVec.ofNat 64 s.ns, value := BitVec.ofNat 64 value, index := BitVec.ofNat 16 index,
      sub := BitVec.ofNat 8 sub, allotment := BitVec.ofNat 5 allot, code := BitVec.ofNat 16 code }
  let l := s.lodge
  let s :=
    if l.eventMask.getLsbD (code - 1) then
      if l.events.length < 64 then
        (s.modLodge (fun l => { l with
          events := l.events ++ [{ event := e, seq := l.nextSeq, attempts := 1, sent := s.ns }]
          nextSeq := l.nextSeq + 1 })).ringOut
          (eventFrame (l.set.station.setWidth 7) (l.set.eventStation.setWidth 7) l.nextSeq e)
      else s.modLodge (fun l => { l with eventsLost := satInc l.eventsLost })
    else s
  s.each (List.range 16) (fun s a => s.queueEvent e a)

/-! ### Counts that objects report -/

/-- Pavilions presented now (0x1000:08), of the module (R466). -/
def State.presentedNow (s : State) : Nat := (below 224 (fun p => (s.pav p).counted)).length

/-- Pavilions of an allotment presented now (0x2400+a:0E, R466). -/
def State.presentedIn (s : State) (a : Nat) : Nat := ((s.pavsOfAllot a).filter (fun p => (s.pav p).counted)).length

def State.reservesNow (s : State) : Nat := (below 224 s.reserveWorks).length

/-- Landing timeout in ns (0x2000:08). -/
def State.landingNs (s : State) : Nat := s.lodge.landingTimeout.toNat

/-- The settings 0x2000:03–0x2000:08 as written. -/
def Lodge.limits (l : Lodge) : Limits :=
  { window := l.forecastWindow, threshold := l.forecastThreshold, stall := l.stallLimit, tag := l.tagTimeout
    skew := l.skewTimeout, landing := l.landingTimeout }

/-- The settings in force for a pavilion: those of its run from when it began, else as written (R355; log 96). -/
def State.limits (s : State) (p : Nat) : Limits :=
  if (s.pav p).seq.running then (s.pav p).seq.limits else s.lodge.limits

/-- The landing timeout of a receiver or sender in ns (R306, R355). -/
def State.landingAt (s : State) (r : Receiver) : Nat :=
  match r with
  | .cell c => (s.limits (4 * plotOfCell c.x.val c.y.val + quadOf (c.x.val % 64) (c.y.val % 68))).landing.toNat
  | .dma p => (s.limits p.val).landing.toNat
  | _ => s.landingNs

/-- 2^n F-cycles in ns: the F-clock runs at 1.4 GHz (R8), so 7 F-cycles take 5 ns. -/
def fcycles (n : Nat) : Nat := (n * 5 + 6) / 7

/-- 2^n A-cycles in ns: the A-clock runs at 2.1 GHz, or 1.68 GHz derated (R8, R481). -/
def acycles (derated : Bool) (n : Nat) : Nat := if derated then (n * 25 + 41) / 42 else (n * 10 + 20) / 21

end Sys2Proof.Machine
end

