-- ==== Sys2Proof/Machine/Crypto.lean ====
section
/-! DEFINITION. SHAKE256 (FIPS 202), KMAC256 (SP 800-185) and CRC-32C, which R338, R419, R426, R433, R521 and
R553 use. -/

namespace Sys2Proof.Machine

/-- The lanes of a Keccak state, 25 words of 64 bits at x + 5y. -/
abbrev Lanes := List (BitVec 64)

def keccakRC : List (BitVec 64) :=
  [0x0000000000000001, 0x0000000000008082, 0x800000000000808A, 0x8000000080008000,
   0x000000000000808B, 0x0000000080000001, 0x8000000080008081, 0x8000000000008009,
   0x000000000000008A, 0x0000000000000088, 0x0000000080008009, 0x000000008000000A] ++
  [0x000000008000808B, 0x800000000000008B, 0x8000000000008089, 0x8000000000008003,
   0x8000000000008002, 0x8000000000000080, 0x000000000000800A, 0x800000008000000A,
   0x8000000080008081, 0x8000000000008080, 0x0000000080000001, 0x8000000080008008]

def keccakRot : List Nat :=
  [0, 1, 62, 28, 27, 36, 44, 6, 55, 20, 3, 10, 43, 25, 39, 41, 45, 15, 21, 8, 18, 2, 61, 56, 14]

def laneAt (a : Lanes) (x y : Nat) : BitVec 64 := a.getD (x % 5 + 5 * (y % 5)) 0

def keccakTheta (a : Lanes) : Lanes :=
  let c := (List.range 5).map (fun x =>
    laneAt a x 0 ^^^ laneAt a x 1 ^^^ laneAt a x 2 ^^^ laneAt a x 3 ^^^ laneAt a x 4)
  (List.range 25).map (fun i =>
    a.getD i 0 ^^^ c.getD ((i % 5 + 4) % 5) 0 ^^^ (c.getD ((i % 5 + 1) % 5) 0).rotateLeft 1)

/-- Steps ρ and π: lane (x, y) moves to (y, 2x + 3y). -/
def keccakRhoPi (a : Lanes) : Lanes :=
  (List.range 25).map (fun i =>
    let x := i % 5
    let y := i / 5
    let sx := (x + 3 * y) % 5
    (laneAt a sx x).rotateLeft (keccakRot.getD (sx + 5 * x) 0))

def keccakChi (a : Lanes) : Lanes :=
  (List.range 25).map (fun i =>
    laneAt a (i % 5) (i / 5) ^^^ (~~~ laneAt a (i % 5 + 1) (i / 5) &&& laneAt a (i % 5 + 2) (i / 5)))

def keccakRound (a : Lanes) (rc : BitVec 64) : Lanes :=
  match keccakChi (keccakRhoPi (keccakTheta a)) with
  | l :: t => (l ^^^ rc) :: t
  | [] => []

def keccakF (a : Lanes) : Lanes := keccakRC.foldl keccakRound a

/-- XORs a block of 136 bytes into the state. -/
def absorbBlock (a : Lanes) (b : List Byte) : Lanes :=
  keccakF ((List.range 25).map (fun i =>
    if i < 17 then a.getD i 0 ^^^ BitVec.ofNat 64 (leNat (bslice b (8 * i) 8)) else a.getD i 0))

def absorb (a : Lanes) (m : List Byte) : Nat → Lanes
  | 0 => a
  | n + 1 => absorb (absorbBlock a (m.take 136)) (m.drop 136) n

def squeeze (a : Lanes) : Nat → List Byte
  | 0 => []
  | n + 1 => (((List.range 17).map (fun i => natLE 8 (a.getD i 0).toNat)).flatten) ++ squeeze (keccakF a) n

/-- Keccak[512] with a domain suffix, n bytes out. -/
def sponge (suffix : Byte) (m : List Byte) (n : Nat) : List Byte :=
  let pad := 136 - m.length % 136
  let m := if pad = 1 then m ++ [suffix ||| 0x80] else m ++ [suffix] ++ List.replicate (pad - 2) 0 ++ [0x80]
  (squeeze (absorb (List.replicate 25 0) m (m.length / 136)) ((n + 135) / 136)).take n

/-- SHAKE256 with n bytes of output. -/
def shake256 (m : List Byte) (n : Nat) : List Byte := sponge 0x1F m n

/-- The first 256 bits of SHAKE256, byte 0 in bits [7:0]. -/
def digest256 (m : List Byte) : BitVec 256 := BitVec.ofNat 256 (leNat (shake256 m 32))

def leftEncode (v : Nat) : List Byte := if v < 256 then [1, BitVec.ofNat 8 v] else
  if v < 65536 then 2 :: natBE 2 v else 3 :: natBE 3 v

def rightEncode (v : Nat) : List Byte := if v < 256 then [BitVec.ofNat 8 v, 1] else natBE 2 v ++ [2]

def encodeString (t : List Byte) : List Byte := leftEncode (8 * t.length) ++ t

def bytepad (x : List Byte) (w : Nat) : List Byte :=
  let z := leftEncode w ++ x
  z ++ List.replicate ((w - z.length % w) % w) 0

/-- KMAC256(K, X, 8n, S) of SP 800-185. -/
def kmac256 (k x : List Byte) (n : Nat) (t : List Byte) : List Byte :=
  sponge 0x04 (bytepad (encodeString (ascii "KMAC") ++ encodeString t) 136 ++
    (bytepad (encodeString k) 136 ++ x ++ rightEncode (8 * n))) n

/-- CRC-32C, reflected, with the standard initial value and final inversion. -/
def crcBit (c : BitVec 32) : Nat → BitVec 32
  | 0 => c
  | n + 1 => crcBit (if c.getLsbD 0 then (c >>> 1) ^^^ 0x82F63B78 else c >>> 1) n

def crc32c (m : List Byte) : BitVec 32 :=
  ~~~ m.foldl (fun c b => crcBit (c ^^^ b.setWidth 32) 8) 0xFFFFFFFF

/-- H(row) of R433: 64 bits of SHAKE256 of the row address and the row. -/
def rowDigest (row : Nat) (d : List Byte) : Nat := leNat (shake256 (natLE 8 row ++ d) 8)

/-- The attachment hash of R553: attachment number among k. -/
def attachHash (srcX srcY : BitVec 9) (tag : BitVec 12) (seq : BitVec 16) (k : Nat) : Nat :=
  let key := srcX.toNat + 2 ^ 9 * srcY.toNat + 2 ^ 18 * tag.toNat + 2 ^ 30 * seq.toNat
  (crc32c (natLE 8 key)).toNat * k / 2 ^ 32

end Sys2Proof.Machine
end

