-- ==== Sys2Proof/Machine/Image.lean ====
section
/-! DEFINITION. Configuration images (R360–R362), signature trailers (R523, R524) and the settings that
chunks carry. The layouts of chunk types 0x04, 0x06 (merge part), 0x07, 0x09 and 0x0A, which the manual names
without a layout, are the model's (log 21). -/

namespace Sys2Proof.Machine

/-! ### Signature trailer -/

/-- The context strings of R522. -/
def roleContext (role : Nat) : List Byte :=
  ascii (lget "" ["Wabuaris firmware", "Wabuaris drill", "Wabuaris image", "Wabuaris unlock",
    "Wabuaris report", "Holcel session"] role)

/-- The trailer check of R524 for an object in a role, against the owner list for role 2. -/
def trailerOk (role : Nat) (owners : List (List Byte)) (obj : List Byte) : Bool :=
  let body := obj.take (obj.length - 4096)
  let t := obj.drop (obj.length - 4096)
  let v := leNat t
  let key := bits v 32735 32728
  let keyid := bslice t 4052 32
  let sig := bslice t 743 3309
  let message := body ++ bslice t 4052 44
  let base := decide (4096 ≤ obj.length) && bits v 32767 32752 == 0x1C53 && bits v 32751 32744 == 1 &&
    bits v 32743 32736 == role && bits v 32727 32704 == 0 && bits v 5943 0 == 0 &&
    (role == 2 || key == 0) && (role == 0 || bits v 32703 32672 == 0)
  let pub := if role = 2 then
      (owners[key]?).bind (fun k => if shake256 k 32 = keyid then some k else none)
    else Config.vendorKey role keyid
  base && (match pub with
    | some k => Config.mlDsaVerify (roleContext role) k message sig
    | none => false)

/-- The secver field of a trailer. -/
def trailerSecver (obj : List Byte) : Nat := bits (leNat (obj.drop (obj.length - 4096))) 32703 32672

/-! ### Image header and directory -/

/-- The header fields of R360 that the module reads. -/
structure ImgHeader where
  kind : Nat
  length : Nat
  chunks : Nat
  parcels : Nat
  minFw : Nat
  base : Nat
  name : List Byte
  ok : Bool

def imgHeader (c : List Byte) : ImgHeader :=
  let v := leNat (c.take 128)
  { kind := bits v 999 992, length := bits v 991 960, chunks := bits v 959 944, parcels := bits v 943 940,
    minFw := bits v 939 908, base := bits v 907 652, name := natLE 32 (bits v 651 396),
    ok := bits v 1023 1008 == 0x1C5A && bits v 1007 1000 == 1 && bits v 395 0 == 0 }

/-- Directory entry i with its chunk (R360). -/
def imgChunk (c : List Byte) (i : Nat) : Chunk :=
  let v := leNat (bslice c (128 + 16 * i) 16)
  { ty := BitVec.ofNat 8 (bits v 127 120), parcel := BitVec.ofNat 4 (bits v 119 116),
    target := BitVec.ofNat 12 (bits v 115 104), section_ := BitVec.ofNat 8 (bits v 103 96),
    alt := BitVec.ofNat 8 (bits v 31 24), data := bslice c (bits v 95 64) (bits v 63 32) }

def imgChunks (c : List Byte) : List Chunk := (List.range (imgHeader c).chunks).map (imgChunk c)

/-- Well-formed UTF-8, with k bytes of a character still to come, the first of them between lo and hi. -/
def utf8Ok : Nat → Nat → Nat → List Byte → Bool
  | 0, _, _, [] => true
  | _ + 1, _, _, [] => false
  | 0, _, _, b :: t =>
    let v := b.toNat
    if v < 0x80 then utf8Ok 0 0 0 t
    else if v < 0xC2 then false
    else if v < 0xE0 then utf8Ok 1 0x80 0xBF t
    else if v < 0xF0 then utf8Ok 2 (if v = 0xE0 then 0xA0 else 0x80) (if v = 0xED then 0x9F else 0xBF) t
    else if v < 0xF5 then utf8Ok 3 (if v = 0xF0 then 0x90 else 0x80) (if v = 0xF4 then 0x8F else 0xBF) t
    else false
  | k + 1, lo, hi, b :: t => decide (lo ≤ b.toNat ∧ b.toNat ≤ hi) && utf8Ok k 0x80 0xBF t

/-- UTF-8 padded with zero bytes (R360). -/
def nameOk (n : List Byte) : Bool :=
  utf8Ok 0 0 0 (n.takeWhile (· != 0)) && (n.dropWhile (· != 0)).all (· == 0)

/-- Whether a directory entry keeps to the tables of R360 and R361; chunk data begins at `first`, after the directory. -/
def dirOk (overlay : Bool) (first len : Nat) (v : Nat) : Bool :=
  let ty := bits v 127 120
  let target := bits v 115 104
  let off := bits v 95 64
  let n := bits v 63 32
  let pav := decide (target < 224)
  let plot := decide (0x100 ≤ target ∧ target < 0x100 + 56)
  let all := target == 0xFFF
  decide (off % 64 = 0 ∧ first ≤ off ∧ off + n + 4096 ≤ len) && bits v 23 0 == 0 && (ty == 0x0B || bits v 31 24 == 0) &&
  (match ty with
    | 0x01 => all && !overlay
    | 0x02 => pav && !overlay && decide (n ≤ 0x80000)
    | 0x03 | 0x04 | 0x0B | 0x0E => pav && !overlay
    | 0x05 | 0x06 | 0x07 => plot
    | 0x08 | 0x09 | 0x0D => pav
    | 0x0A | 0x0C => all
    | _ => false)

/-- An image that breaks its header, directory or chunk table fails its check (R360–R362, R368). -/
def imgOk (c : List Byte) : Bool :=
  let h := imgHeader c
  let cs := imgChunks c
  let first := 128 + 16 * h.chunks
  h.ok && nameOk h.name && decide (first + 4096 ≤ c.length) && (h.kind == 1 || h.kind == 2) && h.length == c.length && decide (c.length ≤ 67108864) &&
  decide (1 ≤ h.chunks) && (h.kind == 2 || h.base == 0) &&
  (List.range h.chunks).all (fun i => dirOk (h.kind == 2) first c.length (leNat (bslice c (128 + 16 * i) 16))) &&
  (h.kind == 2 || (List.range (h.parcels + 1)).all (fun k =>
    cs.any (fun x => x.ty == 1 && x.parcel.toNat == k &&
      decide (leNat (bslice x.data 8 4) ≤ 10 ^ 9))))

/-- The plot mask of a parcel's descriptor (R361), and its stage bytes. -/
def parcelMask (cs : List Chunk) (k : Nat) : Option Nat :=
  (cs.find? (fun x => x.ty == 1 && x.parcel.toNat == k)).map (fun x => leNat (bslice x.data 0 8))

def parcelStage (cs : List Chunk) (k : Nat) : Nat :=
  ((cs.find? (fun x => x.ty == 1 && x.parcel.toNat == k)).map (fun x => leNat (bslice x.data 8 4))).getD 0

/-- An overlay chunk replaces the base chunk of the same type, parcel, target and section (R362). -/
def Chunk.sameAs (x y : Chunk) : Bool :=
  x.ty == y.ty && x.target == y.target && x.section_ == y.section_

/-- Layer parameters: entries of 8 bytes, of which an overlay replaces those with the same layer (R362). -/
def layerEntries (d : List Byte) : List Nat :=
  (List.range (d.length / 8)).map (fun i => leNat (bslice d (8 * i) 8))

def overlayLayers (base overlay : List Byte) : List Byte :=
  let o := layerEntries overlay
  ((layerEntries base).map (fun e =>
    natLE 8 ((o.find? (fun x => bits x 63 48 == bits e 63 48)).getD e))).flatten

/-- The chunks of parcel k with an overlay's replacements applied (R362, R368). -/
def applyOverlay (base : List Chunk) (overlay : List Chunk) : List Chunk :=
  base.map (fun b => match overlay.find? (fun o => o.sameAs b) with
    | some o => if b.ty = 0x0C then { b with data := overlayLayers b.data o.data } else o
    | none => b)

/-- The chunk of a type for a target in a section: one of that section, or one of all sections. -/
def chunkFor (cs : List Chunk) (ty target sec : Nat) : Option Chunk :=
  (cs.find? (fun x => x.ty.toNat == ty && x.target.toNat == target && x.section_.toNat == sec)).or
    (cs.find? (fun x => x.ty.toNat == ty && x.target.toNat == target && x.section_ == 0xFF))

/-- The chunks that one section uses: those of all sections, and then its own, which come over them. Cell code is not a section's
(R275, R361). -/
def sectionChunks (cs : List Chunk) (sec : Nat) : List Chunk :=
  cs.filter (fun x => x.section_ == 0xFF || x.ty == 4) ++ cs.filter (fun x => x.section_.toNat == sec && x.section_ != 0xFF && x.ty != 4)

/-- The section order of a parcel (chunk 0x0A: one byte per section; log 21); one section 0 without it. -/
def sectionList (cs : List Chunk) : List Nat :=
  match cs.find? (fun x => x.ty == 0x0A) with
  | some x => x.data.map (·.toNat)
  | none => [0]

/-! ### Promenade settings of a plot -/

def words32 (d : List Byte) : List (BitVec 32) :=
  (List.range (d.length / 4)).map (fun i => BitVec.ofNat 32 (leNat (bslice d (4 * i) 4)))

def numbered {α : Type} (l : List α) : Tab α := (List.range l.length).zip l

/-- Merge settings (log 21): 8 bytes per unit, [63] on, [62] first unit of a leaf, [47:32] V, [31:0] E. -/
def mergeSets (d : List Byte) : Tab MergeSet :=
  (numbered (layerEntries d)).filterMap (fun e =>
    if bit e.2 63 then some (e.1, { v := bits e.2 47 32, e := bits e.2 31 0, leaf := bit e.2 62 }) else none)

/-- The inputs that a mode of a steering unit uses (R263). -/
def steerInputs (mode : Nat) : List Nat :=
  match mode with
  | 1 => [0, 1, 2]
  | 2 => [0, 2]
  | _ => []

/-- The outputs that a mode of a steering unit uses (R263). -/
def steerOutputs (mode : Nat) : List Nat :=
  match mode with
  | 1 => [0]
  | 2 => [0, 1]
  | _ => []

/-- A slot-table entry at a port that names an input or output of a steering unit that the unit's mode does not use (R263). -/
def steerMisused (steer : Tab (BitVec 32)) (e : Nat × BitVec 32) : Bool :=
  let mode := fun u => bits (tget 0 steer u).toNat 31 30
  let port := e.1 / 64
  let src := bits e.2.toNat 30 22
  e.2.getLsbD 31 &&
    ((decide (320 ≤ port ∧ port < 416) && !(steerInputs (mode ((port - 320) / 3))).contains ((port - 320) % 3)) ||
      (decide (320 ≤ src ∧ src < 384) && !(steerOutputs (mode ((src - 320) / 2))).contains (src % 2)))

/-- The setting that chunks 0x05–0x07 give a plot in a section (R256, R263, R361; log 21): slot tables of 64
entries per port; 32 steering settings and then the merge settings; one byte of buffers per (channel, cid), 448
rows of 64, and then 64 bytes of out-port bindings ([7] bound, [5:0] cid) and 64 of in-port bindings. -/
def promChunks (cs : List Chunk) (plot sec : Nat) : PromSet :=
  let get := fun ty => ((chunkFor cs ty (0x100 + plot) sec).map (·.data)).getD []
  let st := get 6
  let bd := get 7
  let binds := bd.drop (512 * 64)
  { slots := (numbered (words32 (get 5))).filter (fun e => e.2 != 0)
    steer := (numbered (words32 (st.take 128))).filter (fun e => e.2 != 0)
    merge := mergeSets (st.drop 128)
    division := (numbered (bd.take (512 * 64))).filterMap (fun e => if e.2 = 0 then none else some (e.1, e.2.toNat))
    outBind := (numbered (binds.take 64)).filterMap (fun e =>
      if e.2.getLsbD 7 then some (e.1, e.2.setWidth 6) else none)
    inBind := (numbered ((binds.drop 64).take 64)).filterMap (fun e =>
      if e.2.getLsbD 7 then some e.1 else none) }

/-- The setting of a plot in a section as its gate loads it: it refuses the slot table of a port that breaks R263. -/
def promSetOf (cs : List Chunk) (plot sec : Nat) : PromSet :=
  let x := promChunks cs plot sec
  let bad := (x.slots.filter (steerMisused x.steer)).map (fun e => e.1 / 64)
  { x with slots := x.slots.filter (fun e => !bad.contains (e.1 / 64)) }

end Sys2Proof.Machine
end

