-- ==== Sys2Proof/Machine/Operands.lean ====
section
/-! DEFINITION. Reading and writing the module's memories: gardens, engine stages and HBM, through their
correctors (R234–R237, R322, R424), with the taint record (R430) and keep copies (R450); allotment offsets
(R318) and fabric addresses (R211). Row numbers are address / 64 in the space's own numbering. -/

namespace Sys2Proof.Machine

/-! ### Correctors -/

/-- Queues a slot-7 write-back (R235): four places per bank, poison-setting ones first. -/
def queueWriteBack (l : List WriteBack) (w : WriteBack) : List WriteBack × Bool :=
  if l.any (fun x => x.row == w.row && x.poison == w.poison) then (l, false)
  else if l.length < 4 then (l ++ [w], false)
  else if w.poison then
    match (l.reverse.find? (fun x => !x.poison)) with
    | some v => ((l.reverse.erase v).reverse ++ [w], true)
    | none => (l, true)
  else (l, true)

/-- The bank of a physical garden row, as 4·cell + bank (R217, R218). -/
def bankOf (row : Nat) : Nat := 4 * (row / 4096) + row / 8 % 4

/-- The presented cell number that a physical garden row answers for, for the ecc object (R238). -/
def EccCount.zero : EccCount := { corrected := 0, uncorrectable := 0, dropped := 0 }

/-- A garden read's effects beyond its data (R235, R236): write-back queued, counts, record. The read of a merge queues none for
an uncorrectable row, which the merge itself stores poisoned (R237). -/
def State.gardenSeen (s : State) (p row : Nat) (k : Seen) (merge : Bool) : State :=
  let cell := row / 4096
  let bank := bankOf row
  match k with
  | .clean | .poisoned => s
  | .corrected | .mended =>
    s.modPav p (fun x =>
      let w := queueWriteBack (tget [] x.writeBacks bank) { row := row, poison := false }
      { x with
        writeBacks := tset x.writeBacks bank w.1
        ecc := tmod .zero x.ecc cell (fun e => { e with
          corrected := satInc e.corrected, dropped := if w.2 then satInc e.dropped else e.dropped }) })
  | .uncorrectable =>
    let s := s.modPav p (fun x =>
      let w := if merge then (tget [] x.writeBacks bank, false)
        else queueWriteBack (tget [] x.writeBacks bank) { row := row, poison := true }
      { x with
        writeBacks := tset x.writeBacks bank w.1
        ecc := tmod .zero x.ecc cell (fun e => { e with
          uncorrectable := satInc e.uncorrectable,
          dropped := if w.2 then satInc e.dropped else e.dropped }) })
    let l := physLocal (p % 4) cell
    s.record { s.pavRec p 0x04 1 6 0 with
      x := BitVec.ofNat 9 (64 * (plotOf p % 8) + l.1), y := BitVec.ofNat 9 (68 * (plotOf p / 8) + l.2),
      subunit := BitVec.ofNat 16 bank, address := BitVec.ofNat 64 row }

/-- A row beyond a code's guarantee, whose delivery takes a free value (R234, R319). -/
def Store.beyond (m : Store) (c : Code) (row : Nat) : Bool := decide (c.detect < (m.rowMeta row).errs)

/-- Reads a garden row by pavilion-local row number, alone or for a merge: its bytes and whether it is delivered poisoned. -/
def State.gardenTake (s : State) (p row : Nat) (merge : Bool) : (List Byte × Bool) × State :=
  let k := s.gardenRow p (64 * row)
  let g := (s.pav p).garden
  let r := g.correct sramCode k s.free
  let s := if g.beyond sramCode k then s.fresh.2 else s
  ((r.2, r.1.bad), s.gardenSeen p k r.1 merge)

/-- Reads a garden row. -/
def State.gardenRead (s : State) (p row : Nat) : (List Byte × Bool) × State := s.gardenTake p row false

/-- Nothing of higher priority waits for slot 7 of a bank: neither a write-back nor the zeroing of a scrub (R238). -/
def State.slotFree (s : State) (p b : Nat) : Bool :=
  (tget [] (s.pav p).writeBacks b).isEmpty && (!(s.plot (plotOf p)).scrubbing || (s.plot (plotOf p)).zeroed)

/-- Reads an engine-stage row (R424): a corrected row is written back, an uncorrectable one gets its stored
poison bit and a record. -/
def State.stageRead (s : State) (p row : Nat) : (List Byte × Bool) × State :=
  let g := (s.pav p).stage
  let r := g.correct sramCode row s.free
  let s := if g.beyond sramCode row then s.fresh.2 else s
  let s := match r.1 with
    | .clean | .poisoned => s
    | .corrected | .mended => s.modPav p (fun x => { x with stage := x.stage.putFixed row r })
    | .uncorrectable =>
      (s.modPav p (fun x => { x with stage := x.stage.poisonRow row })).record
        { s.pavRec p 0x04 1 5 1 with address := BitVec.ofNat 64 row }
  ((r.2, r.1.bad), s)

/-- Reads a row of a local space. -/
def State.rowRead (s : State) (p : Nat) (stage : Bool) (row : Nat) : (List Byte × Bool) × State :=
  if stage then s.stageRead p row else s.gardenRead p row

/-- Reads n rows in order. -/
def State.rowsRead (s : State) (p : Nat) (stage : Bool) (row : Nat) : Nat → List (List Byte × Bool) × State
  | 0 => ([], s)
  | n + 1 =>
    let r := s.rowRead p stage row
    let t := r.2.rowsRead p stage (row + 1) n
    (r.1 :: t.1, t.2)

/-- The bytes of a local space as stored, without a read's effects. -/
def State.peek (s : State) (p : Nat) (stage : Bool) (a : Nat) : Byte :=
  if stage then memByte (s.pav p).stage.bytes a
  else memByte (s.pav p).garden.bytes (64 * s.gardenRow p (64 * (a / 64)) + a % 64)

/-- A row's stored poison, whichever local space. -/
def State.rowPoison (s : State) (p : Nat) (stage : Bool) (row : Nat) : Bool :=
  if stage then ((s.pav p).stage.rowMeta row).poison
  else ((s.pav p).garden.rowMeta (s.gardenRow p (64 * row))).poison

/-! ### Taint record and keep copies -/

/-- An entry of the taint record covers a row of a space. -/
def Taint.covers (t : Taint) (space row : Nat) : Bool :=
  t.space.toNat == space && decide (t.base ≤ row ∧ row < t.limit)

/-- Adds a written range to a taint record (R430): it merges into an open entry of its space and interval that
it overlaps or adjoins. -/
def addTaint (l : List Taint) (t : Taint) : List Taint :=
  match l.find? (fun e => e.state == 0 && e.space == t.space && e.interval == t.interval &&
      decide (t.base ≤ e.limit ∧ e.base ≤ t.limit)) with
  | some e =>
    { e with
      base := min e.base t.base, limit := max e.limit t.limit
      rew := e.rew || t.rew || decide (t.base < e.limit ∧ e.base < t.limit)
      dw := e.dw + t.dw } :: l.erase e
  | none => t :: l

/-- The two open entries of one space with the smallest gap between them, merged (R432). -/
def mergeClosest (l : List Taint) : List Taint :=
  let pairs := l.flatMap (fun a => (l.filter (fun b =>
    b.state == 0 && a.state == 0 && a.space == b.space && decide (a.limit ≤ b.base) && a != b)).map
      (fun b => (a, b)))
  match pairs.foldl (fun m c => match m with
      | none => some c
      | some d => if c.2.base - c.1.limit < d.2.base - d.1.limit then some c else m) none with
  | some (a, b) =>
    { a with limit := b.limit, rew := true, dw := a.dw + b.dw } :: ((l.erase a).erase b)
  | none => l

/-- Two open entries of one space can still merge (R432). -/
def canMerge (l : List Taint) : Bool :=
  l.any (fun a => a.state == 0 && l.any (fun b => b.state == 0 && b.space == a.space && decide (a.limit ≤ b.base) && a != b))

/-- The taint record with room kept for 64 entries when it can be (R432). -/
def taintRoom (l : List Taint) : List Taint := if 4096 < l.length + 64 then mergeClosest l else l

/-- Keep-store rows of a pavilion: 252 KiB for each working spare cell that is not a dummy (R450). -/
def State.keepRoom (s : State) (p : Nat) : Nat := (s.spareCells p).length * 4032 - (s.pav p).seq.keep.length

/-- A LAUNCH job of the pavilion's allotment runs, so that its writes are recorded (R430, R450). -/
def State.jobRuns (s : State) (p : Nat) : Bool :=
  match s.allotOfPav p with
  | some a => (s.allot a).jobs.any (·.launch)
  | none => false

/-- A keep copy of a row, as its corrector delivers it, before its first write since the older verified mark (R450), while a
job runs. -/
def State.keepRow (s : State) (p : Nat) (stage : Bool) (iv row : Nat) : State :=
  let q := (s.pav p).seq
  let space := if stage then 1 else 0
  if s.jobRuns p && !(q.taint.any (fun t => t.covers space row)) &&
      !(q.keep.any (fun k => k.space.toNat == space && k.row == row)) then
    let m := if stage then (s.pav p).stage else (s.pav p).garden
    let d := copiedMeta sramCode m (if stage then row else s.gardenRow p (64 * row)) s.free
    let e := freeKeep (s.spareCells p) q.keep
    s.fresh.2.modPav p (fun x => { x with
      garden := x.garden.putRow e d.1 d.2
      seq := { x.seq with
        keep := x.seq.keep ++ [Keep.mk (BitVec.ofNat 3 space) row e (if iv = 0 then x.seq.interval else iv)] } })
  else s

/-- Who writes: the unit code of R201 (5 core, 6 move engine, 7 port), the stream, and the interval of R430, 0 for the
pavilion's current one. -/
structure Writer where
  unit : Nat
  stream : Nat
  iv : Nat
  deriving DecidableEq, Repr

def Writer.port : Writer := { unit := 7, stream := 0, iv := 0 }
def Writer.mover : Writer := { unit := 6, stream := 0, iv := 0 }

/-- Writes one whole row of a local space, with its poison. -/
def State.rowPut (s : State) (p : Nat) (stage : Bool) (iv row : Nat) (d : List Byte) (poison : Bool) : State :=
  let s := s.keepRow p stage iv row
  if stage then s.modPav p (fun x => { x with stage := x.stage.putRow row d poison })
  else
    let k := s.gardenRow p (64 * row)
    s.modPav p (fun x => { x with garden := x.garden.putRow k d poison })

/-- The copy map forgets a pair when either range is written (R438). -/
def dropCopies (l : List CopyPair) (stage : Bool) (base limit : Nat) : List CopyPair :=
  l.filter (fun c => !(c.stage == stage && decide (c.base < limit ∧ base < c.limit)))

/-- Wakes cores whose watched row is written (R213). -/
def State.touchWatch (s : State) (p row : Nat) : State :=
  let n := row / 4096
  match tget? (s.pav p).cores n with
  | some c =>
    if c.watch.toNat = row % 4096 then
      s.modPav p (fun x => { x with cores := tset x.cores n { c with watchHit := true } })
    else s
  | none => s

/-- Writes rows of a local space on behalf of an engine: keep copies, the rows, the taint entry with the writer
digest dw, and the copy map (R430, R433, R438, R450). -/
def State.writeRows (s : State) (p : Nat) (stage : Bool) (w : Writer)
    (rows : List (Nat × List Byte × Bool)) : State :=
  match rows with
  | [] => s
  | r0 :: _ =>
    let base := rows.foldl (fun m r => min m r.1) r0.1
    let limit := rows.foldl (fun m r => max m (r.1 + 1)) 0
    let s := s.each rows (fun s r => s.rowPut p stage w.iv r.1 r.2.1 r.2.2)
    let s := if stage then s else s.each rows (fun s r => s.touchWatch p r.1)
    let on := s.jobRuns p
    s.modSeq p (fun q => { q with
      copyMap := dropCopies q.copyMap stage base limit
      taint := if on then
          taintRoom (addTaint q.taint
            { space := if stage then 1 else 0, state := 0, rew := decide (limit - base ≠ rows.length)
              interval := if w.iv = 0 then q.interval else w.iv
              base := base, limit := limit, unit := BitVec.ofNat 3 w.unit, stream := BitVec.ofNat 2 w.stream,
              dw := BitVec.ofNat 51 (sumBy rows (fun r => rowDigest r.1 r.2.1)), d1 := 0 })
        else q.taint })

/-- A partial write as a whole row: the new bytes merged into the corrected old row (R237). -/
def State.mergeRow (s : State) (p : Nat) (stage : Bool) (row o : Nat) (d : List Byte) (poison : Bool) :
    (Nat × List Byte × Bool) × State :=
  if o = 0 ∧ d.length = 64 then ((row, d, poison), s)
  else
    let r := if stage then s.stageRead p row else s.gardenTake p row true
    ((row, r.1.1.take o ++ d ++ r.1.1.drop (o + d.length), poison || r.1.2), r.2)

/-- Writes bytes that may span rows into a local space, row by row. -/
def State.localPut (s : State) (p : Nat) (stage : Bool) (w : Writer) (a : Nat) (d : List Byte)
    (poison : Bool) : Nat → State
  | 0 => s
  | n + 1 =>
    if d.isEmpty then s else
      let k := 64 - a % 64
      let m := s.mergeRow p stage (a / 64) (a % 64) (d.take k) poison
      (m.2.writeRows p stage w [m.1]).localPut p stage w (a + k) (d.drop k) poison n

/-- Reads bytes that may span rows from a local space. -/
def State.localGet (s : State) (p : Nat) (stage : Bool) (a len : Nat) : (List Byte × Bool) × State :=
  let r := s.rowsRead p stage (a / 64) ((a + len + 63) / 64 - a / 64)
  ((((r.1.map (·.1)).flatten.drop (a % 64)).take len, r.1.any (·.2)), r.2)

/-! ### HBM -/

/-- The line's stack has failed (R329). -/
def State.lineDead (s : State) (line : Nat) : Bool := (s.stack (hbmHash (64 * line)).1).state == 2

/-- The row of a pseudo-channel that a line lies in: 16 lines (log 23). -/
def hbmRow (line : Nat) : Nat :=
  let h := hbmHash (64 * line)
  1000000 * h.2.1 + h.2.2 / 4

def popcount (n v : Nat) : Nat := (below n (fun i => bit v i)).length
def popcount64 (v : BitVec 64) : Nat := popcount 64 v.toNat

/-- R329: a stack fails: its state, a record, and event 0x0003 to each allotment, since every allotment's data is hashed over every
stack, or to none when there is none (log 118). -/
def State.failStack (s : State) (k : Nat) : State :=
  if (s.stack k).state = 2 then s
  else
    let s := s.modStack k (fun x => { x with state := 2, pcMove := none })
    let s := s.record { ErrRec.base with
      ty := 0x06, severity := 4, cls := 11, subunit := BitVec.ofNat 16 k,
      detail := BitVec.ofNat 32 (2 ^ 31 + 256 * k) }
    let l := below 16 (fun a => !(s.allot a).ranges.isEmpty)
    s.each (if l.isEmpty then [0x1F] else l) (fun s a => s.event 0x0003 k (0x2600 + k) 1 a)

/-- Pseudo-channels of a stack that have failed, replacements among them. -/
def Stack.failedPcs (x : Stack) : Nat := popcount 64 x.pcFailed.toNat + popcount 4 x.spareFailed.toNat

/-- A pseudo-channel, or with 64 + r replacement r, fails (R328); the fifth fails the stack (R329). -/
def State.failPc (s : State) (k pc : Nat) : State :=
  let x := s.stack k
  if (if pc < 64 then x.pcFailed.getLsbD pc else x.spareFailed.getLsbD (pc - 64)) then s
  else
    let s := s.modStack k (fun x => if pc < 64 then { x with pcFailed := x.pcFailed ||| BitVec.ofNat 64 (2 ^ pc) }
      else { x with spareFailed := x.spareFailed ||| BitVec.ofNat 4 (2 ^ (pc - 64)) })
    let s := s.record { ErrRec.base with
      ty := 0x06, severity := 1, cls := 11, subunit := BitVec.ofNat 16 k,
      detail := BitVec.ofNat 32 (256 * k + pc) }
    if 5 ≤ (s.stack k).failedPcs then s.failStack k else s

/-- Where granule u of a pseudo-channel stands: the pseudo-channel itself, or 64 + r in replacement r (R328). -/
def Stack.placeOf (x : Stack) (pc u : Nat) : Nat :=
  match x.pcMove with
  | some (c, v) => if c = pc ∧ u < v then 63 + x.pcReplacements else ((tget? x.pcMap pc).map (64 + ·)).getD pc
  | none => ((tget? x.pcMap pc).map (64 + ·)).getD pc

/-- Rows that the reserve beside the replacements holds (R317; log 117). -/
def reserveRows : Nat := 702613

/-- A row with 16 corrected lines in one pass is repaired (R328): by the stack's soft repair, and, when none is left, into the
reserve. -/
def State.repairRow (s : State) (k row : Nat) : State :=
  let x := s.stack k
  if tget 0 x.rowCorr row < 16 then s
  else
    let soft := decide (x.softUsed < Config.softRepairs k)
    if !soft && decide (reserveRows ≤ x.remap.length) then s
    else s.modStack k (fun x => { x with
      rowsRepaired := satInc x.rowsRepaired, rowCorr := tdel x.rowCorr row
      softUsed := if soft then x.softUsed + 1 else x.softUsed
      remap := if soft then x.remap else x.remap.erase row ++ [row] })

/-- A line read's effects (R322, R328): counts, write-back of the line as corrected or poisoned, record, and the repair of a row or
the failure of a pseudo-channel that has reached its bound in this pass. -/
def State.lineSeen (s : State) (line : Nat) (r : Seen × List Byte) : State :=
  let h := hbmHash (64 * line)
  match r.1 with
  | .clean | .poisoned => s
  | .corrected | .mended =>
    (({ s with hbm := s.hbm.putFixed line r } : State).modStack h.1 (fun x =>
      { x with corrected := satInc x.corrected, rowCorr := tmod 0 x.rowCorr (hbmRow line) (· + 1) })).repairRow h.1 (hbmRow line)
  | .uncorrectable =>
    let pc := (s.stack h.1).placeOf h.2.1 h.2.2
    let s := ({ s with hbm := s.hbm.poisonRow line } : State).modStack h.1 (fun x =>
      { x with uncorrectable := satInc x.uncorrectable, pcUnc := tmod 0 x.pcUnc pc (· + 1) })
    let s := s.record { ErrRec.base with
      ty := 0x05, severity := 1, cls := 11, subunit := BitVec.ofNat 16 h.1,
      detail := BitVec.ofNat 32 (256 * h.1 + h.2.1), address := BitVec.ofNat 64 line }
    if 64 < tget 0 (s.stack h.1).pcUnc pc then s.failPc h.1 pc else s

/-- Reads an HBM line: its bytes and whether it is delivered poisoned (R319, R322, R329). -/
def State.lineRead (s : State) (line : Nat) : (List Byte × Bool) × State :=
  if s.lineDead line then ((memRead s.hbm.bytes (64 * line) 64, true), s)
  else
    let r := s.hbm.correct hbmCode line s.free
    let s := if s.hbm.beyond hbmCode line then s.fresh.2 else s
    ((r.2, r.1.bad), s.lineSeen line r)

/-- Writes a whole line (R322); a write to a failed stack is discarded (R329). -/
def State.linePut (s : State) (line : Nat) (d : List Byte) (poison : Bool) : State :=
  if s.lineDead line then s else { s with hbm := s.hbm.putRow line d poison }

def State.linesRead (s : State) (line : Nat) : Nat → List (List Byte × Bool) × State
  | 0 => ([], s)
  | n + 1 =>
    let r := s.lineRead line
    let t := r.2.linesRead (line + 1) n
    (r.1 :: t.1, t.2)

/-- Reads bytes by module address. -/
def State.hbmGet (s : State) (a len : Nat) : (List Byte × Bool) × State :=
  let r := s.linesRead (a / 64) ((a + len + 63) / 64 - a / 64)
  ((((r.1.map (·.1)).flatten.drop (a % 64)).take len, r.1.any (·.2)), r.2)

/-- Writes bytes by module address, merging partial lines (R322). -/
def State.hbmPut (s : State) (a : Nat) (d : List Byte) (poison : Bool) : Nat → State
  | 0 => s
  | n + 1 =>
    if d.isEmpty then s else
      let o := a % 64
      let k := 64 - o
      let c := d.take k
      let s :=
        if c.length = 64 then s.linePut (a / 64) c poison
        else
          let r := s.lineRead (a / 64)
          r.2.linePut (a / 64) (r.1.1.take o ++ c ++ r.1.1.drop (o + c.length)) (poison || r.1.2)
      s.hbmPut (a + k) (d.drop k) poison n

/-- The module address of an offset in an allotment's usable space (R318, R368). -/
def State.hbmAddr (s : State) (a off : Nat) : Option Nat :=
  if off < (s.allot a).usable then rangeAddr (s.allot a).ranges off else none

/-- The module address ranges of [o, o + len) in an allotment's HBM. -/
def rangeRuns : List (BitVec 32 × BitVec 32) → Nat → Nat → List (Nat × Nat)
  | [], _, _ => []
  | (b, l) :: t, o, len =>
    let n := 10 ^ 9 * l.toNat
    if n ≤ o then rangeRuns t (o - n) len
    else
      let k := min len (n - o)
      (10 ^ 9 * b.toNat + o, k) :: (if k < len then rangeRuns t 0 (len - k) else [])

/-- Bytes [off, off + len) lie in the allotment's usable length (R318, R368). -/
def State.hbmFits (s : State) (a off len : Nat) : Bool := decide (off + len ≤ (s.allot a).usable)

/-- A line lies in one of the allotment's ranges, and those are zeroed (R321, R327). -/
def State.lineOwned (s : State) (a line : Nat) : Bool :=
  (s.allot a).zeroed && (s.allot a).ranges.any (fun r =>
    decide (10 ^ 9 * r.1.toNat ≤ 64 * line ∧ 64 * line + 64 ≤ 10 ^ 9 * (r.1.toNat + r.2.toNat)))

/-- Reads rows of an allotment's HBM by offset; ranges are whole gigabytes, so each row is one line. -/
def State.allotRead (s : State) (a off : Nat) : Nat → List (List Byte × Bool) × State
  | 0 => ([], s)
  | n + 1 =>
    match s.hbmAddr a off with
    | some m =>
      let r := s.lineRead (m / 64)
      let t := r.2.allotRead a (off + 64) n
      (r.1 :: t.1, t.2)
    | none => ([], s)

/-- The interval that an allotment's HBM writes belong to: the latest of its pavilions (R430). -/
def State.allotInterval (s : State) (a : Nat) : Nat :=
  (s.holdersOf a).foldl (fun m p => max m (s.pav p).seq.interval) 1

/-- Line i of the HBM keep area, the last 64 MiB of the allotment's stage area (R450). -/
def Allot.keepLineAt (x : Allot) (i : Nat) : Nat :=
  ((rangeAddr x.ranges (x.usable + 10 ^ 9 - 67108864 + 64 * i)).getD 0) / 64

/-- The keep area of the allotment holds a copy of a line, as its corrector delivers it, before its first write since the older
verified mark (R450). -/
def State.keepLine (s : State) (a line : Nat) : State :=
  let x := s.allot a
  if x.jobs.any (·.launch) && !(x.taint.any (fun t => t.covers 2 line)) &&
      !(x.keep.any (fun k => k.row == line)) && decide (x.keep.length < 1048576) then
    let d := copiedMeta hbmCode s.hbm line s.free
    let e := ((List.range (x.keep.length + 1)).map x.keepLineAt).find? (fun r => !x.keep.any (fun k => k.at_ == r)) |>.getD 0
    let s := s.fresh.2
    ({ s with hbm := s.hbm.putRow e d.1 d.2 } : State).modAllot a (fun y => { y with
      keep := y.keep ++ [Keep.mk 2 line e (s.allotInterval a)] })
  else s

/-- Writes rows of an allotment's HBM by offset, with keep copies, a taint entry, and the copy map's pairs of
its pavilions forgotten (R430, R438, R450). -/
def State.allotWrite (s : State) (a off unit : Nat) (rows : List (List Byte × Bool)) : State :=
  let lines := ((List.range rows.length).zip rows).filterMap (fun e =>
    (s.hbmAddr a (off + 64 * e.1)).map (fun m => (m / 64, e.2)))
  let s := s.each lines (fun s l => (s.keepLine a l.1).linePut l.1 l.2.1 l.2.2)
  match lines with
  | [] => s
  | l0 :: _ =>
    let base := lines.foldl (fun m l => min m l.1) l0.1
    let limit := lines.foldl (fun m l => max m (l.1 + 1)) 0
    let s := s.each (s.holdersOf a) (fun s p => s.modSeq p (fun q => { q with
      copyMap := q.copyMap.filter (fun c =>
        !(decide (c.hbm / 64 < limit ∧ base < c.hbm / 64 + (c.limit - c.base)))) }))
    s.modAllot a (fun x => { x with
      taint := if x.jobs.any (·.launch) then
          taintRoom (addTaint x.taint
            { space := 2, state := 0, rew := decide (limit - base ≠ lines.length),
              interval := s.allotInterval a,
              base := base, limit := limit, unit := BitVec.ofNat 3 unit, stream := 0,
              dw := BitVec.ofNat 51 (sumBy lines (fun l => rowDigest l.1 l.2.1)), d1 := 0 })
        else x.taint })

/-! ### Cells and fabric addresses -/

/-- A presented position of a presented pavilion of an allotment: its pavilion and cell number (R199). -/
def State.cellIn (s : State) (a x y : Nat) : Option (Nat × Nat) :=
  if x < 512 ∧ y < 476 then
    let plot := plotOfCell x y
    let q := quadOf (x % 64) (y % 68)
    match cellNumber q (x % 64) (y % 68) with
    | some n =>
      let p := 4 * plot + q
      if s.ownerOf plot == some a && (s.pav p).role != .reserve &&
          ((s.pav p).role == .presented || (s.allot a).pavMap.any (fun m => m.failed.val == p)) then
        some (p, n)
      else none
    | none => none
  else none

/-- The pavilion and physical cell at global coordinates. -/
def cellAt (c : CellXY) : Nat × Nat :=
  let lx := c.x.val % 64
  let ly := c.y.val % 68
  let q := quadOf lx ly
  (4 * plotOfCell c.x.val c.y.val + q, physOf q lx ly)

/-- The presented position at global coordinates: pavilion and cell number, if it has one. -/
def cellNo (c : CellXY) : Option (Nat × Nat) :=
  let lx := c.x.val % 64
  let ly := c.y.val % 68
  let q := quadOf lx ly
  (cellNumber q lx ly).map (fun n => (4 * plotOfCell c.x.val c.y.val + q, n))

/-- Where a fabric address leads for an allotment (R211). -/
inductive Target where
  /-- Pavilion and pavilion-local address. -/
  | cell (p : Nat) (a : Nat)
  /-- Allotment offset. -/
  | hbm (off : Nat)
  /-- Pavilion and engine-stage address; only a DMA engine's own end of a transfer names one. -/
  | stage (p : Nat) (a : Nat)
  | outside
  deriving DecidableEq, Repr

/-- The pavilion that a cell address names, before mapping. -/
def State.namedPav (s : State) (a addr : Nat) : Option Nat :=
  if bits addr 63 45 = 0 then (s.cellIn a (bits addr 44 36) (bits addr 35 27)).map (·.1) else none

def State.resolve (s : State) (a : Nat) (addr : Nat) : Target :=
  if bits addr 63 48 ≠ 0 then .outside
  else match bits addr 47 45 with
    | 0 =>
      if bits addr 26 18 ≠ 0 then .outside else
      match s.cellIn a (bits addr 44 36) (bits addr 35 27) with
      | some (p, n) => .cell (s.mappedTo a p) (0x40000 * n + bits addr 17 0)
      | none => .outside
    | 1 =>
      if bits addr 44 44 ≠ 0 then .outside else .hbm (bits addr 43 0)
    | _ => .outside

/-- An end of a transfer as its own endpoint names it: a fabric address, or a DMA engine's place in its pavilion under codes
that R211 reserves (log 26). -/
def State.resolveEnd (s : State) (a addr : Nat) : Target :=
  match bits addr 63 45 with
  | 2 => .stage (bits addr 30 23) (bits addr 22 0)
  | 3 => .cell (bits addr 35 28) (bits addr 27 0)
  | _ => s.resolve a addr

/-- The length of a range that stays in one cell of the garden, or in the usable HBM (R211, R218). -/
def State.targetFits (s : State) (a : Nat) (t : Target) (len : Nat) : Bool :=
  match t with
  | .cell _ o => decide (o % 0x40000 + len ≤ 0x40000)
  | .hbm o => s.hbmFits a o len
  | .stage _ _ | .outside => false

/-- A range touches the monitor region of a cell (R210, R218). -/
def inMonitor (addr len : Nat) : Bool := decide (0x3F000 < addr % 0x40000 + len)

/-- A garden range touches some monitor region. -/
def touchesMonitor (addr len : Nat) : Bool :=
  decide (len ≠ 0) && (decide (0x3F000 < addr % 0x40000 + len))

/-- The rows of 64 bytes that a range at a target touches, with the range's offset in the first (R309). Each line of HBM is
translated by itself (R318). -/
def State.targetRows (s : State) (a : Nat) (t : Target) (len : Nat) : (List (List Byte × Bool) × Nat) × State :=
  let n := fun (o : Nat) => (o + len + 63) / 64 - o / 64
  let rows := fun (o : Nat) (r : List (List Byte × Bool) × State) => ((r.1, o % 64), r.2)
  match t with
  | .cell p o => rows o (s.rowsRead p false (o / 64) (n o))
  | .stage p o => rows o (s.rowsRead p true (o / 64) (n o))
  | .hbm o => rows o (s.allotRead a (64 * (o / 64)) (n o))
  | .outside => (([], 0), s)

/-- Reads bytes at a target. -/
def State.targetGet (s : State) (a : Nat) (t : Target) (len : Nat) : (List Byte × Bool) × State :=
  let r := s.targetRows a t len
  ((((r.1.1.map (·.1)).flatten.drop r.1.2).take len, r.1.1.any (·.2)), r.2)

/-- Writes bytes at an offset of an allotment's HBM, line by line, each translated by itself, with keep copies (R318, R450). -/
def State.allotPut (s : State) (a off : Nat) (d : List Byte) (poison : Bool) : Nat → State
  | 0 => s
  | n + 1 =>
    if d.isEmpty then s else
      let k := 64 - off % 64
      let s := match s.hbmAddr a off with
        | some m => (s.keepLine a (m / 64)).hbmPut m (d.take k) poison 1
        | none => s
      s.allotPut a (off + k) (d.drop k) poison n

/-- Writes bytes at a target. -/
def State.targetPut (s : State) (a : Nat) (t : Target) (w : Writer) (d : List Byte) (poison : Bool) : State :=
  match t with
  | .cell p o => s.localPut p false w o d poison (d.length + 1)
  | .stage p o => s.localPut p true w o d poison (d.length + 1)
  | .hbm o =>
    let s := s.allotPut a o d poison (d.length + 1)
    if d.isEmpty then s else s.modAllot a (fun x => { x with
      taint := if x.jobs.any (·.launch) then
          (rangeRuns x.ranges o d.length).foldl (fun l r => taintRoom (addTaint l
            { space := 2, state := 0, rew := true, interval := s.allotInterval a, base := r.1 / 64
              limit := (r.1 + r.2 + 63) / 64, unit := BitVec.ofNat 3 w.unit, stream := 0, dw := 0, d1 := 0 })) x.taint
        else x.taint })
  | .outside => s

end Sys2Proof.Machine
end

