-- ==== Sys2Proof/Machine/Jobs.lean ====
section
/-! DEFINITION. Completions, waits, jobs, sections, freezes and the consumption of poison (R204, R266, R274,
R277, R373, R384, R388–R396, R437–R439, R449): the shared operations over jobs and queues. -/

namespace Sys2Proof.Machine

/-! ### Submission entries (R387) -/

def Cmd.op (c : Cmd) : Nat := bits c.entry.toNat 511 504
def Cmd.ord (c : Cmd) : Bool := bit c.entry.toNat 503
def Cmd.ien (c : Cmd) : Bool := bit c.entry.toNat 502
def Cmd.cid (c : Cmd) : Nat := bits c.entry.toNat 495 480
def Cmd.a0 (c : Cmd) : Nat := bits c.entry.toNat 447 384
def Cmd.a1 (c : Cmd) : Nat := bits c.entry.toNat 383 320
def Cmd.a2 (c : Cmd) : Nat := bits c.entry.toNat 319 256
def Cmd.a3 (c : Cmd) : Nat := bits c.entry.toNat 255 192

/-- The reserved fields that every entry has (R387). -/
def Cmd.reservedOk (c : Cmd) : Bool :=
  bits c.entry.toNat 501 496 == 0 && bits c.entry.toNat 479 448 == 0 && bits c.entry.toNat 191 0 == 0

/-- Completion status codes (R394). -/
def stOK : Nat := 0
def stPoisoned : Nat := 1
def stWindowClosed : Nat := 2
def stTimeout : Nat := 3
def stOutOfRange : Nat := 4
def stDenied : Nat := 5
def stRefusedState : Nat := 6

/-! ### Queues -/

/-- Ring entries of a queue, submission and completion (R380). -/
def Queue.sqLen (q : Queue) : Nat := 2 ^ bits q.size.toNat 4 0
def Queue.cqLen (q : Queue) : Nat := 2 ^ bits q.size.toNat 12 8

/-- Completion slots that are free (R390). -/
def Queue.cqFree (q : Queue) : Nat := (q.cqHead + q.cqLen - q.cqTail - 1) % q.cqLen

/-- The oldest fetched entry of a queue that has not started. -/
def Queue.next (q : Queue) : Option Cmd := q.cmds.find? (fun c => c.state == .fetched)

def Queue.cmd (q : Queue) (id : Nat) : Option Cmd := q.cmds.find? (fun c => c.id == id)

def Queue.setCmd (q : Queue) (c : Cmd) : Queue :=
  { q with cmds := q.cmds.map (fun d => if d.id = c.id then c else d) }

/-- A started command holds its queue (R390, R408): a WAIT_EVENT, a FENCE, a held LAUNCH or a held WOPEN. -/
def Cmd.holds (c : Cmd) : Bool :=
  match c.state with
  | .held => true
  | .waiting => c.op == 0x06 || c.op == 0x07
  | _ => false

/-- The oldest entry that may start now: nothing holds the queue, and an ord entry starts only after every
earlier one of the queue has completed (R390). -/
def Queue.startable (q : Queue) : Option Cmd :=
  if q.cmds.any Cmd.holds then none
  else match q.next with
    | some c => if c.ord && q.cmds.any (fun d => decide (d.id < c.id)) then none else some c
    | none => none

/-- The 16-byte completion entry of R388. -/
def completionEntry (result cid sqhead record status : Nat) (rec_ recovered phase : Bool) : List Byte :=
  natLE 16 (result % 2 ^ 64 * 2 ^ 64 + 2 ^ 48 * cid + sqhead % 65536 * 2 ^ 32 + record % 65536 * 2 ^ 16 +
    status * 256 + (if rec_ then 4 else 0) + (if recovered then 2 else 0) + (if phase then 1 else 0))

/-- The host port and function of an allotment. -/
def State.portOf (s : State) (a : Nat) : PortIx := Fin.ofNat 4 (s.allot a).hostPort.toNat
def State.pfOf (s : State) (a : Nat) : FnIx := Fin.ofNat 8 (s.allot a).pf.toNat

/-- Raises MSI-X vector v of a function; one that its table entry masks pends (R375, R380; log 39). -/
def State.msix (s : State) (h : PortIx) (f : FnIx) (v : Nat) : State :=
  if (memByte (s.fn h.val f.val).msix (16 * v + 12)).getLsbD 0 then
    s.modFn h.val f.val (fun x => { x with pba := x.pba ||| BitVec.ofNat 2048 (2 ^ v) })
  else s.emit (.interrupt h f v)

/-- The cause that keeps a queue from opening, 0 for none (R380, R386). -/
def Queue.openErr (q : Queue) (msix : Nat) : Nat :=
  let ok := fun (n : Nat) => decide (4 ≤ n ∧ n ≤ 16)
  if q.sqBase.toNat % 4096 ≠ 0 ∨ q.cqBase.toNat % 4096 ≠ 0 then 1
  else if !ok (bits q.size.toNat 4 0) || !ok (bits q.size.toNat 12 8) then 2
  else if msix ≤ bits q.vec.toNat 10 0 then 3
  else 0

/-- Opening a queue pair (R386). -/
def Queue.tryOpen (q : Queue) (msix : Nat) : Queue :=
  let e := q.openErr msix
  if e ≠ 0 then { q with state := .failed, err := e }
  else { q with
    state := .open_, err := 0, sqHead := 0, sqTail := 0, cqHead := 0, cqTail := 0, phase := true, cmds := [], kept := []
    deficit := 0, uncoalesced := 0 }

/-- A closing queue whose commands have all completed is closed, or failed when a fault closed it; a pending enable is
carried out (R354, R384, R389). -/
def Queue.settle (q : Queue) (msix : Nat) : Queue :=
  if q.cmds.isEmpty then
    match q.state with
    | .closing => if q.err = 0 then { q with state := .closed } else { q with state := .failed }
    | .closingPending => ({ q with state := .closed }).tryOpen msix
    | _ => q
  else q

/-- Raises a queue's interrupt (R380, R390). -/
def State.queueInterrupt (s : State) (a q : Nat) : State :=
  let v := ((s.allot a).queue q).vec
  let s := s.modQueue a q (fun x => { x with uncoalesced := 0 })
  if v.getLsbD 16 then s.msix (s.portOf a) (s.pfOf a) (bits v.toNat 10 0) else s

/-- The operation that a progress index of 0x7060–0x70FF names for a command: allotment, queue, and fetch id with
command identifier (R399). -/
def Cmd.operation (c : Cmd) (a q : Nat) : Nat × Nat × Nat := (a, q, 65536 * c.id + c.cid)

/-- The progress index of a command that completes reads done or failed, with event 0x0009 (R343, R399). -/
def State.endOperation (s : State) (a : Nat) (op : Nat × Nat × Nat) (status : Nat) : State :=
  match s.lodge.progress.find? (fun e => e.2.owner == some op) with
  | some e =>
    (s.modLodge (fun l => { l with progress := tset l.progress e.1 { e.2 with
      state := if status = 0 then 2 else 3, position := if status = 0 ∧ e.2.total ≠ 0 then e.2.total else e.2.position
      ended := s.ns } })).event 0x0009 (0x7000 + e.1) (0x7000 + e.1) 1 a
  | none => s

/-- Completes a command: its entry is written to the completion ring, and the interrupt follows under R390. -/
def State.complete (s : State) (a q id status result : Nat) : State :=
  let x := (s.allot a).queue q
  match x.cmd id with
  | none => s
  | some c =>
    let msix := (s.allot a).msix.toNat
    if c.written then s.modQueue a q (fun y => ({ y with cmds := y.cmds.filter (fun d => d.id != id) } : Queue).settle msix) else
    let poisoned := if c.poisoned && status == 0 then stPoisoned else status
    let e := completionEntry result c.cid c.sqhead c.record poisoned (c.record != 0) c.recovered x.phase
    let tail := (x.cqTail + 1) % x.cqLen
    let first := if x.uncoalesced = 0 then s.ns else x.firstAt
    let s := s.emit (.hostWrite (s.portOf a) (x.cqBase + BitVec.ofNat 64 (16 * x.cqTail)) e [false] false)
    let s := s.modQueue a q (fun y => { y with
      cmds := y.cmds.filter (fun d => d.id != id)
      kept := if c.op = 0x02 ∧ (s.allot a).jobs.any (·.launch) then y.kept ++ [{ c with written := true }] else y.kept
      cqTail := tail
      phase := if tail = 0 then !y.phase else y.phase
      uncoalesced := y.uncoalesced + 1
      firstAt := first })
    let s := s.endOperation a (c.operation a q) poisoned
    let s := if poisoned = 0 then s else
      s.modHost (s.portOf a).val (fun h => { h with errors := tmod 0 h.errors 12 satInc })
    let n := bits x.coal.toNat 15 0
    let s := if c.ien || decide ((if n = 0 then 1 else n) ≤ x.uncoalesced + 1) then s.queueInterrupt a q else s
    s.modQueue a q (fun y => y.settle msix)

/-- Marks a command as started, waiting or held. -/
def State.cmdTo (s : State) (a q id : Nat) (st : CmdState) : State :=
  s.modQueue a q (fun x => { x with cmds := x.cmds.map (fun c =>
    if c.id = id then { c with state := st, started := s.ns } else c) })

/-- The context that a pavilion or a spill slot holds, as the chunks name its target (R457, R462). -/
def State.contextTarget (s : State) (p : Nat) : Nat :=
  let own := match s.allotOfPav (p % 224) with
    | some a => (s.allot a).targetOf (p % 224)
    | none => p % 224
  if p < 224 then (if (s.pav p).context = p then own else (s.pav p).context) else if p < 448 then p - 224 else own

/-- The pavilion whose Promenade ports pavilion p uses: its own, those of the doubled context that it runs, or, of a replaced
pavilion whose alternate binds none of its stand-in's, that pavilion's, over tunnels (R458, R460, R462). -/
def State.portsOf (s : State) (p : Nat) : Nat :=
  let c := (s.pav p).context
  if c ≠ p then c
  else match s.allotOfPav p with
    | some a =>
      let t := (s.allot a).targetOf p
      if (s.pav p).outBind.isEmpty && (s.pav p).inBind.isEmpty then t else p
    | none => p

/-! ### Jobs -/

def Allot.launchJob (x : Allot) : Option Job := x.jobs.find? (·.launch)

def Allot.job (x : Allot) (id : Nat) : Option Job := x.jobs.find? (fun j => j.id.toNat == id)

def State.modJob (s : State) (a id : Nat) (f : Job → Job) : State :=
  s.modAllot a (fun x => { x with jobs := x.jobs.map (fun j => if j.id.toNat = id then f j else j) })

def State.modLaunch (s : State) (a : Nat) (f : Job → Job) : State :=
  s.modAllot a (fun x => { x with jobs := x.jobs.map (fun j => if j.launch then f j else j) })

/-- Stops the issue of every pavilion that runs the allotment's section. -/
def State.stopIssue (s : State) (a : Nat) : State :=
  s.each (s.holdersOf a) (fun s p => s.modSeq p (fun q => { q with stopped := q.running || q.stopped, due := false }))

/-- Stops the allotment's LAUNCH job (R204, R439): nothing further issues, and the job will complete with the
status. A record number other than 0 goes to its completion. -/
def State.stopJob (s : State) (a status record : Nat) : State :=
  let s := s.stopIssue a
  let s := s.modLaunch a (fun j => if j.ended.isSome then j else
    { j with ended := some (BitVec.ofNat 8 status), record := record })
  s.modAllot a (fun x => { x with sectionActive := false, frozen := none, frozenNext := [] })

/-- Stops the job of a pavilion's allotment. -/
def State.stopJobOf (s : State) (p status record : Nat) : State :=
  match s.allotOfPav p with
  | some a => s.stopJob a status record
  | none => s.modSeq p (fun q => { q with stopped := true })

/-- Whether the allotment's running LAUNCH was launched under fail-fast policy (R373). -/
def State.failFast (s : State) (a : Nat) : Bool := ((s.allot a).launchJob.map (·.failFast)).getD false

/-- The restore point of a cause (R449): true for the older of the last two verified marks. -/
def olderPoint : FreezeCause → Bool
  | .digestFault | .poison | .drill => true
  | _ => false

def needsShuffle : FreezeCause → Bool
  | .unitDeath | .plotCut | .drill => true
  | _ => false

/-- Freezes the allotment's section for replay (R277, R449, R453): a cause that arises while a freeze stands
waits for it. -/
def State.freeze (s : State) (a : Nat) (c : FreezeCause) : State :=
  match (s.allot a).frozen with
  | some _ => s.modAllot a (fun x => { x with frozenNext := x.frozenNext ++ [c] })
  | none =>
    let s := s.each (s.holdersOf a) (fun s p => s.modSeq p (fun q => { q with
      frozen := true, taken := [], d1Pending := false, d2Pending := false }))
    s.modAllot a (fun x => { x with
      frozen := some (Frozen.mk c s.ns (olderPoint c) (needsShuffle c || decide (3 ≤ x.replayRow)) false) })

/-- Notes the unit whose fault freezes a section: replays in a row count only faults of one unit (R453). -/
def State.noteUnit (s : State) (a u : Nat) : State :=
  s.modAllot a (fun x => if x.faultUnit = u then x else { x with faultUnit := u, replayRow := 0 })

/-- A detected error that transparent policy recovers by replay; under fail-fast the job stops with POISONED
and a record of type 0x0E, detail 0xFF (R373). -/
def State.recover (s : State) (a : Nat) (c : FreezeCause) : State :=
  match (s.allot a).launchJob with
  | none => s
  | some _ =>
    if s.failFast a then
      let r : ErrRec := { ErrRec.base with
        ty := 0x0E, severity := 2, cls := 0, allotment := BitVec.ofNat 5 a, detail := 0xFF }
      (s.record r).stopJob a stPoisoned (s.recordNumber r)
    else s.freeze a c

def State.recoverPav (s : State) (p : Nat) (c : FreezeCause) : State :=
  match s.allotOfPav p with
  | some a => s.recover a c
  | none => s

/-- A program fault (R204): issue stops, the record carries the code and the slot, 0x2200+i:11 takes both, and
the job stops with DENIED for code 0x04 and OUT_OF_RANGE for every other. -/
def State.programFault (s : State) (p code slot opcode : Nat) : State :=
  let r : ErrRec := { s.pavRec p 0x0A 2 4 code with opcode := BitVec.ofNat 8 opcode, paddr := BitVec.ofNat 18 slot }
  let n := s.recordNumber r
  let s := s.record r
  let s := s.modPav p (fun x => { x with
    lastFault := BitVec.ofNat 32 (2 ^ 24 * code + slot)
    seq := { x.seq with stopped := true } })
  s.stopJobOf p (if code = 4 then stDenied else stOutOfRange) n

/-- A check fault of a unit (R90, R155, R423): issue stops, a record is written and the section replays. -/
def State.checkFault (s : State) (p : Nat) (r : ErrRec) : State :=
  let s := s.record r
  let s := s.modPav p (fun x => { x with checkFaults := satInc x.checkFaults, seq := { x.seq with stopped := true } })
  let s := match s.allotOfPav p with
    | some a => s.noteUnit a (16 * p + r.cls.toNat)
    | none => s
  s.recoverPav p .checkFault

/-- A skew fault (R266): the section stops, the record carries the tags, the plot counts it, and the job
completes OUT_OF_RANGE. It is never replayed. -/
def State.skewFault (s : State) (plot subunit expected offered : Nat) : State :=
  let a := s.ownerOf plot
  let r : ErrRec := { s.plotRec plot 0x0B 2 9 (65536 * expected + offered % 65536) with
    subunit := BitVec.ofNat 16 subunit }
  let n := s.recordNumber r
  let s := s.record r
  let s := s.modPlot plot (fun x => { x with skewFaults := satInc x.skewFaults })
  match a with
  | some a => s.stopJob a stOutOfRange n
  | none => s

/-- A circuit fault (R253): counted in the plot's object, recorded, and recovered as a check fault is. -/
def State.circuitFault (s : State) (plot detail subunit : Nat) : State :=
  let s := s.record { s.plotRec plot 0x0C 1 9 detail with subunit := BitVec.ofNat 16 subunit }
  let s := s.modPlot plot (fun x => { x with circuitFaults := satInc x.circuitFaults })
  match s.ownerOf plot with
  | some a => (s.noteUnit a (16384 + plot)).recover a .circuitFault
  | none => s

/-! ### Poison consumption (R437–R439) -/

/-- The pair of the copy map that holds a local row, and the module line it was copied from. -/
def Seq.copyOf (q : Seq) (stage : Bool) (row : Nat) : Option Nat :=
  (q.copyMap.find? (fun c => c.stage == stage && decide (c.base ≤ row ∧ row < c.limit))).map
    (fun c => c.hbm / 64 + (row - c.base))

/-- A local row poisoned at its use is first fetched again (R438): from the copy map's HBM range, or, for an
engine-stage row that the base image names, from the parcel's chunk of type 0x03 in the stage area. -/
def State.refetch (s : State) (p : Nat) (stage : Bool) (row : Nat) : Option State :=
  match (s.pav p).seq.copyOf stage row with
  | some line =>
    let r := s.lineRead line
    if r.1.2 then none
    else
      let copies := (s.pav p).seq.copyMap
      some ((r.2.rowPut p stage 0 row r.1.1 false).modSeq p (fun q => { q with copyMap := copies }))
  | none =>
    if stage then
      match s.allotOfPav p with
      | some a =>
        match chunkFor (s.allot a).chunks 3 (s.contextTarget p) (lget 0 (s.allot a).sections (s.allot a).sectionPos) with
        | some c => if 64 * row + 64 ≤ c.data.length ∧ !((s.pav p).seq.taint.any (fun t => t.covers 1 row)) then
            some (s.rowPut p true 0 row (bslice c.data (64 * row) 64) false) else none
        | none => none
      | none => none
    else none

/-- The first two steps of R438 for a poisoned local row: re-fetch, then replay when the row lies in the taint record of a running
LAUNCH and no replay was tried for it. The answer tells whether re-fetch replaced the data; none when neither step is left. -/
def State.poisonTry (s : State) (a p : Nat) (stage : Bool) (row : Nat) : Option (Bool × State) :=
  match s.refetch p stage row with
  | some t => some (true, t)
  | none =>
    let space := if stage then 1 else 0
    let key := (4 * p + space, row)
    if (s.pav p).seq.taint.any (fun t => t.covers space row) && !((s.allot a).tried.contains key) &&
        (s.allot a).launchJob.isSome then
      some (false, (s.modAllot a (fun x => { x with tried := key :: x.tried })).freeze a .poison)
    else none

/-- Poisoned rows are consumed by work of the allotment's LAUNCH job in pavilion p: re-fetch, then replay when
the row lies in the taint record and no replay was tried for it, then stop (R438, R439); the record of a row with a copy in HBM
names its module line (R440). The answer tells whether re-fetch replaced the data. -/
def State.consume (s : State) (p : Nat) (stage : Bool) (row carrier : Nat) : Bool × State :=
  match s.allotOfPav p with
  | none => (false, s)
  | some a =>
    if s.failFast a then (false, s.recover a .poison)
    else match s.poisonTry a p stage row with
    | some (true, t) => (true, t.modLaunch a (fun j => { j with recovered := true }))
    | some (false, t) => (false, t)
    | none =>
      let r : ErrRec := { s.pavRec p 0x0E 2 (if stage then 5 else 6) carrier with
        address := BitVec.ofNat 64 (((s.pav p).seq.copyOf stage row).getD row) }
      (false, (s.record r).stopJob a stPoisoned (s.recordNumber r))

/-- Consumes the first poisoned row of a range, if any row of it is poisoned. -/
def State.consumeRows (s : State) (p : Nat) (stage : Bool) (row n : Nat) : State :=
  match (List.range n).find? (fun i => s.rowPoison p stage (row + i)) with
  | some i => (s.consume p stage (row + i) (if stage then 1 else 0)).2
  | none => s

/-! ### Waits (R391, R395) -/

/-- The window of a handle, when it is open or closing under that generation (R405). -/
def State.windowOf (s : State) (h : Nat) : Option (Nat × Nat × Window) :=
  let port := bits h 23 20
  let entry := bits h 11 0
  match tget? (s.srv port).windows entry with
  | some w => if w.gen.toNat = bits h 31 24 ∧ w.allotment.val = bits h 19 16 then some (port, entry, w) else none
  | none => none

/-- What a waiting command may complete with now: status and result. -/
def State.waitResult (s : State) (a q : Nat) (c : Cmd) : Option (Nat × Nat) :=
  let x := s.allot a
  match c.op with
  | 0x06 =>
    let scope := if c.a0 % 2 = 1 then x.queues.map (·.2) else [x.queue q]
    if scope.any (fun y => y.cmds.any (fun d => decide (d.id < c.id))) then none else some (stOK, 0)
  | 0x05 =>
    match x.job c.a0 with
    | none => some (stOutOfRange, 0)
    | some j =>
      match j.tags.find? (fun t => t.1.toNat == bits c.a1 31 0) with
      | some t => some (stOK, t.2)
      | none => if j.ended.isSome then some (stOutOfRange, 0) else none
  | 0x07 =>
    match bits c.a0 3 0 with
    | 1 => match s.windowOf (bits c.a1 31 0) with
      | some w => if c.a2 ≤ w.2.2.completed then some (stOK, 0) else none
      | none => some (stWindowClosed, 0)
    | 2 => if c.a2 ≤ (tget 0 x.counters (bits c.a1 5 0)).toNat then some (stOK, 0) else none
    | 3 => match x.job c.a1 with
      | some j => if c.a2 ≤ j.marks then some (stOK, 0)
          else if j.ended.isSome then some (stOutOfRange, 0) else none
      | none => some (stOutOfRange, 0)
    | 4 => if (x.job c.a1).isNone then some (stOK, 0) else none
    | 5 =>
      let i := bits c.a1 15 0
      let st := ((tget? s.lodge.progress (i - 0x7000)).map (·.state)).getD 0
      if i < 0x7000 ∨ 0x7100 ≤ i then some (stOutOfRange, 0)
      else if st == 2 || st == 3 then some (stOK, 0) else none
    | _ => some (stOutOfRange, 0)
  | 0x09 =>
    let st := ((tget? s.lodge.images (bits c.a2 5 0)).map (·.status)).getD 0
    if st == 2 then some (stOK, 0) else if st == 3 then some (stOutOfRange, 0) else none
  | 0x0B => if (x.job c.a0).isNone then some (stOK, 0) else none
  | _ => none

/-- The waiting commands of an allotment, in fetch order, as (queue, command). -/
def Allot.waiters (x : Allot) : List (Nat × Cmd) :=
  x.queues.flatMap (fun e => (e.2.cmds.filter (fun c => c.state == .waiting)).map (fun c => (e.1, c)))

/-- A completed MARK moves the horizon of its job; entries fetched before the older of the last two MARKs are no
longer held (R396). -/
def State.markHorizon (s : State) (a : Nat) (c : Cmd) : State :=
  let s := s.modJob a c.a0 (fun j => { j with horizon := (c.id :: j.horizon).take 2 })
  match ((s.allot a).job c.a0).map (·.horizon) with
  | some [_, old] => s.modAllot a (fun x => { x with
      queues := x.queues.map (fun e => (e.1, { e.2 with kept := e.2.kept.filter (fun d => decide (old < d.id)) })) })
  | _ => s

/-- Completes one waiting command whose condition holds. -/
def State.wakeOne (s : State) (a : Nat) : Option State :=
  match (s.allot a).waiters.find? (fun e => (s.waitResult a e.1 e.2).isSome) with
  | some (q, c) =>
    match s.waitResult a q c with
    | some (st, r) =>
      let s := if c.op = 0x05 ∧ st = stOK then
          s.markHorizon a c
        else s
      some (s.complete a q c.id st r)
    | none => none
  | none => none

/-- Completes every waiting command of an allotment whose condition holds. -/
def State.wakeN (s : State) (a : Nat) : Nat → State
  | 0 => s
  | n + 1 => match s.wakeOne a with
    | some t => t.wakeN a n
    | none => s

def State.wake (s : State) (a : Nat) : State := s.wakeN a ((s.allot a).waiters.length)

/-- Completes a command and then the waits that this satisfies. -/
def State.completeWake (s : State) (a q id status result : Nat) : State :=
  (s.complete a q id status result).wake a

def State.wakeAll (s : State) : State := s.each (List.range 16) State.wake

/-! ### Sections (R274, R275, R392) -/

/-- The section that the allotment runs, as its number in the image. -/
def Allot.section_ (x : Allot) : Nat := lget 0 x.sections x.sectionPos

/-- The section whose settings are in force: the one that runs, or the first (R274). -/
def Allot.nowSection (x : Allot) : Nat := if x.sectionActive then x.section_ else lget 0 x.sections 0

/-- A pavilion's row of engine stage from chunk bytes at a stage address. -/
def State.stageLoad (s : State) (p a : Nat) (d : List Byte) : State :=
  s.modPav p (fun x => { x with stage := (List.range ((d.length + 63) / 64)).foldl (fun m i =>
    m.putRow (a / 64 + i) (bslice d (64 * i) 64) false) x.stage })

/-- The same while a job runs, as a write that a replay can undo (R275, R450). -/
def State.stageWrite (s : State) (p a : Nat) (d : List Byte) : State :=
  s.writeRows p true .port ((List.range ((d.length + 63) / 64)).map (fun i => (a / 64 + i, bslice d (64 * i) 64, false)))

/-- The core of a presented cell: one without state of its own is in its monitor, held in reset until its hand
holds the monitor's card (R519). -/
def Pav.core (x : Pav) (n : Nat) : Core :=
  (tget? x.cores n).getD { Core.held0 with held := !((tget x.handAll x.hands n).getLsbD 63) }

def Pav.setCore (x : Pav) (n : Nat) (c : Core) : Pav := { x with cores := tset x.cores n c }

def State.setCore (s : State) (p n : Nat) (c : Core) : State := s.modPav p (fun x => x.setCore n c)

/-- A core that restarts in its monitor (R223, R511, R519). -/
def Core.restart (c : Core) : Core := { Core.held0 with held := c.held, entry := c.entry }

/-- The pool block of a cell, and its member number there (R220). -/
def poolBlock (n : Nat) : Nat := 8 * (n / 128) + n % 32 / 4
def poolMember (n : Nat) : Nat := 4 * (n / 32 % 4) + n % 4

/-- A member of a pooled block other than its lead (R221). -/
def Pav.pooledMember (x : Pav) (n : Nat) : Bool := x.pool.getLsbD (poolBlock n) && poolMember n != 0

/-- A core's monitor is idle: it runs task code, or waits (R223; log 110). -/
def Core.monitorIdle (c : Core) : Bool := !c.monitor || c.suspended

/-- A cell whose core and move engine are clock-gated: a member of a pooled block, as soon as its monitor is idle (R221,
R223). -/
def Pav.gated (x : Pav) (n : Nat) : Bool := x.pooledMember n && (x.core n).monitorIdle

/-- Sets the mode of the pool blocks; members of a block that leaves pooled mode start in their monitors (R223). -/
def Pav.setPool (x : Pav) (v : BitVec 64) : Pav :=
  { x with
    pool := v
    cores := x.cores.map (fun (e : Nat × Core) =>
      (e.1, if x.pooledMember e.1 && !v.getLsbD (poolBlock e.1) then e.2.restart else e.2)) }

/-- Garden settings of a chunk of type 0x08 (R223, R240; log 21). -/
def Pav.gardenMode (x : Pav) (d : List Byte) : Pav :=
  { x.setPool (BitVec.ofNat 64 (leNat (bslice d 0 8))) with fullEmpty := (bslice d 8 1).head?.getD 0 != 0 }

/-- The tag plan of a chunk of type 0x09 (R244; log 21). -/
def tagPlanOf (d : List Byte) : Tab (BitVec 4) := (numbered d).map (fun e => (e.1, e.2.setWidth 4))

/-- Garden settings that change from section to section: a pavilion that has any takes those of the section that begins. Tags stay, but
where full/empty mode begins (R223, R246; DESIGN CHOICE, log 121). -/
def State.sectionGarden (s : State) (p target : Nat) (cs : List Chunk) (sec : Nat) : State :=
  let varies := fun (ty : Nat) => cs.any (fun c => c.ty.toNat == ty && c.target.toNat == target && c.section_ != 0xFF)
  let s := match chunkFor cs 8 target sec with
    | some c => if varies 8 then s.modPav p (fun x =>
        let y := x.gardenMode c.data
        if y.fullEmpty && !x.fullEmpty then { y with tags := [], tagWaiters := [] } else y) else s
    | none => s
  match chunkFor cs 9 target sec with
  | some c => if varies 9 then s.modPav p (fun x => { x with tagPlan := tagPlanOf c.data }) else s
  | none => s

/-- The settings of a plot for a section: those of its idle set when they are the section's (R275, R277). -/
def State.sectionSet (s : State) (a plot sec : Nat) : PromSet :=
  match (s.plot plot).promIdle with
  | some (n, x) => if n = sec then x else promSetOf (s.allot a).chunks plot sec
  | none => promSetOf (s.allot a).chunks plot sec

/-- The next section's settings are fetched into the idle sets while a section runs (R275). -/
def State.fetchNext (s : State) (a : Nat) : State :=
  let x := s.allot a
  match x.sections[x.sectionPos + 1]? with
  | some n => s.each (s.plotsOf a) (fun s plot => s.modPlot plot (fun y => { y with promIdle := some (n, promSetOf x.chunks plot n) }))
  | none => s

/-- Puts a section's Promenade settings into effect in one plot and resets the tags of its units (R274). -/
def State.setPlotSection (s : State) (plot : Nat) (set : PromSet) : State :=
  let s := s.modPlot plot (fun x => { x with
    prom := set, promIdle := none, circuits := [], steers := [], merges := [] })
  s.each [0, 1, 2, 3] (fun s q => s.modPav (4 * plot + q) (fun v => { v with
    outBind := (set.outBind.filter (fun e => e.1 / 16 == q)).map (fun e => (e.1 % 16, e.2))
    inBind := (set.inBind.filter (fun e => e / 16 == q)).map (· % 16)
    inBuf := [] }))

/-- Beats left in a plot's circuits, skew buffers and port buffers. -/
def State.leftBeats (s : State) (plot : Nat) : Nat :=
  let x := s.plot plot
  sumBy x.circuits (fun e => e.2.length) +
  sumBy x.steers (fun e => sumBy e.2.bufs List.length) +
  sumBy x.merges (fun e => sumBy e.2.bufs List.length) +
  sumBy (pavsOf plot) (fun p => sumBy (s.pav p).inBuf (fun e => e.2.length))

/-- F-cycles in a time of ns nanoseconds (R8). -/
def fcyclesIn (ns : Nat) : Nat := ns * 7 / 5

/-- The F-cycles of a stall from one time to another; stalls that follow each other add up (R271). -/
def stallCycles (from_ to_ : Nat) : Nat := fcyclesIn to_ - fcyclesIn from_

def Plot.countStall (x : Plot) (join n : Nat) : Plot :=
  if n = 0 then x else { x with skewStalls := tmod 0 x.skewStalls join (fun w => satAdd w n) }

/-- Stalls that still run are counted up to now (R271). -/
def Plot.settleStalls (x : Plot) (ns : Nat) : Plot :=
  let due := x.steers.filterMap (fun e => e.2.stall.map (fun t => (e.1, stallCycles t ns))) ++
    x.merges.filterMap (fun e => e.2.stall.map (fun t => (32 + e.1, stallCycles t ns)))
  let y := due.foldl (fun y e => y.countStall e.1 e.2) x
  { y with
    steers := y.steers.map (fun (e : Nat × Steer) => (e.1, { e.2 with stall := e.2.stall.map (fun _ => ns) }))
    merges := y.merges.map (fun (e : Nat × Merge) => (e.1, { e.2 with stall := e.2.stall.map (fun _ => ns) })) }

/-- Discards the beats left in the allotment's plots, counting them as stranded or not (R274, R277). -/
def State.discardBeats (s : State) (a : Nat) (count : Bool) : State :=
  s.each (s.plotsOf a) (fun s plot =>
    let n := s.leftBeats plot
    let s := s.modPlot plot (fun x => { x.settleStalls s.ns with
      stranded := if count then satAdd x.stranded n else x.stranded
      circuits := [], steers := [], merges := [] })
    s.each (pavsOf plot) (fun s p => s.modPav p (fun v => { v with inBuf := [] })))

/-- The contexts that run a section, as the chunks name their targets, with the pavilion or spill slot that holds each. -/
def State.runners (s : State) (a : Nat) : List (Nat × Nat) :=
  (s.pavsOfAllot a).flatMap (fun p =>
    (if s.works a p then [((s.allot a).targetOf p, if (s.pav p).context = p then p else 448 + p)] else []) ++
    (if (s.pav p).doubled.isSome then [(p, s.mappedTo a p)] else []))

/-- Loads a section's settings and, when the section brings its own programs or engine-stage contents, those
(R275), and makes its runs due. -/
def State.enterSection (s : State) (a pos : Nat) : State :=
  let s := s.modAllot a (fun x => { x with sectionPos := pos, sectionActive := true })
  let x := s.allot a
  let sec := x.section_
  let s := (s.each (s.plotsOf a) (fun s plot => s.setPlotSection plot (s.sectionSet a plot sec))).fetchNext a
  s.each (s.runners a) (fun s e =>
    let p := e.2
    let own := fun ty => x.chunks.find? (fun c =>
      c.ty.toNat == ty && c.target.toNat == e.1 && c.section_.toNat == sec)
    let s := match own 2 with
      | some c => s.stageWrite p 0x780000 c.data
      | none => s
    let s := match own 3 with
      | some c => s.stageWrite p 0 c.data
      | none => s
    (s.sectionGarden p e.1 x.chunks sec).modSeq p (fun q => { q with due := true, stopped := false }))

/-- The launch record of R392. -/
def launchRecord (job arg len : Nat) : List Byte := natLE 8 job ++ natLE 8 arg ++ natLE 4 len ++ List.replicate 44 0

/-- Starts a LAUNCH (R392): the launch record in every pavilion, and then the section list. -/
def State.beginLaunch (s : State) (a q : Nat) (c : Cmd) : State :=
  let s := s.cmdTo a q c.id .running
  let s := s.each (s.holdersOf a) (fun s p =>
    s.stageLoad p 0x77FFC0 (launchRecord c.a0 c.a1 (bits c.a2 31 0)))
  let s := s.each (s.holdersOf a) (fun s p => s.modPav p (fun v => { v with seq := { v.seq with
    verified := [], taken := [], interval := 1, taint := [], keep := [], copyMap := [], startTags := v.tags } }))
  let s := s.modAllot a (fun x => { x with
    jobs := x.jobs ++ [Job.mk (BitVec.ofNat 64 c.a0) true q c.id (x.failFast == 1) 0 [] [] [] false none 0
      false]
    sections := sectionList x.chunks, taint := [], keep := [], replayRow := 0, tried := [] })
  s.enterSection a 0

/-- The oldest held LAUNCH of an allotment. -/
def Allot.heldLaunch (x : Allot) : Option (Nat × Cmd) :=
  let held := x.queues.flatMap (fun e => (e.2.cmds.filter (fun c => c.state == .held && c.op == 1)).map
    (fun c => (e.1, c)))
  held.foldl (fun m e => match m with
    | none => some e
    | some b => if e.2.id < b.2.id then some e else some b) none

/-- A LAUNCH may begin: the allotment has a configuration and none of its presented pavilions is closed (R367, R511). -/
def State.launchable (s : State) (a : Nat) : Bool :=
  (s.allot a).parcel.isSome && s.lodge.moduleState == 3 &&
  (s.pavsOfAllot a).all (fun p => (s.pav p).role != .presented ||
    ((s.pav p).enable != .closed && (s.pav p).enable != .closing && (s.pav p).enable != .closingPending))

/-- Starts the oldest held LAUNCH when no LAUNCH runs and no redeal is due (R371, R392). One whose id a job now has, or that
may not begin any more, completes, and the next held one follows. -/
def State.startHeldN (s : State) (a : Nat) : Nat → State
  | 0 => s
  | n + 1 =>
    let x := s.allot a
    if x.launchJob.isSome || x.redealDue || x.dealing then s
    else match x.heldLaunch with
      | some (q, c) =>
        if (x.job c.a0).isSome then (s.completeWake a q c.id stOutOfRange 0).startHeldN a n
        else if s.launchable a then s.beginLaunch a q c
        else (s.completeWake a q c.id stRefusedState 0).startHeldN a n
      | none => s

/-- Starts the held LAUNCH whose turn it is. -/
def State.startHeld (s : State) (a : Nat) : State :=
  s.startHeldN a (sumBy (s.allot a).queues (fun e => (e.2.cmds.filter (fun c => c.state == .held && c.op == 1)).length))

end Sys2Proof.Machine
end

