-- ==== Sys2Proof/Machine/Tags.lean ====
section
/-! DEFINITION. What transfers share: the DMA engine's places, the release of scoreboard entries, and the full/empty tags of the
gardens (R203, R239–R246). -/

namespace Sys2Proof.Machine

/-- A place of the DMA engine, if it holds a transfer. -/
def Seq.place (q : Seq) (k : Nat) : Option Dma := lget none q.dma k

def Seq.setPlace (q : Seq) (k : Nat) (d : Option Dma) : Seq := { q with dma := q.dma.set k d }

/-- Releases scoreboard entries (R203). -/
def Seq.release (q : Seq) (ids : List Nat) : Seq := { q with sb := q.sb.filter (fun e => !ids.contains e.id) }

def State.release (s : State) (p : Nat) (ids : List Nat) : State := s.modSeq p (fun q => q.release ids)

/-- States of *Full/empty tag* (R239). -/
def tagEmpty : BitVec 2 := 0
def tagFilling : BitVec 2 := 1
def tagFull : BitVec 2 := 2
def tagBroken : BitVec 2 := 3

/-- The tag numbers that a pavilion-local range touches; slot 63 of each cell has none (R239, R242). -/
def tagRange (a len : Nat) : List Nat :=
  ((List.range ((a + len + 4095) / 4096 - a / 4096)).map (· + a / 4096)).filter (fun t => t % 64 != 63)

/-- A tag as it reads; one whose parity fails is broken (R246). -/
def Pav.tag (x : Pav) (t : Nat) : Tag :=
  let g := tget Tag.empty x.tags t
  if g.badParity then { g with state := tagBroken } else g

def Pav.setTag (x : Pav) (t : Nat) (g : Tag) : Pav := { x with tags := tset x.tags t g }

def Pav.allTags (x : Pav) (ts : List Nat) (st : BitVec 2) : Bool := ts.all (fun t => (x.tag t).state == st)

def Pav.anyBroken (x : Pav) (ts : List Nat) : Option Nat := ts.find? (fun t => (x.tag t).state == tagBroken)

/-- A writer takes empty slots (R243). -/
def Pav.fillStart (x : Pav) (ts : List Nat) : Pav :=
  ts.foldl (fun x t => x.setTag t { state := tagFilling, readers := 0, badParity := false }) x

/-- A writer has finished: the slots become full, with readers from the tag plan (R243, R244). -/
def Pav.fillEnd (x : Pav) (ts : List Nat) : Pav :=
  ts.foldl (fun x t => x.setTag t { state := tagFull, readers := tget 1 x.tagPlan t, badParity := false }) x

/-- A reader has read the last byte it needs: readers falls by 1, and the slot empties at 0; a persistent slot
stays full (R244). -/
def Pav.readEnd (x : Pav) (ts : List Nat) : Pav :=
  ts.foldl (fun x t =>
    let g := x.tag t
    if g.state = tagFull ∧ g.readers ≠ 0 then
      x.setTag t (if g.readers = 1 then Tag.empty else { g with readers := g.readers - 1 })
    else x) x

/-- What the tags say to an access: it may go on, it waits on a tag as a reader or as a writer, or it meets a broken one. -/
inductive TagAnswer where
  | go
  | wait (t : Nat) (w : TagWaiter)
  | broken (t : Nat)
  deriving DecidableEq, Repr

/-- R243, R244: readers wait for full slots, writers for empty slots or ones that they have set to filling. -/
def Pav.passTags (x : Pav) (reads writes filled : List Nat) : TagAnswer :=
  match x.anyBroken (reads ++ writes) with
  | some t => .broken t
  | none => match reads.find? (fun t => (x.tag t).state != tagFull) with
    | some t => .wait t .feed
    | none => match writes.find? (fun t => !filled.contains t && (x.tag t).state != tagEmpty) with
      | some t => .wait t .drain
      | none => .go

/-- A garden in full/empty mode whose writer range is not aligned breaks R242. -/
def tagAligned (a len : Nat) : Bool := decide (a % 4096 = 0 ∧ len % 4096 = 0)

/-- The record of a broken tag (R246). -/
def State.brokenTag (s : State) (p t : Nat) : State :=
  (s.modPav p (fun x => x.setTag t { (x.tag t) with state := tagBroken, badParity := false })).record
    (s.pavRec p 0x13 1 6 t)

/-- Every tag of a pavilion empty with readers 0 (R246, R248). -/
def Pav.clearTags (x : Pav) : Pav := { x with tags := [], tagWaiters := [] }

def Pav.dropWaiter (x : Pav) (w : TagWaiter) : Pav :=
  { x with tagWaiters := x.tagWaiters.filter (fun e => e.2.1 != w) }

/-- An access starts to wait on a tag. -/
def Pav.addWaiter (x : Pav) (t : Nat) (w : TagWaiter) (ns : Nat) : Pav :=
  if x.tagWaiters.any (fun e => e.1 == t && e.2.1 == w) then x
  else { x.dropWaiter w with tagWaiters := (x.dropWaiter w).tagWaiters ++ [(t, w, ns)] }

end Sys2Proof.Machine
end

