-- ==== Sys2Proof/Machine/Fabric.lean ====
section
/-! DEFINITION. The packet fabric (R280–R315): endpoints, landing entries, transfers, loss and re-send. One
command per packet arrival or timer. -/

namespace Sys2Proof

open Machine

/-! ### Fields of a packet (R284–R286) -/

/-- Packets of a transfer (R287). -/
def Machine.packetsOf (len : Nat) : Nat := (len + 47) / 48

/-- The bytes a packet's CRC covers: header, payload and tail [63:32], with age and ESCAPE as zero (R284). -/
def Packet.crcBytes (k : Packet) : List Byte :=
  let header := 2 ^ 55 * k.dstX.toNat + 2 ^ 46 * k.dstY.toNat + 2 ^ 37 * k.srcX.toNat + 2 ^ 28 * k.srcY.toNat +
    2 ^ 26 * k.vc.toNat + 2 ^ 22 * k.ptype.toNat + k.tag.toNat * 16 + k.opq.toNat
  let tail := 2 ^ 16 * k.seq.toNat + 2 ^ 12 * k.reserved.toNat + (if k.retry then 2 ^ 10 else 0) +
    (if k.poison then 2 ^ 9 else 0) + (if k.last then 2 ^ 8 else 0) + k.valid.toNat
  natLE 8 header ++ natLE 48 k.payload.toNat ++ natLE 4 tail

def Packet.crcOk (k : Packet) : Bool := k.crc == crc32c k.crcBytes

def Packet.reqAddress (k : Packet) : Nat := bits k.payload.toNat 383 320
def Packet.reqLength (k : Packet) : Nat := bits k.payload.toNat 319 298
def Packet.reqEntry (k : Packet) : Nat := bits k.payload.toNat 297 286
def Packet.reqQuery (k : Packet) : Bool := bit k.payload.toNat 285

/-- The request that a packet makes. -/
def Packet.held (k : Packet) (ns : Nat) : HeldReq :=
  HeldReq.mk k.srcX k.srcY k.tag (BitVec.ofNat 64 k.reqAddress) k.reqLength (BitVec.ofNat 12 k.reqEntry) k.opq ns

/-- A DATA packet breaks the framing of its transfer (R284, R289): a sequence or a LAST that its total does not have, or valid
bytes that are not 48 without LAST, or with it those that are left, or that reach past the transfer (log 113). -/
def Packet.framingBad (k : Packet) (len : Nat) : Bool :=
  let total := packetsOf len
  let i := k.seq.toNat
  decide (total ≤ i) || (k.last && decide (i + 1 ≠ total)) ||
    k.valid.toNat != (if k.last then len - 48 * i else 48) || decide (len < 48 * i + k.valid.toNat)

/-- The receiver select, which DATA, REQ and READ carry (R285). -/
def Packet.sel (k : Packet) : Bool := k.opq.getLsbD 3 && decide (k.ptype.toNat ≤ 2)

/-- The sequences that a NACK names (R286). -/
def Packet.nackMissing (k : Packet) (i : Nat) : Bool :=
  let base := bits k.payload.toNat 383 368
  decide (base ≤ i ∧ i < base + 256) && bit k.payload.toNat (367 - (i - base))

end Sys2Proof

namespace Sys2Proof.Machine

/-! ### Packets (R284–R286) -/

/-- The virtual channel of a type (R285). -/
def vcOf (t : Nat) : BitVec 2 :=
  match t with
  | 0 | 7 => 3
  | 1 | 2 => 2
  | 3 | 4 => 1
  | _ => 0

/-- A packet as its sender injects it (R283, R284). -/
def mkPacket (t : Nat) (src dst : BitVec 9 × BitVec 9) (tag : BitVec 12) (opq : BitVec 4) (payload : Nat) : Packet :=
  let k : Packet :=
    { dstX := dst.1, dstY := dst.2, srcX := src.1, srcY := src.2, vc := vcOf t, ptype := BitVec.ofNat 4 t,
      age := 0, tag := tag, opq := opq, payload := BitVec.ofNat 384 payload, seq := 0, reserved := 0,
      escape := false, retry := false, poison := false, last := false, valid := 48, crc := 0 }
  { k with crc := crc32c k.crcBytes }

/-- REPLY payload of R286. -/
def replyPayload (entry length landed : Nat) : Nat := 2 ^ 372 * entry + 2 ^ 350 * length + 2 ^ 333 * landed

/-- REQ and READ payload of R286. -/
def reqPayload (address length entry : Nat) (query : Bool) : Nat :=
  2 ^ 320 * address + 2 ^ 298 * length + 2 ^ 286 * entry + (if query then 2 ^ 285 else 0)

/-- Reply status codes (R285). -/
def rpGranted : BitVec 4 := 0
def rpHeld : BitVec 4 := 1
def rpFull : BitVec 4 := 2
def rpDenied : BitVec 4 := 3
def rpClosed : BitVec 4 := 4
def rpDone : BitVec 4 := 5
def rpDoneTimeout : BitVec 4 := 6
def rpUnknown : BitVec 4 := 7

/-! ### Endpoints (R283) -/

/-- The receiver that an endpoint address and receiver select name; none for reserved addresses, the service
nodes and the Lodge. -/
def receiverAt (x y : BitVec 9) (sel : Bool) : Option Receiver :=
  let dx := x.toNat
  let dy := y.toNat
  if h : dy < 476 then
    let c : CellXY := { x := Fin.ofNat 512 dx, y := ⟨dy, h⟩ }
    if sel then
      let lx := dx % 64
      let ly := dy % 68
      let q := quadOf lx ly
      if (lx, ly) = portCell q then some (.dma (Fin.ofNat 224 (4 * plotOfCell dx dy + q))) else none
    else some (.cell c)
  else if dy = 481 then (if dx < 56 then some (.agent (Fin.ofNat 56 dx)) else none)
  else if 488 ≤ dy ∧ dy < 496 then
    let n := dy - 488
    if dx < 2 then some (.server (Fin.ofNat 16 (2 * n + dx)))
    else if dx = 2 ∧ n % 2 = 1 then some (.host (Fin.ofNat 4 (n / 2))) else none
  else none

/-- An endpoint address that is not reserved. -/
def endpointExists (x y : BitVec 9) (sel : Bool) : Bool :=
  (receiverAt x y sel).isSome || (y == 480 && decide (x.toNat < 56)) || (y == 511 && x == 0)

/-- A cell position that is presented (R21, R283). -/
def presentedAt (x y : BitVec 9) : Bool :=
  let lx := x.toNat % 64
  let ly := y.toNat % 68
  (cellNumber (quadOf lx ly) lx ly).isSome

/-- A tag at a port cell is the DMA engine's: its engine takes tags from 2,048 on, and every cell those below (log 111). -/
def dmaSide (x y : BitVec 9) (tag : Nat) : Bool :=
  match receiverAt x y true with
  | some (.dma _) => decide (2048 ≤ tag)
  | _ => false

/-- The sender that a tag names at an address. -/
def senderAt (x y : BitVec 9) (tag : Nat) : Option Receiver := receiverAt x y (dmaSide x y tag)

/-- The endpoint address of a receiver. -/
def addressOf : Receiver → BitVec 9 × BitVec 9
  | .cell c => (BitVec.ofNat 9 c.x.val, BitVec.ofNat 9 c.y.val)
  | .dma p =>
    let l := portCell (p.val % 4)
    (BitVec.ofNat 9 (64 * (plotOf p.val % 8) + l.1), BitVec.ofNat 9 (68 * (plotOf p.val / 8) + l.2))
  | .agent p => (BitVec.ofNat 9 p.val, 481)
  | .host h => (2, BitVec.ofNat 9 (488 + 2 * h.val + 1))
  | .server n => (BitVec.ofNat 9 (n.val % 2), BitVec.ofNat 9 (488 + n.val / 2))

/-- The plot that an endpoint address lies in. -/
def plotAt (x y : BitVec 9) : Option Nat :=
  if y.toNat < 476 then some (plotOfCell x.toNat y.toNat)
  else if (y == 480 || y == 481) && decide (x.toNat < 56) then some x.toNat else none

/-- The allotments that an endpoint may act for: its plot's, or those that own its port (R310). -/
def State.allotsAt (s : State) (x y : BitVec 9) : List Nat :=
  match plotAt x y with
  | some p => (s.ownerOf p).toList
  | none => match receiverAt x y false with
    | some (.host h) => below 16 (fun a => (s.allot a).live && (s.allot a).hostPort.toNat == h.val)
    | some (.server n) => below 16 (fun a => (s.allot a).live && (s.allot a).serverPorts.getLsbD n.val)
    | _ => []

/-- Sender and target share an allotment (R310). -/
def State.sameAllot (s : State) (k : Packet) : Bool :=
  (s.allotsAt k.srcX k.srcY).any (fun a => (s.allotsAt k.dstX k.dstY).contains a) ||
    (plotAt k.srcX k.srcY).isSome && plotAt k.srcX k.srcY == plotAt k.dstX k.dstY

/-- The allotment that a packet's transfer belongs to. -/
def State.packetAllot (s : State) (k : Packet) : Option Nat :=
  match (s.allotsAt k.srcX k.srcY).find? (fun a => (s.allotsAt k.dstX k.dstY).contains a) with
  | some a => some a
  | none => (s.allotsAt k.srcX k.srcY).head?

/-- Discards a packet and counts it in its plot's object (R285, R311). -/
def State.discard (s : State) (k : Packet) : State :=
  match (plotAt k.dstX k.dstY).or (plotAt k.srcX k.srcY) with
  | some p => s.modPlot p (fun x => { x with discarded := satInc x.discarded })
  | none => s

/-- Answers a REQ or READ. -/
def State.reply (s : State) (k : Packet) (st : BitVec 4) (entry length landed : Nat) : State :=
  s.emit (.packet (mkPacket 3 (k.dstX, k.dstY) (k.srcX, k.srcY) k.tag st (replyPayload entry length landed)))

/-- What the routers and gates decide before a packet reaches its endpoint. -/
inductive Passage where
  | to (r : Receiver)
  /-- Service node or Lodge. -/
  | internal
  | dropped (s : State)

/-- A packet fails its CRC (R305): it is discarded, recorded, and counted against the link on which it came, a free value
(log 114). -/
def State.crcFailed (s : State) (k : Packet) : State :=
  let n := s.free
  let l := Config.failedLink n
  let l := if linkExists l then l else .express (Fin.ofNat 56 ((plotAt k.dstX k.dstY).getD 0)) 0 0
  (s.fresh.2.modLink l (fun x => { x with crc := satInc x.crc, fails := x.fails + 1 })).record { ErrRec.base with
    ty := 0x08, severity := 1, cls := 7, plot := BitVec.ofNat 6 ((plotAt k.dstX k.dstY).getD 63), detail := 1 }

/-- The path's checks, in order: CRC (R305, R426), type, VC and endpoint (R285), egress (R310), a plot that is scrubbed or shed
(R311; log 116), and a spare position (R283). A REPLY or NACK goes to the sender that its tag names. -/
def State.passage (s : State) (k : Packet) : Passage :=
  let ask := k.ptype == 1 || k.ptype == 2
  let deny := fun (s : State) => if ask then s.reply k rpDenied 0 0 0 else s
  let toCell := decide (k.dstY.toNat < 476)
  if !k.crcOk then .dropped (s.crcFailed k)
  else if decide (8 ≤ k.ptype.toNat) || k.vc != vcOf k.ptype.toNat || !endpointExists k.dstX k.dstY k.sel then
    .dropped (deny (s.discard k))
  else if k.ptype != 6 && k.ptype != 7 && !s.sameAllot k then
    let r := { ErrRec.base with
      ty := 0x14, severity := 1, cls := 7, plot := BitVec.ofNat 6 ((plotAt k.srcX k.srcY).getD 63),
      allotment := BitVec.ofNat 5 (((s.allotsAt k.srcX k.srcY).head?).getD 0x1F),
      address := BitVec.ofNat 64 (2 ^ 36 * k.dstX.toNat + 2 ^ 27 * k.dstY.toNat) }
    .dropped (deny (s.record r))
  else if ((plotAt k.dstX k.dstY).map (fun p => (s.plot p).fenced || (s.plot p).scrubbing)).getD false then
    .dropped (if ask && toCell then s.reply k rpDenied 0 0 0 else s.discard k)
  else if toCell && k.ptype != 6 && !presentedAt k.dstX k.dstY then
    .dropped (if ask then s.reply k rpDenied 0 0 0 else s.discard k)
  else
    let r := if k.ptype == 3 || k.ptype == 4 then senderAt k.dstX k.dstY k.tag.toNat else receiverAt k.dstX k.dstY k.sel
    match r with
    | some r => .to r
    | none => .internal

/-! ### Landing (R287–R293) -/

/-- The lowest free landing entry of a receiver; 0xFFF is the deal entry and is never granted (R514), and a server port's open
windows hold theirs (R293). -/
def State.freeEntry (s : State) (r : Receiver) : Option Nat :=
  let x := s.rx r
  let held := match r with
    | .server n => (s.srv n.val).windows.map (fun (w : Nat × Window) => w.1)
    | _ => []
  if x.entries.length + held.length < 4095 then
    (List.range 4095).find? (fun e => (tget? x.entries e).isNone && !held.contains e)
  else none

/-- The tag slots that a range of the garden touches, when its garden is in full/empty mode. -/
def State.landTags (s : State) (t : Target) (len : Nat) : Option (Nat × List Nat) :=
  match t with
  | .cell p a => if (s.pav p).fullEmpty then some (p, tagRange a len) else none
  | _ => none

/-- What the tags of a range say to a writer or a reader of it, and the pavilion that holds them (R243, R244). -/
def State.askTags (s : State) (t : Target) (len : Nat) (write : Bool) : Nat × TagAnswer :=
  match s.landTags t len with
  | none => (0, .go)
  | some (p, ts) => (p, if write then (s.pav p).passTags [] ts [] else (s.pav p).passTags ts [] [])

/-- A writer takes the slots of a range (R243). -/
def State.tagsTaken (s : State) (t : Target) (len : Nat) : State :=
  match s.landTags t len with
  | some (p, ts) => s.modPav p (fun x => x.fillStart ts)
  | none => s

/-- A writer has finished a range: its slots are full (R243). -/
def State.tagsFull (s : State) (t : Target) (len : Nat) : State :=
  match s.landTags t len with
  | some (p, ts) => s.modPav p (fun x => x.fillEnd ts)
  | none => s

/-- A reader has read the last byte of a range (R244). -/
def State.tagsRead (s : State) (t : Target) (len : Nat) : State :=
  match s.landTags t len with
  | some (p, ts) => s.modPav p (fun x => x.readEnd ts)
  | none => s

/-- The context that a fabric address names is switched out (R464). -/
def State.waitsContext (s : State) (a addr : Nat) : Bool :=
  match s.namedPav a addr with
  | some p => s.switchedOut p
  | none => false

/-- The allotment that a receiver's own transfers belong to. -/
def State.rxAllot (s : State) (r : Receiver) : Nat :=
  ((s.allotsAt (addressOf r).1 (addressOf r).2).head?).getD 16

/-- An endpoint answers for a target: a cell and a DMA engine for their own garden bytes, an agent and a host port for HBM. -/
def State.answersFor (s : State) (r : Receiver) (a : Nat) (t : Target) : Bool :=
  match r, t with
  | .cell c, .cell p o => decide (cellNo c = some (p, o / 0x40000)) ||
      decide ((cellNo c).map (fun e => (s.mappedTo a e.1, e.2)) = some (p, o / 0x40000))
  | .dma q, .cell p _ => decide (p = q.val ∨ p = s.mappedTo a q.val)
  | .agent _, .hbm _ => true
  | .host _, .hbm _ => true
  | .server _, _ => true
  | _, _ => false

/-- The first answer to a REQ (R287): the grant, or why there is none; a broken tag fails the access at once (R246). -/
inductive Answer where
  | grant | held | full | denied
  | broken (p t : Nat)
  deriving DecidableEq, Repr

/-- R287, R310, R457, R464: what a receiver answers to a REQ for a range that it answers for. -/
def State.answerTo (s : State) (r : Receiver) (t : Target) (addr len a : Nat) : Answer :=
  let inPlot := match t with
    | .cell p _ => (s.plot (plotOf p)).shedding
    | _ => false
  let monitor := match t with
    | .cell _ o => inMonitor o len
    | _ => false
  let wait : Answer := if (s.rx r).held.length < 16 then .held else .full
  if decide (len = 0 ∨ 3145728 < len) || !s.targetFits a t len || monitor then .denied
  else if inPlot then .full
  else if s.waitsContext a addr then wait
  else match s.askTags t len true with
    | (p, .broken g) => .broken p g
    | (_, .go) => if (s.freeEntry r).isNone then .full else .grant
    | (_, .wait _ _) => wait

/-- Grants an entry for a held or new request: the tags of the range become filling (R243, R287). -/
def State.grant (s : State) (r : Receiver) (q : HeldReq) (t : Target) : State :=
  match s.freeEntry r with
  | none => s
  | some e =>
    let s := (s.tagsTaken t q.length).modRx r (fun x => { x with
      entries := tset x.entries e (Landing.mk q.srcX q.srcY q.tag q.address q.length 0 0 0 s.ns false false) })
    s.emit (.packet (mkPacket 3 (addressOf r) (q.srcX, q.srcY) q.tag rpGranted (replyPayload e q.length 0)))

/-- The entry that a receiver has granted to a source's tag. -/
def Rx.entryOf (x : Rx) (srcX srcY : BitVec 9) (tag : BitVec 12) : Option (Nat × Landing) :=
  x.entries.find? (fun e => e.2.srcX == srcX && e.2.srcY == srcY && e.2.tag == tag && !e.2.own)

/-- The entry that a receiver has granted to its own READ of a source (R291). -/
def Rx.ownEntry (x : Rx) (srcX srcY : BitVec 9) (tag : BitVec 12) : Option Landing :=
  match tget? x.entries tag.toNat with
  | some e => if e.own && e.srcX == srcX && e.srcY == srcY then some e else none
  | none => none

def Rx.doneOf (x : Rx) (srcX srcY : BitVec 9) (tag : BitVec 12) (own : Bool) : Option DoneRec :=
  x.done.find? (fun d => d.srcX == srcX && d.srcY == srcY && d.tag == tag && d.own == own)

/-- The packet came from a request's sender under its tag. -/
def HeldReq.from (q : HeldReq) (k : Packet) : Bool := q.srcX == k.srcX && q.srcY == k.srcY && q.tag == k.tag

/-- A done record's answer: DONE, or DONE_TIMEOUT when packets are missing. -/
def State.replyDone (s : State) (k : Packet) (d : DoneRec) : State :=
  s.reply k (if d.landed = packetsOf d.length then rpDone else rpDoneTimeout) 0 d.length d.landed

/-- The answer to a query REQ (R285, R286, R305): the state of the transfer that the tag names, a request's first, and then that
of a READ, whose target names it by the requester's entry (R291). -/
def State.answerQuery (s : State) (r : Receiver) (k : Packet) : State :=
  let x := s.rx r
  match x.entryOf k.srcX k.srcY k.tag, x.doneOf k.srcX k.srcY k.tag false with
  | some e, _ => s.reply k rpGranted e.1 e.2.length e.2.count
  | none, some d => s.replyDone k d
  | none, none =>
    if x.held.any (fun q => q.from k) then s.reply k rpHeld 0 0 0
    else match x.ownEntry k.srcX k.srcY k.tag, x.doneOf k.srcX k.srcY k.tag true with
      | some e, _ => s.reply k rpGranted k.tag.toNat e.length e.count
      | none, some d => s.replyDone k d
      | none, none => s.reply k rpUnknown 0 0 0

/-! ### Sending data -/

/-- The DATA packets of a transfer of len bytes from offset o of a run of rows, of the sequences that a test selects; each is
poisoned when a row that it carries bytes of is (R287, R289, R309). -/
def dataPackets (src dst : BitVec 9 × BitVec 9) (entry : BitVec 12) (sel : Bool) (rows : List (List Byte × Bool)) (o len : Nat)
    (retry : Bool) (want : Nat → Bool) : List Output :=
  let d := ((rows.map (·.1)).flatten.drop o).take len
  let total := packetsOf d.length
  (below total want).map (fun i =>
    let c := (d.drop (48 * i)).take 48
    let first := (o + 48 * i) / 64
    let hit := ((rows.drop first).take ((o + 48 * i + c.length + 63) / 64 - first)).any (·.2)
    let k : Packet :=
      { dstX := dst.1, dstY := dst.2, srcX := src.1, srcY := src.2, vc := 3, ptype := 0, age := 0,
        tag := entry, opq := if sel then 8 else 0, payload := BitVec.ofNat 384 (leNat c),
        seq := BitVec.ofNat 16 i, reserved := 0, escape := false, retry := retry, poison := hit,
        last := decide (i + 1 = total), valid := BitVec.ofNat 8 c.length, crc := 0 }
    .packet { k with crc := crc32c k.crcBytes })

/-- Sends packets of a range at a target to an entry (R289, R306). -/
def State.sendRange (s : State) (a : Nat) (t : Target) (len : Nat) (src dst : BitVec 9 × BitVec 9) (entry : BitVec 12) (sel retry : Bool)
    (want : Nat → Bool) : State :=
  let g := s.targetRows a t len
  g.2.emits (dataPackets src dst entry sel g.1.1 g.1.2 len retry want)

/-- Sends a transfer's DATA packets from its source. -/
def State.sendData (s : State) (r : Receiver) (x : Tx) (retry : Bool) (want : Nat → Bool) : State :=
  let a := s.rxAllot r
  s.sendRange a (s.resolveEnd a x.source.toNat) x.length (addressOf r) (x.dstX, x.dstY) x.entry (x.opq.getLsbD 3) retry want

/-- A tag that the sender does not use: a DMA engine's from 2,048 on, and others below (log 111). -/
def Rx.freeTag (x : Rx) (r : Receiver) : Nat :=
  let base := match r with
    | .dma _ => 2048
    | _ => 0
  (((List.range 2048).map (fun i => base + (x.nextTag + i) % 2048)).find? (fun t => (tget? x.tx t).isNone)).getD base

/-- Starts a transfer: takes a tag and sends the REQ, or the READ with the requester's own entry granted
first (R287, R291). -/
def State.startTx (s : State) (r : Receiver) (owner : TxOwner) (read : Bool) (dst : BitVec 9 × BitVec 9)
    (address source len : Nat) : State :=
  let tag := (s.rx r).freeTag r
  let entry := if read then (s.freeEntry r).getD 0 else 0
  let s := s.modRx r (fun y => { y with
    nextTag := (tag + 1) % 2048
    tx := tset y.tx tag (Tx.mk owner read dst.1 dst.2 0 (BitVec.ofNat 64 address)
      (BitVec.ofNat 64 source) len .requested (BitVec.ofNat 12 entry) s.ns s.ns 0 false)
    entries := if read then
        tset y.entries entry (Landing.mk dst.1 dst.2 (BitVec.ofNat 12 tag) (BitVec.ofNat 64 source) len 0 0 0 s.ns true false)
      else y.entries })
  s.emit (.packet (mkPacket (if read then 2 else 1) (addressOf r) dst (BitVec.ofNat 12 tag) 0 (reqPayload address len entry false)))

/-- Sends a transfer's REQ or READ again, or queries it. -/
def State.resendReq (s : State) (r : Receiver) (tag : Nat) (x : Tx) (query : Bool) : State :=
  s.emit (.packet (mkPacket (if x.read && !query then 2 else 1) (addressOf r) (x.dstX, x.dstY) (BitVec.ofNat 12 tag)
    x.opq (reqPayload x.address.toNat x.length (if x.read then x.entry.toNat else 0) query)))

def Rx.dropTx (x : Rx) (tag : Nat) : Rx := { x with tx := tdel x.tx tag }

/-- The sender without an owner's parts that have not finished, and without the entries granted to its READs. -/
def Rx.dropOwner (x : Rx) (o : TxOwner) : Rx :=
  let old := x.tx.filter (fun e => e.2.owner == o && !e.2.counted)
  { x with
    tx := x.tx.filter (fun e => !(e.2.owner == o && !e.2.counted))
    entries := x.entries.filter (fun e => !(e.2.own && old.any (fun y => y.1 == e.2.tag.toNat))) }

/-! ### The parts of a transfer (R292) -/

/-- Parts of a transfer: of 3,145,728 bytes, and one remainder. -/
def Parts.total (x : Parts) : Nat := (x.length + 3145727) / 3145728

/-- Every part has finished. -/
def Parts.over (x : Parts) : Bool := decide (x.total ≤ x.done)

/-- A transfer whose first part is about to start. -/
def Parts.first (read : Bool) (dst : BitVec 9 × BitVec 9) (address source len : Nat) : Parts :=
  { read := read, dstX := dst.1, dstY := dst.2, address := address, source := source, length := len, started := 0, sent := 0,
    done := 0, fault := 0 }

/-- The parts of an owner's transfer. -/
def State.partsOf (s : State) (r : Receiver) (o : TxOwner) : Option Parts :=
  match r, o with
  | .dma p, .dma k => ((s.pav p.val).seq.place k).bind (·.parts)
  | .cell c, .move n k => (cellNo c).bind (fun e => (lget none ((s.pav e.1).core n).moves k).map (fun m => m.parts))
  | _, _ => none

def State.modParts (s : State) (r : Receiver) (o : TxOwner) (f : Parts → Parts) : State :=
  match r, o with
  | .dma p, .dma k => s.modSeq p.val (fun q => q.setPlace k ((q.place k).map (fun d => { d with parts := d.parts.map f })))
  | .cell c, .move n k =>
    match cellNo c with
    | some (p, _) =>
      let z := (s.pav p).core n
      s.setCore p n { z with moves := z.moves.set k ((lget none z.moves k).map (fun m => { m with parts := f m.parts })) }
    | none => s
  | _, _ => s

/-- A waiter that stands for an owner. -/
def waiterOf (r : Receiver) (o : TxOwner) : TagWaiter :=
  match r, o with
  | .cell c, .move n k => .move ((cellNo c).map (·.1) |>.getD 0) n k
  | .dma p, .dma k => .dma p.val k
  | _, .dma k => .dma 0 k
  | _, .move n k => .move 0 n k

/-- An owner's transfer fails (R245, R307): a DCOPY raises its program fault and is over; a move's fault comes with
MOVE_TRANSFER_FINISH. -/
def State.failOwner (s : State) (r : Receiver) (o : TxOwner) (code : Nat) : State :=
  let s := s.modRx r (fun x => x.dropOwner o)
  match r, o with
  | .dma p, .dma k =>
    match (s.pav p.val).seq.place k with
    | some d => (s.modSeq p.val (fun q => (q.setPlace k none).release (d.rd ++ d.wr))).programFault p.val code d.slot 0x80
    | none => s
  | _, _ => s.modParts r o (fun x => { x with fault := code })

/-- The local range of the next part: what its READ fills, or what it sends. -/
def State.partSide (s : State) (r : Receiver) (x : Parts) : Target × Nat :=
  let i := 3145728 * x.started
  (s.resolveEnd (s.rxAllot r) (x.source + i), min 3145728 (x.length - i))

/-- Starts the next part; one that reads takes the slots that it fills (R243). -/
def State.startPart (s : State) (r : Receiver) (o : TxOwner) (x : Parts) : State :=
  let i := 3145728 * x.started
  let g := s.partSide r x
  let s := if x.read then s.tagsTaken g.1 g.2 else s
  (s.modParts r o (fun y => { y with started := y.started + 1 })).startTx r o x.read (x.dstX, x.dstY) (x.address + i)
    (x.source + i) g.2

/-- Parts of an owner that are in flight. -/
def Rx.inFlight (x : Rx) (o : TxOwner) : Nat := (x.tx.filter (fun e => e.2.owner == o && !e.2.counted)).length

/-- Starts the parts of an owner's transfer, in address order, while fewer than 4 are in flight and the tags of its own side
allow (R243, R244, R292). -/
def State.pumpParts (s : State) (r : Receiver) (o : TxOwner) : Nat → State
  | 0 => s
  | n + 1 =>
    match s.partsOf r o with
    | none => s
    | some x =>
      if x.total ≤ x.started ∨ x.fault ≠ 0 ∨ 4 ≤ (s.rx r).inFlight o ∨ (x.read && (s.freeEntry r).isNone) then s
      else
        let g := s.partSide r x
        match s.askTags g.1 g.2 x.read with
        | (p, .go) => ((s.modPav p (fun v => v.dropWaiter (waiterOf r o))).startPart r o x).pumpParts r o n
        | (p, .wait t _) => s.modPav p (fun v => v.addWaiter t (waiterOf r o) s.ns)
        | (p, .broken t) => (s.brokenTag p t).failOwner r o 3

/-- Starts what the transfers of a DMA or move engine have waiting. -/
def State.pumpAll (s : State) (r : Receiver) : State :=
  match r with
  | .dma _ => s.each (List.range 4) (fun s k => s.pumpParts r (.dma k) 4)
  | .cell c =>
    match cellNo c with
    | some (_, n) => s.each (List.range 4) (fun s k => s.pumpParts r (.move n k) 4)
    | none => s
  | _ => s

/-- A part has finished: its DONE is sent (R290). -/
def State.partDone (s : State) (r : Receiver) (tag : Nat) (x : Tx) : State :=
  if x.counted then s
  else
    let s := s.modRx r (fun y => { y with tx := tset y.tx tag { x with counted := true } })
    (s.modParts r x.owner (fun y => { y with done := y.done + 1 })).pumpAll r

/-- The last byte of a part has been sent: its slots are read, and with the last part a DCOPY's source is released (R203, R244). -/
def State.partSent (s : State) (r : Receiver) (x : Tx) : State :=
  let s := s.tagsRead (s.resolveEnd (s.rxAllot r) x.source.toNat) x.length
  let s := s.modParts r x.owner (fun y => { y with sent := y.sent + 1 })
  match r, x.owner, s.partsOf r x.owner with
  | .dma p, .dma k, some y =>
    if y.sent = y.total then
      s.modSeq p.val (fun q => match q.place k with
        | some d => (q.setPlace k (some { d with rd := [] })).release d.rd
        | none => q)
    else s
  | _, _, _ => s

/-- A transfer has failed (R307): both gates write records and its owner fails, a refusal of the sender's own gate with program
fault 0x04 (R199, R310) and any other with 0x03. While the owning section is frozen the failure is discarded. A part whose DONE
was sent has finished, and fails no more. -/
def State.failTx (s : State) (r : Receiver) (tag : Nat) (x : Tx) (status : Nat) : State :=
  let s := s.modRx r (fun y => { y.dropTx tag with
    entries := if x.read && !x.counted then tdel y.entries x.entry.toNat else y.entries })
  let a := s.rxAllot r
  if x.counted || (s.allot a).frozen.isSome then s
  else
    let rec_ := { ErrRec.base with
      ty := 0x07, severity := 1, cls := 7, allotment := BitVec.ofNat 5 a, detail := BitVec.ofNat 32 status,
      address := x.address, plot := BitVec.ofNat 6 ((plotAt (addressOf r).1 (addressOf r).2).getD 63) }
    let s := s.record rec_
    let s := match plotAt x.dstX x.dstY with
      | some p => s.record { rec_ with plot := BitVec.ofNat 6 p }
      | none => s
    s.failOwner r x.owner (if status = 3 ∧ !(s.allotsAt x.dstX x.dstY).contains a then 4 else 3)

/-- The sender of a request or READ, and its record of the transfer. -/
def State.senderOf (s : State) (x y : BitVec 9) (tag : BitVec 12) : Option (Receiver × Tx) :=
  (senderAt x y tag.toNat).bind (fun r => (tget? (s.rx r).tx tag.toNat).map (fun t => (r, t)))

/-- The instruction or move behind a request fails at its sender (R245, R246). -/
def State.failFrom (s : State) (q : HeldReq) : State :=
  match s.senderOf q.srcX q.srcY q.tag with
  | some (r, x) => s.failTx r q.tag.toNat x 2
  | none => s

/-! ### REQ (R287, R288) -/

/-- Grants the held requests of a receiver, in order, for which an entry and the tags are now free. -/
def State.grantHeld (s : State) (r : Receiver) : State :=
  s.each (s.rx r).held (fun s q =>
    let a := (s.packetAllot (mkPacket 1 (q.srcX, q.srcY) (addressOf r) q.tag q.opq 0)).getD 16
    let t := s.resolve a q.address.toNat
    let out := fun (s : State) => s.modRx r (fun x => { x with held := x.held.erase q })
    match s.answerTo r t q.address.toNat q.length a with
    | .grant => out (s.grant r q t)
    | .denied => (out s).emit (.packet (mkPacket 3 (addressOf r) (q.srcX, q.srcY) q.tag rpDenied 0))
    | .broken p g => ((out s).brokenTag p g).failFrom q
    | .held | .full => s)

/-- R287, R288, R310, R311, R457, R464: a REQ reaches a receiver, which serves the requests that it holds first, and answers. -/
def execReq (k : Packet) (s : State) : Res :=
  wfOr (k.ofType 1) s <| .next <|
    match s.passage k with
    | .dropped t => t
    | .internal => s.discard k
    | .to r =>
      if k.reqQuery then s.answerQuery r k
      else
        let s := s.grantHeld r
        let x := s.rx r
        match x.entryOf k.srcX k.srcY k.tag, x.doneOf k.srcX k.srcY k.tag false with
        | some e, _ => s.reply k rpGranted e.1 e.2.length 0
        | none, some d => s.reply k rpGranted d.entry.toNat d.length 0
        | none, none =>
          let a := (s.packetAllot k).getD 16
          let t := s.resolve a k.reqAddress
          let own := match r with
            | .dma _ => false
            | _ => s.answersFor r a t
          if x.held.any (fun q => q.from k) then s.reply k rpHeld 0 0 0
          else if !own then s.reply k rpDenied 0 0 0
          else match s.answerTo r t k.reqAddress k.reqLength a with
            | .denied => s.reply k rpDenied 0 0 0
            | .full => s.reply k rpFull 0 0 0
            | .held => (s.modRx r (fun y => { y with held := y.held ++ [k.held s.ns] })).reply k rpHeld 0 0 0
            | .grant => s.grant r (k.held s.ns) t
            | .broken p g => (s.brokenTag p g).failFrom (k.held s.ns)

/-! ### The HBM agent of a gate (R320, R323) -/

/-- The address that a segment's packets carry: its port row, X = 3 (log 24). -/
def segAddress (n : Nat) : BitVec 9 × BitVec 9 := (3, BitVec.ofNat 9 (488 + n))

/-- Packets that carry a request's lines (R320). -/
def AgentReq.packets (q : AgentReq) : Nat := (64 * q.lines + 47) / 48

/-- The segment that serves a request's line. -/
def AgentReq.seg (q : AgentReq) : Nat := (hbmHash (64 * q.line.toNat)).1 / 3

/-- The data packets of lines: 48 bytes at offset 48·sequence, each poisoned when a line it carries bytes of is (R309, R320,
R322). -/
def granuleData (src dst : BitVec 9 × BitVec 9) (tag : BitVec 12) (lines : List (List Byte × Bool)) : List Output :=
  let d := (lines.map (·.1)).flatten
  let total := (d.length + 47) / 48
  (List.range total).map (fun i =>
    let c := (d.drop (48 * i)).take 48
    let hit := (List.range lines.length).any (fun j =>
      ((lines.map (·.2)).getD j false) && decide (64 * j < 48 * i + c.length ∧ 48 * i < 64 * j + 64))
    let k := mkPacket 7 src dst tag 4 (leNat c)
    let k := { k with
      seq := BitVec.ofNat 16 i, poison := hit, last := decide (i + 1 = total), valid := BitVec.ofNat 8 c.length }
    .packet { k with crc := crc32c k.crcBytes })

/-- The packets of an agent's request; those of a write carry the lines as they have landed (R320; log 26). -/
def State.agentPackets (s : State) (plot : Nat) (q : AgentReq) : List Output :=
  .packet (mkPacket 7 (BitVec.ofNat 9 plot, 481) (segAddress q.seg) q.tag 0
    (2 ^ 349 * q.line.toNat + 2 ^ 347 * (q.lines - 1) + (if q.write then 2 ^ 346 else 0) +
      2 ^ 342 * q.allotment.toNat + 2 ^ 336 * q.first.toNat + 2 ^ 330 * q.final.toNat)) ::
  (if q.write then granuleData (BitVec.ofNat 9 plot, 481) (segAddress q.seg) q.tag
      ((List.range q.lines).map (fun i =>
        (memRead s.hbm.bytes (64 * (q.line.toNat + i)) 64, (s.hbm.rowMeta (q.line.toNat + i)).poison)))
    else [])

/-- An agent sends its waiting requests in order, each when fewer than 16 are outstanding at its segment and none of its
granule is (R320, R323). -/
def State.agentPump (s : State) (plot : Nat) : Nat → State
  | 0 => s
  | n + 1 =>
    let x := s.plot plot
    match x.agentWait with
    | [] => s
    | q :: t =>
      if 16 ≤ (x.agent.filter (fun r => r.seg == q.seg)).length ∨
          x.agent.any (fun r => r.line.toNat / 4 == q.line.toNat / 4) then s
      else
        let q := { q with tag := BitVec.ofNat 12 x.agentNext, since := s.ns }
        let s := s.modPlot plot (fun y => { y with
          agentWait := t, agent := y.agent ++ [q], agentNext := (y.agentNext + 1) % 4096 })
        (s.emits (s.agentPackets plot q)).agentPump plot n

/-- The requests that cover module addresses [m, m + len), one for each granule (R320). -/
def granulesOf (a m len : Nat) (write : Bool) (entry : Option (BitVec 12)) : List AgentReq :=
  (List.range ((m + len + 255) / 256 - m / 256)).map (fun i =>
    let lo := max m (256 * (m / 256 + i))
    let hi := min (m + len) (256 * (m / 256 + i) + 256)
    AgentReq.mk 0 (BitVec.ofNat 35 (lo / 64)) ((hi + 63) / 64 - lo / 64) write (BitVec.ofNat 4 a)
      (BitVec.ofNat 6 (lo % 64)) (BitVec.ofNat 6 ((hi + 63) % 64)) [] [] [] entry 0 0)

/-- The agent of a plot's gate asks the segments for a range of an allotment's HBM, or writes one that has landed in one of its
entries (R283, R320; log 26). -/
def State.agentAsk (s : State) (plot a off len : Nat) (write : Bool) (entry : Option (BitVec 12)) : State :=
  let l := (rangeRuns (s.allot a).ranges off len).flatMap (fun r => granulesOf a r.1 r.2 write entry)
  (s.modPlot plot (fun x => { x with agentWait := x.agentWait ++ l })).agentPump plot 4096

/-! ### READ (R291) -/

/-- Serves a READ: GRANTED with entry 0, and the range as DATA into the requester's entry, whose slots at the target are then
read (R244; log 112). An agent asks the segments for the lines (R320). -/
def State.serveRead (s : State) (r : Receiver) (q : HeldReq) : State :=
  let s := s.modRx r (fun x => { x with reads := x.reads ++ [{ q with since := s.ns }] })
  let s := s.emit (.packet (mkPacket 3 (addressOf r) (q.srcX, q.srcY) q.tag rpGranted (replyPayload 0 q.length 0)))
  let a := s.rxAllot r
  let t := s.resolve a q.address.toNat
  let s := match r, t with
    | .agent p, .hbm o => s.agentAsk p.val a o q.length false none
    | _, _ => s
  (s.sendRange a t q.length (addressOf r) (q.srcX, q.srcY) q.entry (dmaSide q.srcX q.srcY q.tag.toNat) false
    (fun _ => true)).tagsRead t q.length

/-- What stands before a READ at its target: the tags of its range, or a context that is switched out (R244, R464; log 112). -/
def State.readAsk (s : State) (r : Receiver) (q : HeldReq) : Nat × TagAnswer :=
  let a := s.rxAllot r
  if s.waitsContext a q.address.toNat then (0, .wait 0 .feed)
  else s.askTags (s.resolve a q.address.toNat) q.length false

/-- Serves the READs that wait, in order, while fewer than 4 are served (R291). -/
def State.pumpReads (s : State) (r : Receiver) : State :=
  s.each (s.rx r).readQueue (fun s q =>
    if 4 ≤ (s.rx r).reads.length then s
    else
      let out := fun (s : State) => s.modRx r (fun x => { x with readQueue := x.readQueue.erase q })
      match s.readAsk r q with
      | (_, .go) => (out s).serveRead r q
      | (_, .wait _ _) => s
      | (p, .broken t) => ((out s).brokenTag p t).failFrom q)

/-- R291: up to 4 READs are served at a time and up to 16 wait; a further one is answered FULL. One that waits for tags or a
context is told HELD. -/
def execRead (k : Packet) (s : State) : Res :=
  wfOr (k.ofType 2) s <| .next <|
    match s.passage k with
    | .dropped t => t
    | .internal => s.discard k
    | .to r =>
      let s := s.pumpReads r
      let q := k.held s.ns
      let a := (s.packetAllot k).getD 16
      let t := s.resolve a k.reqAddress
      let x := s.rx r
      if x.reads.any (fun y => y.from k) then s.reply k rpGranted 0 k.reqLength 0
      else if k.reqLength = 0 ∨ 3145728 < k.reqLength ∨ !s.answersFor r a t ∨ !s.targetFits a t k.reqLength then
        s.reply k rpDenied 0 0 0
      else match s.readAsk r q with
        | (p, .broken g) => (s.brokenTag p g).failFrom q
        | (_, ans) =>
          let told := fun (s : State) => if ans = .go then s else s.reply k rpHeld 0 0 0
          if x.readQueue.any (fun y => y.from k) then told s
          else if ans = .go ∧ x.reads.length < 4 then s.serveRead r q
          else if x.readQueue.length < 16 then told (s.modRx r (fun y => { y with readQueue := y.readQueue ++ [q] }))
          else s.reply k rpFull 0 0 0

/-- Ends a READ's service and starts those that wait. -/
def State.endRead (s : State) (r : Receiver) (q : HeldReq) : State :=
  (s.modRx r (fun x => { x with reads := x.reads.erase q })).pumpReads r

/-- The READ served at an address for a requester's entry (R291). -/
def State.servedAt (s : State) (k : Packet) : Option (Receiver × HeldReq) :=
  [false, true].findSome? (fun sel => (receiverAt k.dstX k.dstY sel).bind (fun r =>
    ((s.rx r).reads.find? (fun q => q.srcX == k.srcX && q.srcY == k.srcY && q.entry == k.tag)).map (fun q => (r, q))))

/-! ### REPLY, DATA, NACK, SIGNAL, CONTROL -/

/-- The transfer that a REPLY or NACK answers: its tag's, sent to the endpoint that answers. -/
def Rx.answered (x : Rx) (k : Packet) : Option Tx :=
  (tget? x.tx k.tag.toNat).filter (fun t => t.dstX == k.srcX && t.dstY == k.srcY)

/-- A REPLY answers a transfer of its sender (R285, R288, R290, R305, R307). -/
def State.answerTx (s : State) (r : Receiver) (k : Packet) (x : Tx) : State :=
  let tag := k.tag.toNat
  let set := fun (s : State) (y : Tx) => s.modRx r (fun z => { z with tx := tset z.tx tag y })
  match k.opq.toNat with
  | 0 =>
    if x.phase == .sent then set s { x with last := s.ns }
    else if x.read then set s { x with phase := .sent, last := s.ns }
    else
      let y := { x with phase := .sent, entry := BitVec.ofNat 12 (bits k.payload.toNat 383 372), last := s.ns }
      ((set s y).sendData r y false (fun _ => true)).partSent r y
  | 1 => if x.phase == .sent then s else set s { x with phase := .held, last := s.ns }
  | 2 => if x.phase == .sent then s else set s { x with phase := .full, fullAt := s.ns }
  | 5 => if x.read then s else ((s.partDone r tag x).modRx r (fun z => z.dropTx tag)).pumpAll r
  | 3 | 4 | 6 | 7 => s.failTx r tag x k.opq.toNat
  | _ => s

/-- R285, R288, R290, R305, R307: a REPLY reaches the sender of a REQ or READ, or the target of a READ, whose service ends with
DONE, DONE_TIMEOUT or UNKNOWN. -/
def execReply (k : Packet) (s : State) : Res :=
  wfOr (k.ofType 3) s <| .next <|
    match s.passage k with
    | .dropped t => t
    | .internal => s.discard k
    | .to r =>
      match (s.rx r).answered k with
      | some x => s.answerTx r k x
      | none =>
        match s.servedAt k with
        | some (t, q) => if k.opq == rpDone || k.opq == rpDoneTimeout || k.opq == rpUnknown then s.endRead t q else s
        | none => s

/-- The done record of an entry, with the packets that landed (R290). -/
def Rx.recordDone (x : Rx) (entry : Nat) (e : Landing) (landed : Nat) : Rx :=
  let n := BitVec.ofNat 12 entry
  { x with
    entries := tdel x.entries entry
    done := (DoneRec.mk e.srcX e.srcY (if e.own then n else e.tag) e.length landed n e.own :: x.done).take 64 }

/-- DONE or DONE_TIMEOUT for an entry, to its sender, or to the target of the READ that it was granted to (R290, R291). -/
def State.sendLanded (s : State) (r : Receiver) (entry : Nat) (e : Landing) (st : BitVec 4) (landed : Nat) : State :=
  s.emit (.packet (mkPacket 3 (addressOf r) (e.srcX, e.srcY) (if e.own then BitVec.ofNat 12 entry else e.tag) st
    (replyPayload 0 e.length landed)))

/-- A transfer has landed whole: the tags full, the entry freed, the done record, DONE, and the part finished (R243, R290). -/
def State.landDone (s : State) (r : Receiver) (entry : Nat) (e : Landing) : State :=
  let n := packetsOf e.length
  let s := s.tagsFull (s.resolveEnd (s.rxAllot r) e.base.toNat) e.length
  let s := (s.modRx r (fun x => x.recordDone entry e n)).sendLanded r entry e rpDone n
  let s := if e.own then
      match tget? (s.rx r).tx e.tag.toNat with
      | some x => (s.partDone r e.tag.toNat x).modRx r (fun z => z.dropTx e.tag.toNat)
      | none => s
    else match s.senderOf e.srcX e.srcY e.tag with
      | some (q, x) => s.partDone q e.tag.toNat x
      | none => s
  s.pumpAll r

/-- Who writes what lands in an entry: the instruction or move whose own READ it is, or the port (R430). -/
def State.landWriter (s : State) (r : Receiver) (e : Landing) : Writer :=
  let owner : Option TxOwner := if e.own then (tget? (s.rx r).tx e.tag.toNat).map (fun x => x.owner) else none
  match r, owner with
  | .dma p, some (.dma k) => match (s.pav p.val).seq.place k with
    | some d => { unit := 3, stream := d.stream, iv := d.interval }
    | none => .port
  | _, some (.move _ _) => .mover
  | _, _ => .port

/-- A DATA packet lands its bytes; with the last one the transfer is done, or its agent writes it to the segments (R289, R290,
R320). -/
def State.landData (s : State) (r : Receiver) (k : Packet) (e : Landing) : State :=
  let a := s.rxAllot r
  let t := s.resolveEnd a (e.base.toNat + 48 * k.seq.toNat)
  let s := s.targetPut a t (s.landWriter r e) ((natLE 48 k.payload.toNat).take k.valid.toNat) k.poison
  let e := { e with
    landed := e.landed + 2 ^ k.seq.toNat, count := e.count + 1, since := s.ns, poison := e.poison || k.poison }
  let kept := s.modRx r (fun x => { x with entries := tset x.entries k.tag.toNat e })
  if e.count ≠ packetsOf e.length then kept
  else match r, s.resolveEnd a e.base.toNat with
    | .agent p, .hbm o => kept.agentAsk p.val a o e.length true (some k.tag)
    | _, _ => s.landDone r k.tag.toNat e

/-- R289, R290, R293, R309, R514: a DATA packet lands, or is discarded; one for an entry of a server port that holds neither a
transfer nor a window is answered WINDOW_CLOSED. -/
def execData (k : Packet) (s : State) : Res :=
  wfOr (k.ofType 0) s <| .next <|
    match s.passage k with
    | .dropped t => t
    | .internal => s.discard k
    | .to r =>
      if k.tag = 0xFFF then s.discard k
      else match tget? (s.rx r).entries k.tag.toNat with
        | none => match r with
          | .server n => if (tget? (s.srv n.val).windows k.tag.toNat).isNone then s.reply k rpClosed 0 0 0 else s
          | _ => s
        | some e =>
          if e.srcX ≠ k.srcX ∨ e.srcY ≠ k.srcY then s
          else if k.framingBad e.length then s.modRx r (fun x => { x with framing := satInc x.framing })
          else if e.landed.testBit k.seq.toNat || s.waitsContext (s.rxAllot r) e.base.toNat then s
          else s.landData r k e

/-- R291, R306: the sender, or the target of a READ, re-sends each named packet with RETRY set. -/
def execNack (k : Packet) (s : State) : Res :=
  wfOr (k.ofType 4) s <| .next <|
    match s.passage k with
    | .dropped t => t
    | .internal => s.discard k
    | .to r =>
      match (s.rx r).answered k with
      | some x =>
        if x.phase == .sent && !x.read then
          (s.modRx r (fun z => { z with tx := tset z.tx k.tag.toNat { x with last := s.ns } })).sendData r x true
            k.nackMissing
        else s
      | none =>
        match s.servedAt k with
        | some (t, q) =>
          let a := s.rxAllot t
          (s.modRx t (fun x => { x with reads := x.reads.map (fun y => if y = q then { q with since := s.ns } else y) })).sendRange
            a (s.resolve a q.address.toNat) q.length (addressOf t) (q.srcX, q.srcY) q.entry
            (dmaSide q.srcX q.srcY q.tag.toNat) true k.nackMissing
        | none => s

/-- R194, R286: a SIGNAL adds its value to a sync counter of the pavilion whose port cell it names. -/
def execSignalPacket (k : Packet) (s : State) : Res :=
  wfOr (k.ofType 5) s <| .next <|
    match s.passage k with
    | .dropped t => t
    | .internal => s.discard k
    | .to r =>
      match r with
      | .cell c =>
        let lx := c.x.val % 64
        let ly := c.y.val % 68
        let q := quadOf lx ly
        if (lx, ly) = portCell q ∧ k.opq = 8 then
          let i := bits k.payload.toNat 383 380
          let v := BitVec.ofNat 32 (bits k.payload.toNat 379 348)
          s.modSeq (4 * plotOfCell c.x.val c.y.val + q) (fun x => { x with ctrs := x.ctrs.set i (lget 0 x.ctrs i + v) })
        else s.discard k
      | _ => s.discard k

/-- R285: CONTROL packets pass only between gates, service nodes, monitors and the Lodge; what they carry is
the effect of the commands that they belong to. One that names another endpoint is discarded and counted. -/
def execControl (k : Packet) (s : State) : Res :=
  wfOr (k.ofType 6) s <| .next <|
    match s.passage k with
    | .dropped t => t
    | .internal => s.emit (.forward k)
    | .to r => match r with
      | .cell _ | .agent _ => s.emit (.forward k)
      | _ => s.discard k

/-! ### Timers (R288, R305, R306) -/

/-- R288: 1,024 F-cycles after FULL the REQ is sent again. -/
def execFullRetry (r : Receiver) (tag : BitVec 12) (s : State) : Res :=
  match tget? (s.rx r).tx tag.toNat with
  | some x =>
    onlyIf (x.phase == .full && decide (x.fullAt + fcycles 1024 ≤ s.ns)) s
      ((s.modRx r (fun z => { z with tx := tset z.tx tag.toNat { x with phase := .requested, last := s.ns } })).resendReq
        r tag.toNat x false)
  | none => .next s

/-- R288: without GRANTED or HELD the REQ is sent again after a landing timeout, and fails after four. -/
def execRequestTimeout (r : Receiver) (tag : BitVec 12) (s : State) : Res :=
  match tget? (s.rx r).tx tag.toNat with
  | some x =>
    if x.phase != .requested || decide (s.ns < x.last + s.landingAt r) then .next s
    else if x.first + 4 * s.landingAt r ≤ s.ns then .next (s.failTx r tag.toNat x 2)
    else .next ((s.modRx r (fun z => { z with tx := tset z.tx tag.toNat { x with last := s.ns } })).resendReq
      r tag.toNat x false)
  | none => .next s

/-- The NACK packets of a round, one per 256-sequence range that misses a sequence (R286, R306). -/
def nackPackets (src dst : BitVec 9 × BitVec 9) (tag : BitVec 12) (total landed round : Nat) : List Output :=
  (List.range ((total + 255) / 256)).filterMap (fun b =>
    let miss := below 256 (fun i => decide (256 * b + i < total) && !landed.testBit (256 * b + i))
    if miss.isEmpty then none
    else some (.packet (mkPacket 4 src dst tag 0
      (256 * b * 2 ^ 368 + sumBy miss (fun i => 2 ^ (367 - i)) + 2 ^ 109 * round))))

/-- A landing ends with packets missing, or unwritten at an agent: DONE_TIMEOUT, the entry freed, and the READ that it was granted
to failed (R306, R307). -/
def State.landFail (s : State) (r : Receiver) (entry : Nat) (e : Landing) (landed : Nat) : State :=
  let s := (s.modRx r (fun x => x.recordDone entry e landed)).sendLanded r entry e rpDoneTimeout landed
  if e.own then
    match tget? (s.rx r).tx e.tag.toNat with
    | some x => s.failTx r e.tag.toNat x 6
    | none => s
  else s

/-- R306, R307: a landing entry's timer elapses with sequences missing: NACKs in rounds 1–4, and then DONE_TIMEOUT. -/
def execLandingTimeout (r : Receiver) (entry : BitVec 12) (s : State) : Res :=
  match tget? (s.rx r).entries entry.toNat with
  | some e =>
    if s.ns < e.since + s.landingAt r ∨ e.count = packetsOf e.length ∨ s.waitsContext (s.rxAllot r) e.base.toNat then .next s
    else if e.round < 4 then
      let e' := { e with round := e.round + 1, since := s.ns }
      let tag := if e.own then entry else e.tag
      .next ((s.modRx r (fun x => { x with entries := tset x.entries entry.toNat e' })).emits
        (nackPackets (addressOf r) (e.srcX, e.srcY) tag (packetsOf e.length) e.landed (e.round + 1)))
    else .next ((s.landFail r entry.toNat e e.count).pumpAll r)
  | none => .next s

/-- A served READ has had neither DONE nor NACK for two landing timeouts. -/
def State.readQuiet (s : State) (r : Receiver) (entry : BitVec 12) : Option HeldReq :=
  (s.rx r).reads.find? (fun q => q.entry == entry && decide (q.since + 2 * s.landingAt r ≤ s.ns))

/-- R305: without DONE or NACK within two landing timeouts of its last packet, the sender asks, under its tag, or, as the target
of a READ, under the requester's entry. -/
def execDoneQuery (r : Receiver) (tag : BitVec 12) (s : State) : Res :=
  let due := fun (x : Tx) => x.phase == .sent && !x.read && decide (x.last + 2 * s.landingAt r ≤ s.ns) &&
    !s.waitsContext (s.rxAllot r) x.source.toNat
  match (tget? (s.rx r).tx tag.toNat).filter due with
  | some x =>
    .next ((s.modRx r (fun z => { z with tx := tset z.tx tag.toNat { x with last := s.ns } })).resendReq r tag.toNat x true)
  | none =>
    match s.readQuiet r tag with
    | some q =>
      let s := s.modRx r (fun x => { x with reads := x.reads.map (fun y => if y = q then { q with since := s.ns } else y) })
      .next (s.emit (.packet (mkPacket 1 (addressOf r) (q.srcX, q.srcY) tag (if dmaSide q.srcX q.srcY q.tag.toNat then 8 else 0)
        (reqPayload q.address.toNat q.length 0 true))))
    | none => .next s

/-! ### Links (R15, R308) -/

/-- The plot that reports a link, at its lower-indexed end (R308, R520). -/
def linkPlot : LinkId → Option Nat
  | .express p _ _ | .prom p _ _ | .cellTorus p _ _ _ | .attach p _ _ => some p.val
  | .port p _ => some (p.val / 4)
  | _ => none

/-- A link's record (R441, type 0x12): 0 withdrawn, 1 retry on. -/
def State.linkRec (s : State) (l : LinkId) (detail : Nat) : ErrRec :=
  let l := linkCanon l
  let sub := match l with
    | .express _ d j => 4 * d.val + j.val
    | .prom _ e c => 64 * e.val + c.val
    | .cellTorus _ _ _ d => d.val
    | .attach _ i u => 16 + 2 * i.val + (if u then 1 else 0)
    | .port p u => 48 + 2 * (p.val % 4) + (if u then 1 else 0)
    | .segGate n _ _ | .colonnade n _ => n.val
    | .span n => if n.val = 7 then 0 else if n.val = 8 then 4 else n.val
    | .spine => 0
    | .server n => n.val / 2
    | .stack k => k.val / 3
    | .host h => 2 * h.val + 1
  { ErrRec.base with
    ty := 0x12, severity := 1, cls := 8, plot := BitVec.ofNat 6 ((linkPlot l).getD 63),
    allotment := BitVec.ofNat 5 (((linkPlot l).bind s.ownerOf).getD 0x1F),
    subunit := BitVec.ofNat 16 sub, detail := BitVec.ofNat 32 detail }

/-- R308: at the end of a 1 s window, which carried `bits` bits and saw `failures` CRC failures beside those that packet commands
counted, failures beyond bits/10^12 switch link-level retry on; a stack whose interface fails so must retrain (R330). -/
def execLinkErrorWindow (l : LinkId) (failures bits : Nat) (s : State) : Res :=
  let x := s.link l
  if !linkExists l || decide (s.ns < 1000000000 + x.winStart) then .next s
  else
    let stack := match l with
      | .stack _ => true
      | _ => false
    let bad := decide (bits < 10 ^ 12 * (x.fails + failures)) && x.state == 0 && !stack
    let s := s.modLink l (fun y => { y with
      crc := satAdd y.crc failures, bits := BitVec.ofNat 64 (min (y.bits.toNat + bits) (2 ^ 64 - 1)), winStart := s.ns, fails := 0
      state := if bad then 1 else y.state })
    .next (match l with
      | .stack k => if bits < 10 ^ 12 * (x.fails + failures) then s.modStack k.val (fun y => { y with due := true }) else s
      | _ => if bad then s.record (s.linkRec l 1) else s)

/-- Bit 64e + c of the objects at both ends of an edge channel (R15, R355). -/
def State.withdrawProm (s : State) (p : PlotIx) (e : Fin 4) (c : Fin 64) : State :=
  let s := s.modPlot p.val (fun x => { x with
    promWithdrawn := x.promWithdrawn ||| BitVec.ofNat 256 (2 ^ (64 * e.val + c.val)) })
  match edgeTo p.val e.val with
  | some q => s.modPlot q (fun x => { x with
      promWithdrawn := x.promWithdrawn ||| BitVec.ofNat 256 (2 ^ (64 * ((e.val + 2) % 4) + c.val)) })
  | none => s

/-- The service nodes between two broken points of a branch, in plot order within the Lawn (R35, R36; log 45). -/
def spineNodes (east : Bool) (lo hi : Nat) : List Nat :=
  (((List.range 56).filter (fun p => decide (4 ≤ p % 8) == east)).take hi).drop lo

/-- A point of a branch fails (R36): the break is logged, and a second one leaves the plots between them degraded for
control. -/
def State.breakSpine (s : State) (east : Bool) (point : Nat) : State :=
  if s.lodge.spineBreaks.contains (east, point) then s
  else
    let s := s.modLodge (fun l => { l with spineBreaks := l.spineBreaks ++ [(east, point)] })
    let s := s.record { ErrRec.base with
      ty := 0x12, severity := 1, cls := 14, subunit := BitVec.ofNat 16 ((if east then 32 else 0) + point) }
    let ps := (s.lodge.spineBreaks.filter (fun e => e.1 == east)).map (·.2)
    let lo := ps.foldl min 29
    let hi := ps.foldl max 0
    s.each (spineNodes east lo hi) (fun s p => s.modPlot p (fun x => { x with degraded := true }))

/-- What ends with a link (R15, R35, R300): a Promenade channel is withdrawn at both its plots, a cell-torus link takes the downstream
cell's router with it, and without the spine's lanes both ends of the East branch are lost. -/
def State.cutLink (s : State) (l : LinkId) : State :=
  match l with
  | .prom p e c => s.withdrawProm p e c
  | .cellTorus p x y _ =>
    let q := quadOf x.val y.val
    s.cellDead (4 * p.val + q) (physOf q x.val y.val) true
  | .spine => (s.breakSpine true 0).breakSpine true 28
  | _ => s

/-- Withdraws a link or channel (R15, R301, R308): its state, the objects of its plots, event 0x0007 and a record, both of
its lower-indexed end. A withdrawn cell-torus link marks the downstream cell's router dead under R300, which a cell
shuffle follows; without the spine's lanes both ends of the East branch are lost (R35). -/
def State.withdraw (s : State) (l : LinkId) : State :=
  if (s.link l).state = 2 ∨ linkExists l = false then s
  else
    let s := (s.modLink l (fun x => { x with state := 2 })).cutLink l
    let s := s.record (s.linkRec l 0)
    match linkPlot (linkCanon l) with
    | some p => s.event 0x0007 p (0x2100 + p) 0 ((s.ownerOf p).getD 0x1F)
    | none => s

/-- Lanes or tracks of a link fail (R14–R16): each takes its group's spare, and a link with more failed ones than spares is
withdrawn. -/
def State.failWires (s : State) (l : LinkId) (ks : List Nat) : State :=
  match linkWires l with
  | some w =>
    let s := s.modLink l (fun x => { x with failed := x.failed ++ (ks.filter (fun k => !x.failed.contains k)).eraseDups })
    if wiresLost w (s.link l).failed then s.withdraw l else s
  | none => s

/-- The wires of a list that lie in a Footbridge span, given to their links. -/
def State.failLanes (s : State) (n : Nat) (lanes : List (LinkId × Nat)) : State :=
  s.each (lanes.filter (fun e => spanOf e.1 == some n)) (fun s e => s.failWires e.1 [e.2])

/-- A link re-sends a failed packet of a virtual channel: always on VC 0, and on the others once retry is on (R308). -/
def Link.retries (x : Link) (vc : BitVec 2) : Bool := vc == 0 || x.state == 1

/-- A link of the packet fabric: an HBM interface and a channel of the Promenade carry no packets (R281, R308). -/
def fabricLink : LinkId → Bool
  | .stack _ | .prom _ _ _ => false
  | _ => true

/-- R308: under retry, one packet has failed 8 times in a row. -/
def execLinkWithdrawal (l : LinkId) (vc : BitVec 2) (s : State) : Res :=
  onlyIf ((s.link l).retries vc && (s.link l).state != 2 && fabricLink l) s
    (let t := s.withdraw l
    match l with
    | .cellTorus p _ _ _ => match s.ownerOf p.val with
      | some a => t.recover a .unitDeath
      | none => t
    | _ => t)

end Sys2Proof.Machine
end

