-- ==== Sys2Proof/Machine/HBM.lean ====
section
/-! DEFINITION. Stacked memory (R316–R331): GRANULE packets at segments and agents, patrol scrub, replacement
and failure of parts, and training. -/

namespace Sys2Proof.Machine

/-! ### GRANULE packets (R320, R321) -/

/-- The request that a GRANULE request packet makes. -/
def granuleReq (k : Packet) (ns : Nat) : AgentReq :=
  let v := k.payload.toNat
  AgentReq.mk k.tag (BitVec.ofNat 35 (bits v 383 349)) (bits v 348 347 + 1) (bit v 346)
    (BitVec.ofNat 4 (bits v 345 342)) (BitVec.ofNat 6 (bits v 341 336)) (BitVec.ofNat 6 (bits v 335 330)) [] []
    [] none 0 ns

/-- An acknowledgement or denial (R320, R321). -/
def granuleAck (seg : Nat) (dst : BitVec 9 × BitVec 9) (tag : BitVec 12) (status : BitVec 4) : Output :=
  .packet (mkPacket 7 (segAddress seg) dst tag (8 + status) 0)

/-- R321: the sending plot belongs to the named allotment, and the lines lie in its ranges and in one
granule. -/
def State.granuleAllowed (s : State) (plot : Nat) (q : AgentReq) : Bool :=
  s.ownerOf plot == some q.allotment.toNat && decide (q.line.toNat % 4 + q.lines ≤ 4) &&
  (List.range q.lines).all (fun i => s.lineOwned q.allotment.toNat (q.line.toNat + i))

def State.granuleDenied (s : State) (plot : Nat) (q : AgentReq) (dst : BitVec 9 × BitVec 9) : State :=
  (s.record { ErrRec.base with
    ty := 0x14, severity := 1, cls := 11, subunit := BitVec.ofNat 16 (hbmHash (64 * q.line.toNat)).1,
    allotment := BitVec.ofNat 5 ((s.ownerOf plot).getD 0x1F), detail := 1,
    address := BitVec.ofNat 64 q.line.toNat }).emit (granuleAck q.seg dst q.tag 1)

/-- Line i of a request came poisoned: some packet with bytes of it had POISON set (R309, R322). -/
def AgentReq.badLine (q : AgentReq) (i : Nat) : Bool :=
  q.bad.any (fun j => decide (48 * j < 64 * i + 64 ∧ 64 * i < 48 * j + 48))

/-- The write of a complete request: whole lines replace, parts merge, each line with its own poison (R322). -/
def State.granuleWrite (s : State) (q : AgentReq) : State :=
  let n := q.lines
  s.each (List.range n) (fun s i =>
    let line := q.line.toNat + i
    let lo := if i = 0 then q.first.toNat else 0
    let hi := if i + 1 = n then q.final.toNat else 63
    let s := s.keepLine q.allotment.toNat line
    s.hbmPut (64 * line + lo) (bslice q.data (64 * i + lo) (hi + 1 - lo)) (q.badLine i) 2)

/-- The lines of a write that a plot's agent has asked for stand in HBM since they landed (log 26). -/
def State.agentHolds (s : State) (plot : Nat) (q : AgentReq) : Bool :=
  (s.plot plot).agent.any (fun r => r.tag == q.tag && r.write && r.line == q.line)

/-- The sequence, LAST and valid bytes of a data packet are those of its request (R284, R320); any other packet is discarded. -/
def AgentReq.dataOk (q : AgentReq) (k : Packet) : Bool :=
  let i := k.seq.toNat
  decide (i < q.packets) && k.last == decide (i + 1 = q.packets) && k.valid.toNat == min 48 (64 * q.lines - 48 * i)

/-- The write request of a sender and tag that a segment holds. -/
def Seg.writeOf (x : Seg) (k : Packet) : Option (BitVec 9 × BitVec 9 × AgentReq) :=
  x.writes.find? (fun w => w.1 == k.srcX && w.2.2.tag == k.tag)

/-- A request that its segment admits is carried out (R320, R322). -/
def State.granuleAsk (s : State) (k : Packet) : State :=
  let q := granuleReq k s.ns
  let src := (k.srcX, k.srcY)
  if q.write then s.modSeg q.seg (fun x => { x with
    writes := x.writes.filter (fun w => !(w.1 == k.srcX && w.2.2.tag == k.tag)) ++ [(k.srcX, k.srcY, q)] })
  else
    let r := s.linesRead q.line.toNat q.lines
    r.2.emits (granuleData (segAddress q.seg) src q.tag r.1)

/-- A data packet of a write reaches segment n; with the last one the lines are written and the write acknowledged (R320, R322,
R329). -/
def State.granulePut (s : State) (n : Nat) (k : Packet) (w : BitVec 9 × BitVec 9 × AgentReq) : State :=
  let q := w.2.2
  let i := k.seq.toNat
  let src := (k.srcX, k.srcY)
  if !q.dataOk k || q.got.contains i then s
  else
    let d := bslice q.data 0 (64 * q.lines)
    let d := d.take (48 * i) ++ (natLE 48 k.payload.toNat).take k.valid.toNat ++ d.drop (48 * i + 48)
    let q' := { q with data := d, got := i :: q.got, bad := if k.poison then i :: q.bad else q.bad }
    if q'.got.length = q.packets then
      let s := s.modSeg n (fun x => { x with writes := x.writes.erase w })
      if s.lineDead q.line.toNat then s.emit (granuleAck n src q.tag 2)
      else if s.agentHolds k.srcX.toNat q then s.emit (granuleAck n src q.tag 0)
      else (s.granuleWrite q').emit (granuleAck n src q.tag 0)
    else s.modSeg n (fun x => { x with
      writes := x.writes.map (fun v => if v = w then (v.1, v.2.1, q') else v) })

/-- The segment that a packet of an agent is for. -/
def segOf (k : Packet) (ns : Nat) : Nat := if bits k.opq.toNat 3 2 = 0 then (granuleReq k ns).seg else (k.dstY.toNat - 488) % 8

/-- A packet waits at its segment: its stack retrains, or a packet of its request waits (R323, R330). -/
def State.granuleWaits (s : State) (n : Nat) (k : Packet) : Bool :=
  let line := if bits k.opq.toNat 3 2 = 0 then some (granuleReq k s.ns).line.toNat
    else ((s.seg n).writeOf k).map (fun w => w.2.2.line.toNat)
  (s.seg n).waiting.any (fun j => j.srcX == k.srcX && j.tag == k.tag) ||
    (line.map (fun l => (s.stack (hbmHash (64 * l)).1).state == 1 && (s.stack (hbmHash (64 * l)).1).trained)).getD false

/-- A request or data packet of an agent reaches its segment, or waits there. A request that the segment does not admit is denied at
once (R321). -/
def State.granuleAt (s : State) (k : Packet) : State :=
  let n := segOf k s.ns
  let q := granuleReq k s.ns
  if bits k.opq.toNat 3 2 = 0 ∧ !s.granuleAllowed k.srcX.toNat q then s.granuleDenied k.srcX.toNat q (k.srcX, k.srcY)
  else if s.granuleWaits n k then s.modSeg n (fun x => { x with waiting := x.waiting ++ [k] })
  else if bits k.opq.toNat 3 2 = 0 then s.granuleAsk k
  else match (s.seg n).writeOf k with
    | some w => s.granulePut n k w
    | none => s

/-- A READ that an agent serves and whose range a request belongs to. -/
def State.servedBy (s : State) (p : PlotIx) (q : AgentReq) : Option HeldReq :=
  (s.rx (.agent p)).reads.find? (fun h => match s.resolve q.allotment.toNat h.address.toNat with
    | .hbm o => (rangeRuns (s.allot q.allotment.toNat).ranges o h.length).any (fun r =>
        decide (r.1 / 64 ≤ q.line.toNat ∧ 64 * q.line.toNat < r.1 + r.2))
    | _ => false)

/-- An agent's landing is over once every request of its entry is acknowledged: then DONE (R290, R320; log 115). -/
def State.agentSettle (s : State) (p : PlotIx) (q : AgentReq) : State :=
  let mine := fun (r : AgentReq) => r.entry == q.entry
  match q.entry with
  | none => s
  | some e =>
    if ((s.plot p.val).agent ++ (s.plot p.val).agentWait).any mine then s
    else match tget? (s.rx (.agent p)).entries e.toNat with
      | some l => s.landDone (.agent p) e.toNat l
      | none => s

/-- A request of an agent has failed (R307, R324): a record, and the READ that it belongs to fails at its requester, or the landing
that it writes ends in DONE_TIMEOUT. -/
def State.agentFail (s : State) (p : PlotIx) (q : AgentReq) (code : Nat) : State :=
  let drop := fun (r : AgentReq) => r.tag != q.tag
  let s := (s.modPlot p.val (fun x => { x with
      agent := x.agent.filter drop
      agentWait := if q.entry.isSome then x.agentWait.filter (fun r => r.entry != q.entry) else x.agentWait })).record
    { s.plotRec p.val 0x07 1 7 code with address := BitVec.ofNat 64 (64 * q.line.toNat) }
  let s := match q.entry with
    | some e =>
      match tget? (s.rx (.agent p)).entries e.toNat with
      | some l => s.landFail (.agent p) e.toNat l 0
      | none => s
    | none => match s.servedBy p q with
      | some h => (s.emit (.packet (mkPacket 3 (addressOf (.agent p)) (h.srcX, h.srcY) h.tag rpDoneTimeout
          (replyPayload 0 h.length 0)))).endRead (.agent p) h
      | none => s
  s.agentPump p.val 4096

/-- Data of a read reaches its agent. -/
def State.granuleGot (s : State) (p : PlotIx) (k : Packet) : State :=
  (s.modPlot p.val (fun x => { x with agent := x.agent.filterMap (fun q =>
    if q.tag = k.tag ∧ !q.write ∧ q.dataOk k then
      let got := if q.got.contains k.seq.toNat then q.got else k.seq.toNat :: q.got
      if got.length = q.packets then none else some { q with got := got, since := s.ns }
    else some q) })).agentPump p.val 4096

/-- An acknowledgement reaches its agent: the request is over, or, when denied, has failed (R320, R321, R329). -/
def State.granuleAcked (s : State) (p : PlotIx) (k : Packet) : State :=
  match (s.plot p.val).agent.find? (fun q => q.tag == k.tag) with
  | none => s
  | some q =>
    if bits k.opq.toNat 1 0 = 1 then s.agentFail p q 1
    else ((s.modPlot p.val (fun x => { x with agent := x.agent.filter (fun r => r.tag != k.tag) })).agentSettle p q).agentPump p.val
      4096

/-- R285, R309, R318–R326: a GRANULE packet reaches its segment or its agent. -/
def execGranule (k : Packet) (s : State) : Res :=
  wfOr (k.ofType 7) s <| .next <|
    let op := bits k.opq.toNat 3 2
    let status := bits k.opq.toNat 1 0
    let fromAgent := k.srcY == 481 && decide (k.srcX.toNat < 56)
    let toAgent := k.dstY == 481 && decide (k.dstX.toNat < 56)
    let p : PlotIx := Fin.ofNat 56 k.dstX.toNat
    if !k.crcOk then s.crcFailed k
    else if k.ptype ≠ 7 ∨ k.vc ≠ 3 ∨ op = 3 ∨ (op ≠ 2 ∧ status ≠ 0) ∨ status = 3 then s.discard k
    else if op = 0 then (if fromAgent then s.granuleAt k else s.discard k)
    else if op = 1 then (if fromAgent then s.granuleAt k else if toAgent then s.granuleGot p k else s.discard k)
    else if toAgent then s.granuleAcked p k
    else s.discard k

/-- R324: an agent re-sends an incomplete request, whole, after a landing timeout, up to 4 times; then its transfer
fails. -/
def execGranuleResend (p : PlotIx) (tag : BitVec 12) (s : State) : Res :=
  match (s.plot p.val).agent.find? (fun q => q.tag == tag) with
  | none => .next s
  | some q =>
    if s.ns < q.since + s.landingNs then .next s
    else if 4 ≤ q.retries then .next (s.agentFail p q 6)
    else
      let s := s.modPlot p.val (fun x => { x with agent := x.agent.map (fun r =>
        if r.tag = tag then { r with retries := r.retries + 1, since := s.ns, got := [] } else r) })
      .next (s.emits (s.agentPackets p.val q))

/-! ### Scrub, repair and failure (R328, R329) -/

/-- Lines of a stack, reserve included: 2^36 bytes (R316). -/
def stackLines : Nat := 2 ^ 30

/-- Granules of a pseudo-channel (R318). -/
def pcGranules : Nat := 3906250

/-- The module address of granule u of pseudo-channel pc of stack k: the inverse of R318's hash, by search over
the 24 remainders. -/
def granuleAddr (k pc u : Nat) : Nat :=
  let q := 64 * u + (pc ^^^ (u % 64))
  let r := ((List.range 24).find? (fun r => (r + q + q / 24 + q / 576) % 24 == k)).getD 0
  256 * (24 * q + r)

/-- The line that stands at position i of a scrub pass of stack k, if one does (R317, R328): its pseudo-channels in order, then its
reserve, that is the 4 replacements, then the remapped rows. A place that a replacement or remapping has left holds none (log 117). -/
def Stack.lineAt (x : Stack) (k i : Nat) : Option Nat :=
  let line := fun (pc l : Nat) => granuleAddr k pc (l / 4) / 64 + l % 4
  if i < 1000000000 then
    let pc := i / 15625000
    let n := line pc (i % 15625000)
    if x.placeOf pc (i % 15625000 / 4) ≠ pc ∨ x.remap.contains (hbmRow n) then none else some n
  else if i < 1062500000 then
    let r := (i - 1000000000) / 15625000
    let l := i % 15625000
    ((List.range 64).find? (fun pc => x.placeOf pc (l / 4) == 64 + r)).map (fun pc => line pc l)
  else
    let l := (i - 1062500000) % 16
    ((x.remap.drop ((i - 1062500000) / 16)).head?).map (fun row => line (row / 1000000) (16 * (row % 1000000) + l))

/-- R317, R322, R328, R331: patrol scrub reads the next line of a stack, which corrects or poisons it as any read does; it pauses
while the stack trains. -/
def execHbmPatrolScrub (k : StackIx) (line : Nat) (s : State) : Res :=
  let x := s.stack k.val
  let at_ := x.lineAt k.val x.scrubPos
  onlyIf (x.state == 0 && (at_.map (· == line)).getD true) s
    ((if at_.isSome then (s.lineRead line).2 else s).modStack k.val (fun x =>
      if x.scrubPos + 1 = stackLines then { x with scrubPos := 0, rowCorr := [], pcUnc := [] }
      else { x with scrubPos := x.scrubPos + 1 }))

/-- R328: a failed pseudo-channel's granules move, one at a time and in order, into one of the stack's 4
replacements; a line that cannot be read corrected arrives poisoned. One whose replacement serves does not move again. -/
def execPcReplacement (k : StackIx) (pc : Fin 64) (s : State) : Res :=
  let x := s.stack k.val
  let serves := ((tget? x.pcMap pc.val).map (fun r => !x.spareFailed.getLsbD r)).getD false
  if x.state = 2 then .next s
  else match x.pcMove with
    | none =>
      if serves then .next s
      else
        let s := s.failPc k.val pc.val
        if (s.stack k.val).state = 2 then .next s
        else if 4 ≤ (s.stack k.val).pcReplacements then .next (s.failStack k.val)
        else .next (s.modStack k.val (fun y => { y with
          pcReplacements := y.pcReplacements + 1, pcMove := some (pc.val, 0) }))
    | some (c, u) =>
      if c ≠ pc.val then .next s
      else
        let line := granuleAddr k.val c u / 64
        let s := s.each [0, 1, 2, 3] (fun s i =>
          let r := s.lineRead (line + i)
          r.2.linePut (line + i) r.1.1 r.1.2)
        .next (s.modStack k.val (fun y =>
          if y.pcMove.isNone then y
          else if u + 1 = pcGranules then { y with pcMove := none, pcMap := tset y.pcMap c (y.pcReplacements - 1) }
          else { y with pcMove := some (c, u + 1) }))

/-- R329: the stack is marked failed and event 0x0003 is pushed; the module stays Ready. -/
def execStackFailed (k : StackIx) (s : State) : Res := .next (s.failStack k.val)

/-! ### Training (R330, R331) -/

/-- A stack must retrain: interface errors, or a temperature that has moved by more than 20 °C, in steps of 0.125 °C, since its last
training (R330). -/
def Stack.needs (x : Stack) : Bool :=
  x.due || decide (160 < (x.temperature.toInt - x.lastTrainTemp.toInt).natAbs)

/-- In compatibility training one stack retrains at a time, in stack order (R331). -/
def State.mayTrain (s : State) (k : Nat) : Bool :=
  s.lodge.set.hbmTraining == 0 ||
    (List.range 24).all (fun j => (s.stack j).state != 1) &&
    (List.range k).all (fun j => (s.stack j).state != 0 || !(s.stack j).needs)

/-- The packets that waited for a stack go on, in order. -/
def State.granulesGoOn (s : State) (n : Nat) : State :=
  let l := (s.seg n).waiting
  (s.modSeg n (fun x => { x with waiting := [] })).each l (fun s k => s.granuleAt k)

/-- R330, R331: a stack, at the temperature it reports, retrains when it must, while requests to it wait; when it trains already, its
training ends: it serves again, or fails under R329 when its interface cannot be retrained. -/
def execHbmRetrain (k : StackIx) (temp : BitVec 32) (ok : Bool) (s : State) : Res :=
  let s := s.modStack k.val (fun x => { x with temperature := temp })
  let x := s.stack k.val
  if x.state = 1 ∧ x.trained then
    .next ((if ok then s.modStack k.val (fun x => { x with state := 0, lastTrainTemp := x.temperature, due := false })
      else s.failStack k.val).granulesGoOn (k.val / 3))
  else onlyIf (x.state == 0 && x.needs && s.mayTrain k.val) s (s.modStack k.val (fun x => { x with state := 1 }))

end Sys2Proof.Machine
end

