-- ==== Sys2Proof/Machine/Dict.lean ====
section
/-! DEFINITION. The object dictionary (R345–R359): which objects exist, their access codes, what each reads as,
and the checks of an access. What a write does stands in Machine/DictWrite.lean. -/

namespace Sys2Proof.Machine

/-- Access codes (R346). -/
inductive Access where
  | ro | rw | wo | rws | rwa | rwv
  deriving DecidableEq, Repr

/-- An object: access code, and its size in bytes, 0 for a size that varies (VSTR, DOM). -/
structure Obj where
  acc : Access
  size : Nat
  deriving DecidableEq, Repr

/-- The rows of an index: (access, size) of sub-indices 1, 2, … (R355). -/
def objRows (i : Nat) : List (Access × Nat) :=
  if i = 0x1000 then [(.ro, 0), (.ro, 0), (.ro, 0), (.ro, 8), (.ro, 2), (.ro, 4), (.ro, 4), (.ro, 2), (.ro, 2)]
  else if i = 0x1100 then
    [(.rw, 1), (.wo, 9), (.ro, 1), (.ro, 1), (.rw, 2), (.rw, 1), (.rw, 2), (.ro, 1), (.ro, 4), (.ro, 4), (.ro, 1)]
  else if i = 0x1800 then [(.rw, 1), (.rw, 8), (.ro, 4), (.ro, 4)]
  else if i = 0x2000 then
    [(.rw, 1), (.rw, 1), (.rw, 1), (.rw, 1), (.rw, 1), (.rw, 1), (.rw, 1), (.rw, 4), (.rw, 1), (.rw, 1)]
  else if 0x2100 ≤ i ∧ i < 0x2138 then
    [(.rwa, 1), (.ro, 1), (.ro, 1), (.ro, 1), (.ro, 1), (.ro, 2), (.ro, 32), (.ro, 4), (.ro, 192), (.ro, 4),
      (.ro, 4), (.ro, 4), (.ro, 4), (.ro, 0)]
  else if 0x2200 ≤ i ∧ i < 0x22E0 then
    [(.ro, 1), (.rwa, 1), (.ro, 4), (.ro, 64), (.ro, 2), (.ro, 4), (.ro, 4), (.ro, 8), (.rwa, 8), (.ro, 4),
      (.ro, 4), (.ro, 2), (.ro, 4), (.ro, 512), (.ro, 8), (.ro, 13056), (.ro, 4), (.ro, 4)]
  else if 0x2400 ≤ i ∧ i < 0x2410 then
    [(.rw, 1), (.rw, 8), (.rw, 1), (.rw, 1), (.rw, 128), (.rwa, 1), (.rw, 1), (.rw, 4), (.rwa, 1), (.rw, 2),
      (.rw, 1), (.rw, 2), (.rwa, 1), (.ro, 2), (.ro, 1)]
  else if 0x2500 ≤ i ∧ i < 0x2504 then [(.rw, 1), (.ro, 2), (.rws, 1), (.rws, 1), (.ro, 64)]
  else if 0x2510 ≤ i ∧ i < 0x2520 then [(.rws, 1), (.rw, 1), (.rws, 2), (.rws, 6), (.ro, 4), (.ro, 64)]
  else if 0x2600 ≤ i ∧ i < 0x2618 then [(.ro, 1), (.ro, 4), (.ro, 8), (.ro, 1), (.ro, 4), (.ro, 4), (.ro, 4)]
  else if i = 0x3000 then [(.rw, 4), (.ro, 4), (.ro, 1608), (.ro, 4), (.ro, 4)]
  else if i = 0x3100 then [(.rw, 4), (.rwv, 4), (.ro, 4), (.ro, 224)]
  else if i = 0x3200 then [(.ro, 8), (.ro, 1), (.ro, 8), (.ro, 8)]
  else if i = 0x3300 then [(.ro, 4), (.ro, 112), (.ro, 224)]
  else if i = 0x4000 then [(.ro, 4), (.ro, 4), (.rws, 1)]
  else if 0x4000 < i ∧ i < 0x4040 then [(.ro, 1), (.ro, 0), (.rw, 0), (.ro, 32), (.ro, 1), (.wo, 1)]
  else if i = 0x5000 then [(.ro, 4), (.ro, 12), (.ro, 4)]
  else if i = 0x5080 then [(.ro, 4), (.rwa, 4), (.ro, 64), (.ro, 4), (.wo, 1)]
  else if i = 0x5100 then [(.rw, 4), (.rw, 0), (.ro, 1), (.ro, 8), (.ro, 4)]
  else if i = 0x6000 then [(.wo, 32), (.ro, 0), (.ro, 0), (.ro, 4), (.wo, 0)]
  else if 0x7000 ≤ i ∧ i < 0x7100 then [(.ro, 1), (.ro, 8), (.ro, 8), (.ro, 2), (.ro, 2)]
  else if i = 0x7F00 then List.replicate 255 (.rwv, 0)
  else []

def objAt (i sub : Nat) : Option Obj :=
  if (objRows i).isEmpty then none
  else if sub = 0 then some { acc := .ro, size := 1 }
  else ((objRows i)[sub - 1]?).map (fun e => { acc := e.1, size := e.2 })

/-- Objects marked "block write only" (R342). -/
def blockOnly (i sub : Nat) : Bool :=
  (decide (0x4000 < i ∧ i < 0x4040) && sub == 3) || (i == 0x5100 && sub == 2)

/-- Enable state codes (R350). -/
def Enable.code : Enable → Nat
  | .closed => 0
  | .opening => 1
  | .open_ => 2
  | .closing => 3
  | .closingPending => 4
  | .failed => 5

def Role.code : Role → Nat
  | .presented => 0
  | .reserve => 1
  | .retired => 2

/-- The module has an identity that this boot could unwrap (R530, R541). -/
def State.hasIdentity (s : State) : Bool := s.lodge.sec.identity && s.lodge.fingerprint

/-! ### What objects read as -/

/-- The express_withdrawn mask: bit 4d + j (R355). -/
def State.expressWithdrawn (s : State) (p : PlotIx) : Nat :=
  sumBy (List.range 16) (fun i =>
    if (s.link (.express p (Fin.ofNat 4 (i / 4)) (Fin.ofNat 4 i))).state = 2 then 2 ^ i else 0)

/-- The links that a plot's object lists: its 16 express links, the channels of its edges, its 17,408 cell-torus links, and
those of its attachment cells and port cells (R30, R282, R308, R355; the order is the model's, log 28). -/
def plotLinks (p : PlotIx) : List LinkId :=
  (List.range 16).map (fun i => LinkId.express p (Fin.ofNat 4 (i / 4)) (Fin.ofNat 4 i)) ++
  ((List.range 256).map (fun i => LinkId.prom p (Fin.ofNat 4 (i / 64)) (Fin.ofNat 64 i))).filter linkExists ++
  (List.range 17408).map (fun i =>
    LinkId.cellTorus p (Fin.ofNat 64 (i / 4)) (Fin.ofNat 68 (i / 256)) (Fin.ofNat 4 i)) ++
  (List.range 32).map (fun i => LinkId.attach p (Fin.ofNat 16 (i / 2)) (i % 2 == 1)) ++
  (List.range 8).map (fun i => LinkId.port (Fin.ofNat 224 (4 * p.val + i / 2)) (i % 2 == 1))

def linkBytes (x : Link) : List Byte := natLE 1 x.state.toNat ++ natLE 4 x.crc.toNat ++ natLE 8 x.bits.toNat

/-- Bits of a repair map: 16 per entry (R93). -/
def repairBytes (m : List (BitVec 16)) : List Byte := (m.map (fun e => natLE 2 e.toNat)).flatten

/-- Unused spare lines of a kind: 16 less the valid entries (R93, R355). -/
def sparesLeft (m : List (BitVec 16)) (column : Bool) : Nat :=
  16 - (m.filter (fun e => e.getLsbD 15 && (e.getLsbD 14 == column))).length

/-- A scoreboard entry as R201 lays it out; a limit of 2^22, past the garden's last row, has no bit above its 22-bit field and
reads 0 (log 105). -/
def SbEntry.toNat (e : SbEntry) : Nat :=
  2 ^ 63 + 2 ^ 61 * e.intent.toNat + (if e.stage then 2 ^ 60 else 0) + 2 ^ 57 * e.unit.toNat +
  2 ^ 55 * e.stream + 2 ^ 33 * e.base + 2 ^ 11 * (e.limit % 2 ^ 22)

/-- The alarm summary: bit c − 1 while event c's condition holds (R355). -/
def State.alarmBits (s : State) : Nat :=
  let on := fun (c : Nat) (b : Bool) => if b then 2 ^ (c - 1) else 0
  let full := if s.orderB then 192 else 208
  on 1 (decide (s.presentedNow < full)) +
  on 2 ((List.range 224).any (fun p => (s.pav p).forecast.any (fun e => e.2.disabled))) +
  on 3 ((List.range 24).any (fun k => (s.stack k).state == 2)) +
  on 4 ((List.range 56).any (fun p => (s.plot p).warned)) +
  on 5 ((List.range 56).any (fun p => (s.plot p).powerState == 2 || (s.plot p).powerState == 3)) +
  on 6 s.lodge.tripLow +
  on 7 (s.links.any (fun e => e.2.state == 2)) +
  on 11 (s.lodge.everLocked && !s.lodge.timeLocked) +
  on 12 s.lodge.sec.debugOpened +
  on 13 ((List.range 16).any (fun a => (s.allot a).enable == .open_ && (s.reservesOf a).isEmpty))

def Progress.idle : Progress :=
  { state := 0, position := 0, total := 0, subject := 0, owner := none, ended := 0 }

def Progress.permille (x : Progress) : Nat :=
  if x.total = 0 then 0 else min 1000 (1000 * x.position.toNat / x.total.toNat)

def Image.none_ : Image := { content := [], status := 0, writer := none }

def State.image (s : State) (n : Nat) : Image := tget Image.none_ s.lodge.images n

def State.imageBytes (s : State) : Nat := sumBy s.lodge.images (fun e => e.2.content.length)

def Rail.zero : Rail := { mv := 0, setpoint := 0, amps := 0 }

/-- Lines: U32 words of a table of counters. -/
def counterBytes (t : Tab Word) (n : Nat) : List Byte :=
  ((List.range n).map (fun i => natLE 4 (tget 0 t i).toNat)).flatten

/-- The reader that a requester is (R356). -/
def State.readerOf (s : State) : Requester → Reader
  | .ring st _ => .station st.toNat
  | .mailbox h f => .mailbox ((s.allotOfFn h.val f.val).getD 0)

/-- The records that a reader sees, with its numbering (R356, R359). -/
def State.recordsFor (s : State) (r : Reader) : List (Nat × ErrRec) :=
  s.lodge.log.filterMap (fun e => (e.numberFor r).map (fun n => (n, e)))

/-- A reader's position, moved up to the oldest record held (R355). -/
def State.readPos (s : State) (r : Reader) : Nat :=
  let p := (aget ReaderPos.start s.lodge.readers r).position
  match s.recordsFor r with
  | [] => p
  | e :: _ => max p e.1

def boolNat (b : Bool) : Nat := if b then 1 else 0

/-- The module's identity (R355). -/
def State.identityValue (s : State) (sub : Nat) : List Byte :=
  let l := s.lodge
  match sub with
  | 1 => ascii "Gelbuson"
  | 2 => ascii "Ixost Wabuaris"
  | 3 => ascii (if s.orderB then "IXW-840-B" else "IXW-840-A")
  | 4 => natLE 8 l.serial.toNat
  | 5 => natLE 2 l.hwRevision.toNat
  | 6 => natLE 4 l.fw.version.toNat
  | 7 => natLE 4 0x840
  | 8 => natLE 2 s.presentedNow
  | _ => natLE 2 s.reservesNow

/-- Ring communication (R355). -/
def State.ringValue (s : State) (sub : Nat) : List Byte :=
  let l := s.lodge
  match sub with
  | 1 => natLE 1 l.set.station.toNat
  | 3 => natLE 1 (boolNat l.portA)
  | 4 => natLE 1 (boolNat l.portB)
  | 5 => natLE 2 l.set.watchdog.toNat
  | 6 => natLE 1 l.timeMaster.toNat
  | 7 => natLE 2 l.syncInterval.toNat
  | 8 => natLE 1 (boolNat l.timeLocked)
  | 9 => natLE 4 l.framesBad.toNat
  | 10 => natLE 4 l.tagsBad.toNat
  | _ => natLE 1 (boolNat l.relay)

/-- Events (R355). -/
def State.eventsValue (s : State) (sub : Nat) : List Byte :=
  let l := s.lodge
  match sub with
  | 1 => natLE 1 l.set.eventStation.toNat
  | 2 => natLE 8 l.eventMask.toNat
  | 3 => natLE 4 l.eventsLost.toNat
  | _ => natLE 4 s.alarmBits

/-- Module-wide settings (R355). -/
def State.moduleValue (s : State) (sub : Nat) : List Byte :=
  let l := s.lodge
  match sub with
  | 1 => natLE 1 l.moduleState.toNat
  | 2 => natLE 1 l.set.autoStart.toNat
  | 3 => natLE 1 l.forecastWindow.toNat
  | 4 => natLE 1 l.forecastThreshold.toNat
  | 5 => natLE 1 l.stallLimit.toNat
  | 6 => natLE 1 l.tagTimeout.toNat
  | 7 => natLE 1 l.skewTimeout.toNat
  | 8 => natLE 4 l.landingTimeout.toNat
  | 9 => natLE 1 l.set.hbmTraining.toNat
  | _ => natLE 1 l.set.laneRetrain.toNat

/-- Plot p (R355). -/
def State.plotValue (s : State) (p : Nat) (sub : Nat) : List Byte :=
  let x := s.plot p
  match sub with
  | 1 => natLE 1 x.enable.code
  | 2 => natLE 1 ((s.ownerOf p).getD 0xFF)
  | 3 => natLE 1 x.powerState.toNat
  | 4 => natLE 1 ((pavsOf p).filter s.reserveWorks).length
  | 5 => natLE 1 (64 - x.remap.length)
  | 6 => natLE 2 (s.expressWithdrawn (Fin.ofNat 56 p))
  | 7 => natLE 32 x.promWithdrawn.toNat
  | 8 => natLE 4 x.promCorrected.toNat
  | 9 => counterBytes (x.settleStalls s.ns).skewStalls 48
  | 10 => natLE 4 x.skewFaults.toNat
  | 11 => natLE 4 x.circuitFaults.toNat
  | 12 => natLE 4 x.stranded.toNat
  | 13 => natLE 4 x.discarded.toNat
  | _ => ((plotLinks (Fin.ofNat 56 p)).map (fun k => linkBytes (s.link k))).flatten

/-- Pavilion p (R355). -/
def State.pavValue (s : State) (p : Nat) (sub : Nat) : List Byte :=
  let x := s.pav p
  match sub with
  | 1 => natLE 1 x.role.code
  | 2 => natLE 1 x.enable.code
  | 3 => natLE 4 x.ve.sticky.toNat
  | 4 => repairBytes x.repair
  | 5 => natLE 2 (sparesLeft x.repair false * 256 + sparesLeft x.repair true)
  | 6 => natLE 4 x.overfull.toNat
  | 7 => natLE 4 x.fallbacks.toNat
  | 8 => natLE 8 (sumBy x.forecast (fun e => if e.2.disabled then 2 ^ e.1 else 0))
  | 9 => natLE 8 0
  | 10 => natLE 4 x.recordFaults.toNat
  | 11 => natLE 4 x.streamFaults.toNat
  | 12 => natLE 2 x.seq.cadEntry
  | 13 => natLE 4 x.cadenceFaults.toNat
  | 14 => bslice ((x.seq.sb.map (fun e => natLE 8 e.toNat)).flatten) 0 512
  | 15 => natLE 8 x.pool.toNat
  | 16 => ((List.range 1088).map (fun n =>
      let e := tget EccCount.zero x.ecc n
      natLE 4 e.corrected.toNat ++ natLE 4 e.uncorrectable.toNat ++ natLE 4 e.dropped.toNat)).flatten
  | 17 => natLE 4 x.lastFault.toNat
  | _ => natLE 4 x.checkFaults.toNat

/-- Allotment a (R355). -/
def State.allotValue (s : State) (a : Nat) (sub : Nat) : List Byte :=
  let x := s.allot a
  match sub with
  | 1 => natLE 1 x.enable.code
  | 2 => natLE 8 x.plots.toNat
  | 3 => natLE 1 x.hostPort.toNat
  | 4 => natLE 1 x.pf.toNat
  | 5 => bslice ((x.ranges.map (fun e => natLE 4 e.1.toNat ++ natLE 4 e.2.toNat)).flatten) 0 128
  | 6 => natLE 1 x.weight.toNat
  | 7 => natLE 1 x.attach.toNat
  | 8 => natLE 4 x.queuePairs.toNat
  | 9 => natLE 1 x.failFast.toNat
  | 10 => natLE 2 x.serverPorts.toNat
  | 11 => natLE 1 x.bar4.toNat
  | 12 => natLE 2 x.msix.toNat
  | 13 => natLE 1 x.overlay.toNat
  | 14 => natLE 2 (s.presentedIn a)
  | _ => natLE 1 (s.reservesOf a).length

/-- A host port (R355). -/
def State.hostValue (s : State) (k : Nat) (sub : Nat) : List Byte :=
  let l := s.lodge
  let x := s.hostPort k
  match sub with
  | 1 => natLE 1 x.enable.code
  | 2 => natLE 2 (if x.linkUp then 256 * x.width.toNat + x.rate.toNat else 0)
  | 3 => natLE 1 (lget 1 l.set.l0p k).toNat
  | 4 => natLE 1 (lget 1 l.set.ide k).toNat
  | _ => counterBytes x.errors 16

/-- A server port (R355). -/
def State.srvValue (s : State) (k : Nat) (sub : Nat) : List Byte :=
  let x := s.srv k
  match sub with
  | 1 => natLE 1 x.mode.toNat
  | 2 => natLE 1 x.enable.code
  | 3 => natLE 2 x.ethertype.toNat
  | 4 => (natLE 6 x.mac.toNat).reverse
  | 5 => natLE 4 x.ber.toNat
  | _ => counterBytes x.counters 16

/-- An HBM stack (R355). -/
def State.stackValue (s : State) (k : Nat) (sub : Nat) : List Byte :=
  let x := s.stack k
  match sub with
  | 1 => natLE 1 x.state.toNat
  | 2 => natLE 4 x.temperature.toNat
  | 3 => natLE 8 x.pcFailed.toNat
  | 4 => natLE 1 x.pcReplacements
  | 5 => natLE 4 x.corrected.toNat
  | 6 => natLE 4 x.uncorrectable.toNat
  | _ => natLE 4 x.rowsRepaired.toNat

/-- Power (R355). -/
def State.powerValue (s : State) (sub : Nat) : List Byte :=
  let l := s.lodge
  match sub with
  | 1 => natLE 4 l.set.powerCap.toNat
  | 2 => natLE 4 l.power.toNat
  | 3 => ((List.range 201).map (fun k =>
      let x := tget Rail.zero l.rails k
      let g := tget { pg := false, alert := false, halved := false } l.groups (groupOf k)
      natLE 2 x.mv.toNat ++ natLE 2 x.setpoint.toNat ++ natLE 2 x.amps.toNat ++ natLE 1 (boolNat g.pg) ++
        natLE 1 (boolNat g.alert))).flatten
  | 4 => natLE 4 l.holdup.toNat
  | _ => natLE 4 l.shorts.toNat

/-- Heat (R355). -/
def State.thermalValue (s : State) (sub : Nat) : List Byte :=
  let l := s.lodge
  match sub with
  | 1 => natLE 4 l.warn.toNat
  | 2 => natLE 4 l.shed.toNat
  | 3 => natLE 4 880
  | _ => ((List.range 56).map (fun p => natLE 4 (s.plot p).temp.toNat)).flatten

/-- Clocks (R355). -/
def State.clockValue (s : State) (sub : Nat) : List Byte :=
  match sub with
  | 1 => natLE 8 (sumBy (List.range 56) (fun p => if (s.plot p).pll then 2 ^ p else 0))
  | 2 => natLE 1 (sumBy (List.range 8) (fun n => if (s.seg n).pll then 2 ^ n else 0))
  | 3 => natLE 8 (sumBy (List.range 56) (fun p => if (s.plot p).derated then 2 ^ p else 0))
  | _ => natLE 8 s.ns

/-- Ageing (R355). -/
def State.ageingValue (s : State) (sub : Nat) : List Byte :=
  match sub with
  | 1 => natLE 4 600
  | 2 => ((List.range 56).map (fun p => natLE 2 (lget 0 (s.plot p).plan 0))).flatten
  | _ => ((List.range 56).map (fun p => natLE 4 (s.plot p).life.toNat)).flatten

/-- The image store (R355). -/
def State.storeValue (s : State) (sub : Nat) : List Byte :=
  let l := s.lodge
  match sub with
  | 1 => natLE 4 67108864
  | 2 => natLE 4 s.imageBytes
  | _ => natLE 1 l.set.activeBase.toNat

/-- An image slot (R355). -/
def State.imageValue (s : State) (k : Nat) (sub : Nat) : List Byte :=
  let x := s.image k
  let h := imgHeader x.content
  match sub with
  | 1 => natLE 1 (if x.status = 0 then 0 else h.kind)
  | 2 => if x.status = 0 then [] else h.name.takeWhile (fun b => b != 0)
  | 3 => x.content
  | 4 => if x.content.isEmpty then List.replicate 32 0 else shake256 x.content 32
  | 5 => natLE 1 x.status.toNat
  | _ => []

/-- Faults (R355). -/
def State.recoveryValue (s : State) (sub : Nat) : List Byte :=
  let l := s.lodge
  match sub with
  | 1 => natLE 4 l.replays.toNat
  | 2 => (l.shuffles.map (fun w => natLE 4 w.toNat)).flatten
  | _ => natLE 4 (min 0xFFFFFFFF (sumBy (List.range 56) (fun p => (s.plot p).coal.overflow.toNat)))

/-- The error log (R355). -/
def State.logValue (s : State) (r : Requester) (sub : Nat) : List Byte :=
  match sub with
  | 1 => natLE 4 (s.recordsFor (s.readerOf r)).length
  | 2 => natLE 4 (s.readPos (s.readerOf r))
  | _ => []

/-- Drills (R355). -/
def State.drillValue (s : State) (sub : Nat) : List Byte :=
  let l := s.lodge
  match sub with
  | 1 => natLE 4 l.drillInterval.toNat
  | 2 => (l.drill.map (·.content)).getD []
  | 3 => natLE 1 l.drillStatus.toNat
  | 4 => natLE 8 l.drillRuns.toNat
  | _ => natLE 4 l.drillFailures.toNat

/-- Security (R355). -/
def State.securityValue (s : State) (sub : Nat) : List Byte :=
  let l := s.lodge
  match sub with
  | 3 => if s.hasIdentity then Config.identityKey else []
  | 4 => natLE 4 l.opened.toNat
  | _ => []

/-- Progress (R355). -/
def State.progressValue (s : State) (k : Nat) (sub : Nat) : List Byte :=
  let l := s.lodge
  let x := tget Progress.idle l.progress k
  match sub with
  | 1 => natLE 1 x.state.toNat
  | 2 => natLE 8 x.position.toNat
  | 3 => natLE 8 x.total.toNat
  | 4 => natLE 2 x.permille
  | _ => natLE 2 x.subject.toNat

/-- The bytes that an object reads as, for objects without a read effect (R355). -/
def State.objValue (s : State) (r : Requester) (i sub : Nat) : List Byte :=
  if sub = 0 then natLE 1 (objRows i).length
  else if i = 0x1000 then s.identityValue sub
  else if i = 0x1100 then s.ringValue sub
  else if i = 0x1800 then s.eventsValue sub
  else if i = 0x2000 then s.moduleValue sub
  else if 0x2100 ≤ i ∧ i < 0x2138 then s.plotValue (i - 0x2100) sub
  else if 0x2200 ≤ i ∧ i < 0x22E0 then s.pavValue (i - 0x2200) sub
  else if 0x2400 ≤ i ∧ i < 0x2410 then s.allotValue (i - 0x2400) sub
  else if 0x2500 ≤ i ∧ i < 0x2504 then s.hostValue (i - 0x2500) sub
  else if 0x2510 ≤ i ∧ i < 0x2520 then s.srvValue (i - 0x2510) sub
  else if 0x2600 ≤ i ∧ i < 0x2618 then s.stackValue (i - 0x2600) sub
  else if i = 0x3000 then s.powerValue sub
  else if i = 0x3100 then s.thermalValue sub
  else if i = 0x3200 then s.clockValue sub
  else if i = 0x3300 then s.ageingValue sub
  else if i = 0x4000 then s.storeValue sub
  else if 0x4000 < i ∧ i < 0x4040 then s.imageValue (i - 0x4000) sub
  else if i = 0x5000 then s.recoveryValue sub
  else if i = 0x5080 then s.logValue r sub
  else if i = 0x5100 then s.drillValue sub
  else if i = 0x6000 then s.securityValue sub
  else if 0x7000 ≤ i ∧ i < 0x7100 then s.progressValue (i - 0x7000) sub
  else []

/-! ### Counters cleared when read (R346, R355) -/

def clearsOnRead (i sub : Nat) : Bool :=
  (i == 0x1100 && (sub == 9 || sub == 10)) || (i == 0x1800 && sub == 3) ||
  (decide (0x2100 ≤ i ∧ i < 0x2138) && (sub == 8 || sub == 9 || sub == 12 || sub == 13)) ||
  (decide (0x2200 ≤ i ∧ i < 0x22E0) && (sub == 6 || sub == 7)) ||
  (decide (0x2600 ≤ i ∧ i < 0x2618) && sub == 5)

/-- What a read of such a counter clears. -/
def State.clearCounter (s : State) (i sub : Nat) : State :=
  if i = 0x1100 then s.modLodge (fun l => if sub = 9 then { l with framesBad := 0 } else { l with tagsBad := 0 })
  else if i = 0x1800 then s.modLodge (fun l => { l with eventsLost := 0 })
  else if 0x2100 ≤ i ∧ i < 0x2138 then s.modPlot (i - 0x2100) (fun x => match sub with
    | 8 => { x with promCorrected := 0 }
    | 9 => { x.settleStalls s.ns with skewStalls := [] }
    | 12 => { x with stranded := 0 }
    | _ => { x with discarded := 0 })
  else if 0x2200 ≤ i ∧ i < 0x22E0 then
    s.modPav (i - 0x2200) (fun x => if sub = 6 then { x with overfull := 0 } else { x with fallbacks := 0 })
  else s.modStack (i - 0x2600) (fun x => { x with corrected := 0 })

/-! ### The log's own objects (R356) -/

/-- A read of 0x5080:03: the record at the reader's position; the position advances by 1. No record there
answers 0x0A03. -/
def State.logRead (s : State) (r : Reader) : Nat × List Byte × State :=
  let pos := s.readPos r
  match (s.recordsFor r).find? (fun e => e.1 == pos) with
  | some e => (0, natLE 64 e.2.toBits.toNat, s.modLodge (fun l => { l with
      readers := aset l.readers r { (aget ReaderPos.start l.readers r) with position := pos + 1 } }))
  | none => (0x0A03, [], s)

/-- A read of 0x5080:04 returns and clears the reader's lost count. -/
def State.lostRead (s : State) (r : Reader) : List Byte × State :=
  let x := aget ReaderPos.start s.lodge.readers r
  (natLE 4 x.lost.toNat, s.modLodge (fun l => { l with readers := aset l.readers r { x with lost := 0 } }))

/-! ### Checks of an access (R346–R348, R359, R503) -/

/-- The session of a ring requester, when one with that number is open for that station. -/
def State.sessionOf (s : State) : Requester → Option Session
  | .ring st n => s.lodge.sessions.find? (fun x => x.number == n && x.station == st && n != 0)
  | .mailbox _ _ => none

/-- The vendor unlock of R346 is in force for a requester (R539). -/
def State.unlocked (s : State) (r : Requester) : Bool :=
  match s.sessionOf r with
  | some x => match x.unlock with
    | some t => decide (s.ns < t)
    | none => false
  | none => false

/-- A read-only object in 0x1000–0x18FF may be read without a session (R347). -/
def sessionless (i : Nat) (o : Obj) : Bool := o.acc == .ro && decide (0x1000 ≤ i ∧ i ≤ 0x18FF)

/-- The allotment of a mailbox's function, if it has one. -/
def State.mailAllot (s : State) : Requester → Option Nat
  | .mailbox h f => s.allotOfFn h.val f.val
  | .ring _ _ => none

/-- The object concerns allotment a (R359). -/
def State.concerns (s : State) (a i : Nat) : Bool :=
  if 0x2100 ≤ i ∧ i < 0x2138 then s.ownerOf (i - 0x2100) == some a
  else if 0x2200 ≤ i ∧ i < 0x22E0 then s.allotOfPav (i - 0x2200) == some a
  else if 0x2400 ≤ i ∧ i < 0x2410 then i - 0x2400 == a
  else if 0x2500 ≤ i ∧ i < 0x2504 then (s.allot a).hostPort.toNat == i - 0x2500
  else if 0x2510 ≤ i ∧ i < 0x2520 then (s.allot a).serverPorts.getLsbD (i - 0x2510)
  else if 0x4000 < i ∧ i < 0x4040 then (s.allot a).overlay.toNat == i - 0x4000
  else false

/-- The object, or the one that a progress index names, is another allotment, or one of its plots, pavilions or ports (R359). -/
def State.foreign (s : State) (a i : Nat) : Bool :=
  let i := if 0x7000 ≤ i ∧ i < 0x7100 then (tget Progress.idle s.lodge.progress (i - 0x7000)).subject.toNat else i
  (List.range 16).any (fun b => b != a && decide (0x2100 ≤ i ∧ i < 0x2520) && s.concerns b i &&
    (!decide (0x2500 ≤ i ∧ i < 0x2504) || (s.allot b).live))

/-- What a mailbox may do with an object (R359): 0 both, or an abort code for a read and for a write. -/
def State.mailView (s : State) (h f i sub : Nat) (write : Bool) : Nat :=
  let l := s.lodge
  let ready := l.phase == .ready && l.moduleState != 0
  let open_ := i == 0x1000 || (i == 0x2000 && sub == 1)
  if !ready then
    (if (open_ || i == 0x7000) && !write then 0 else if write && (open_ || i == 0x7000) then 0x0A01 else 0x0A08)
  else match s.allotOfFn h f with
    | none => if open_ then (if write then 0x0A01 else 0) else 0x0A08
    | some a =>
      let o := objAt i sub
      let rwa := (o.map (fun x => x.acc == .rwa)).getD false
      let progress := decide (0x7000 ≤ i ∧ i < 0x7100)
      let subject := (tget Progress.idle l.progress (i - 0x7000)).subject.toNat
      let readable := i == 0x1000 || (i == 0x2000 && (sub == 0 || sub == 1 || decide (3 ≤ sub ∧ sub ≤ 8))) ||
        s.concerns a i || (i == 0x3100 && decide (sub ≤ 3)) || (i == 0x3200 && (sub == 0 || sub == 4)) ||
        (i == 0x5080 && sub != 5) || (i == 0x6000 && sub == 2) ||
        (progress && (s.concerns a subject || subject == 0x1000 || subject == 0x2000))
      if write then
        if i = 0x6000 ∧ sub = 1 then 0
        else if i = 0x5080 ∧ sub = 2 then 0
        else if s.concerns a i then
          (if rwa && !decide (0x2500 ≤ i ∧ i < 0x2520) && !decide (0x4000 ≤ i ∧ i < 0x4040) then 0 else 0x0A01)
        else if readable then 0x0A01
        else if s.foreign a i then 0x0A08 else 0x0A01
      else if readable then 0
      else if s.foreign a i then 0x0A08 else 0x0A01

/-- The check before a read (R346–R348): 0 or an abort code. -/
def State.readCheck (s : State) (r : Requester) (i sub : Nat) : Nat :=
  match r with
  | .ring st n =>
    let claim := ((s.sessionOf (.ring st n)).map (·.claim)).getD false
    if n ≠ 0 ∧ (s.sessionOf (.ring st n)).isNone then 0x0A07
    else if claim then 0x0A01
    else match objAt i sub with
    | none => if n = 0 then 0x0A07 else 0x0A08
    | some o =>
      if n = 0 ∧ !sessionless i o then 0x0A07
      else if o.acc = .wo then 0x0A01
      else if o.acc = .rwv ∧ i = 0x7F00 ∧ !s.unlocked r then 0x0A01
      else 0
  | .mailbox h f =>
    match objAt i sub with
    | none => 0x0A08
    | some o =>
      let v := s.mailView h.val f.val i sub false
      if v ≠ 0 then v else if o.acc = .wo then 0x0A01 else 0

/-- Objects that take ring writes before Ready (R503). -/
def earlyWritable (i sub : Nat) : Bool :=
  i == 0x1100 || i == 0x1800 || i == 0x2000 || (i == 0x3000 && sub == 1) || (i == 0x3100 && sub == 1) ||
    decide (0x4000 < i ∧ i < 0x4040)

/-- An object kept in flash (R355): those described so, the name of the active base image, which start-up reads (R367; log 127),
and the erasing of an image slot. -/
def keptInFlash (i sub : Nat) : Bool :=
  (i == 0x1100 && (sub == 1 || sub == 5)) || (i == 0x1800 && sub == 1) ||
  (i == 0x2000 && (sub == 2 || sub == 9 || sub == 10)) ||
  (decide (0x2500 ≤ i ∧ i < 0x2504) && (sub == 3 || sub == 4)) ||
  (decide (0x2510 ≤ i ∧ i < 0x2520) && (sub == 1 || sub == 4)) || (i == 0x3000 && sub == 1) ||
  (i == 0x4000 && sub == 3) || (decide (0x4000 < i ∧ i < 0x4040) && (sub == 3 || sub == 6)) || (i == 0x5100 && sub == 2)

/-- The 20 J of R494, in mJ. -/
def State.holdupLow (s : State) : Bool := decide (s.lodge.holdup.toNat < 20000)

/-- Another requester's transfer is in progress on the object (R349). -/
def State.transferred (s : State) (r : Reader) (i sub : Nat) : Bool :=
  s.lodge.transfers.any (fun t => t.write && t.index.toNat == i && t.sub.toNat == sub && t.reader != r)

/-- The check before a write of v (R345–R349, R503): 0 or an abort code. After a debug opening only the nonce of a report
may be written (R541; log 93). Range checks of single objects follow
in Machine/DictWrite.lean. -/
def State.writeCheck (s : State) (r : Requester) (i sub : Nat) (len : Nat) : Nat :=
  let station := match r with
    | .ring st n =>
      if n = 0 ∨ (s.sessionOf (.ring st n)).isNone then 0x0A07
      else if ((s.sessionOf (.ring st n)).map (·.claim)).getD false then 0x0A01 else 0
    | .mailbox _ _ => 0
  if station ≠ 0 then station
  else match objAt i sub with
  | none => 0x0A08
  | some o =>
    let view := match r with
      | .ring _ _ => 0
      | .mailbox h f => s.mailView h.val f.val i sub true
    if view ≠ 0 then view
    else if o.acc = .ro then 0x0A01
    else if o.acc = .rwv ∧ !s.unlocked r then 0x0A01
    else if o.acc = .rws ∧ s.lodge.moduleState ≠ 1 then 0x0A04
    else if s.lodge.phase ≠ .ready ∧ !earlyWritable i sub then 0x0A04
    else if s.lodge.sec.debugOpened && !s.hasIdentity && !(i == 0x6000 && sub == 1) then 0x0A04
    else if s.transferred (s.readerOf r) i sub then 0x0A04
    else if o.size ≠ 0 ∧ len ≠ o.size then 0x0A02
    else if keptInFlash i sub && s.holdupLow then 0x0A05
    else 0

end Sys2Proof.Machine
end

