-- ==== Sys2Proof/Machine/Units.lean ====
section
/-! DEFINITION. Clearing, powering, dealing and replacing pavilions and plots (R248, R250, R361, R449–R466,
R477, R484): the operations that resets, allotments, heat and recovery share. -/

namespace Sys2Proof.Machine

/-! ### Long operations (R357) -/

/-- Reports a long operation: its progress index, counted from 0x7000, state, position, total and subject. -/
def State.progressTo (s : State) (i state position total subject : Nat) : State :=
  s.modLodge (fun l => { l with progress := tmod Progress.idle l.progress i (fun x => { x with
    state := BitVec.ofNat 8 state, position := BitVec.ofNat 64 position, total := BitVec.ofNat 64 total,
    subject := BitVec.ofNat 16 subject, ended := s.ns }) })

/-- A long operation ends, 2 done or 3 failed: event 0x0009 and the waits on it (R343, R391). -/
def State.progressEnd (s : State) (i state : Nat) : State :=
  let x := tget Progress.idle s.lodge.progress i
  let s := s.progressTo i state x.total.toNat x.total.toNat x.subject.toNat
  let a := if 0x2400 ≤ x.subject.toNat ∧ x.subject.toNat < 0x2410 then x.subject.toNat - 0x2400 else 0x1F
  (s.event 0x0009 (0x7000 + i) (0x7000 + i) 1 a).wakeAll

/-- A free progress index of 0x7060–0x70FF, taken in turn (R399). -/
def Lodge.freeProgress (l : Lodge) : Option Nat :=
  ((List.range 160).map (fun k => 0x60 + (l.nextProgress + k) % 160)).find? (fun i =>
    (tget Progress.idle l.progress i).owner.isNone)

/-- Assigns an index of 0x7060–0x70FF to an operation; none when no index is free. -/
def State.assignProgress (s : State) (owner : Nat × Nat × Nat) (subject : Nat) : Option Nat × State :=
  match s.lodge.progress.find? (fun e => decide (0x60 ≤ e.1) && e.2.owner == some owner) with
  | some e => (some e.1, s)
  | none => match s.lodge.freeProgress with
    | some i => (some i, s.modLodge (fun l => { l with
        nextProgress := (i - 0x60 + 1) % 160
        progress := tset l.progress i { Progress.idle with
          state := 1, subject := BitVec.ofNat 16 subject, owner := some owner } }))
    | none => (none, s)

/-! ### Flash writes (R364, R493, R494) -/

/-- Queues a flash write of a region, of `sectors` sectors on each device. -/
def State.flashWrite (s : State) (r : FlashRegion) (slot sectors : Nat) : State :=
  s.modLodge (fun l => { l with
    flashJobs := l.flashJobs.filter (fun j => !(j.region == r && j.slot == slot && !j.onB && j.left == j.sectors)) ++
      [{ region := r, slot := slot, onB := false, left := sectors, sectors := sectors }] })

/-! ### Start-up steps (R496, R520) -/

/-- A plot that start-up carries on without: failed, closed, or off for a cause that outlives it. -/
def Plot.out (x : Plot) : Bool := x.enable == .failed || x.enable == .closed || x.offCause.isSome

/-- Whether each task of R520 has ended, in the order of the table, with the object it concerns. -/
def State.tasks (s : State) : List (Bool × Nat) :=
  let started := s.lodge.phase != .step1
  let segs := (List.range 8).map (fun n => (s.seg n).trainTask)
  (if s.lodge.computeReset then [] else
    [(started, 0x1000)] ++ segs.map (fun b => (b, 0x2000)) ++
    (List.range 24).map (fun k => ((s.stack k).task, 0x2600 + k))) ++
  (List.range 56).map (fun p => ((s.plot p).bistTask || (s.plot p).out, 0x2100 + p)) ++
  (List.range 56).map (fun p => ((s.plot p).dealTask || (s.plot p).out, 0x2100 + p)) ++
  (List.range 56).map (fun p => ((s.plot p).linkTask || (s.plot p).out, 0x2100 + p)) ++
  (if s.lodge.computeReset then [] else (List.range 8).map (fun n => ((s.seg n).linkTask, 0x2000)))

/-- Start-up moves on: steps 2 and 3 end when every segment has trained and every plot has ended BIST, and progress is
reported at 0x7000. -/
def State.settleStart (s : State) : State :=
  let l := s.lodge
  let segs := l.computeReset || (List.range 8).all (fun n => (s.seg n).trainTask)
  let s := if l.phase == .steps23 && segs && (List.range 56).all (fun p => (s.plot p).bistTask || (s.plot p).out) then
      s.modLodge (fun l => { l with phase := .step4, stepStart := tset l.stepStart 4 s.ns })
    else s
  if (tget Progress.idle s.lodge.progress 0).state == 1 then
    let ts := s.tasks
    s.progressTo 0 1 (ts.filter (·.1)).length ts.length (((ts.find? (fun t => !t.1)).map (·.2)).getD 0x1000)
  else s

/-- Step 1 ends: steps 2 and 3 begin. -/
def State.endStep1 (s : State) : State :=
  (s.modLodge (fun l => { l with
    phase := .steps23, stepStart := tset (tset l.stepStart 2 s.ns) 3 s.ns })).settleStart

/-- Step 1 ends once the module is on the ring and PG_g of all 17 groups is high (R496, R498). -/
def State.settleStep1 (s : State) : State :=
  if s.lodge.phase == .step1 && !s.lodge.relay &&
      (List.range 17).all (fun g => ((tget? s.lodge.groups g).map (·.pg)).getD false) then s.endStep1
  else s

/-! ### Repair maps and dummies (R24, R93, R456) -/

/-- A repair map entry of R93. -/
def repairEntry (column : Bool) (line : Nat) : BitVec 16 :=
  BitVec.ofNat 16 (0x8000 + (if column then 0x4000 else 0) + line % 1024)

/-- The repair map with a line retired; none when no spare of its kind is left. -/
def retireIn (m : List (BitVec 16)) (column : Bool) (line : Nat) : Option (List (BitVec 16)) :=
  let e := repairEntry column line
  if m.contains e then some m
  else if sparesLeft m column = 0 then none
  else match (List.range 32).find? (fun i => !(lget 0 m i).getLsbD 15) with
    | some i => some (m.set i e)
    | none => none

/-- The first working spare cell of a pavilion that is no dummy, one without keep copies before others (R24, R456; log 44). -/
def State.freeSpare (s : State) (p : Nat) : Option Nat :=
  let l := s.spareCells p
  (l.find? (fun k => !(s.pav p).keepsIn k)).or l.head?

/-- A remap entry of a presented position to a dummy (R455). -/
def remapEntry (q : Nat) (pos : Nat × Nat) (dummy : Nat) (rdead : Bool) : Remap :=
  { rdead := rdead, dx := Fin.ofNat 64 pos.1, dy := Fin.ofNat 68 pos.2
    ux := Fin.ofNat 64 (physLocal q dummy).1, uy := Fin.ofNat 68 (physLocal q dummy).2 }

/-- A dead router next to another one on a ring of the cell torus, which no skip link covers (R280, R300). -/
def Plot.nearDead (x : Plot) (pos : Nat × Nat) : Bool :=
  x.deadRouters.any (fun r => (r.1 == pos.1 && foldNear 68 r.2 pos.2) || (r.2 == pos.2 && foldNear 64 r.1 pos.1))

/-- The death of the router at a position that no skip link makes good: a port cell's, or one next to another dead router
(R25, R300). -/
def Plot.routerLost (x : Plot) (q : Nat) (pos : Nat × Nat) : Bool := decide (pos = portCell q) || x.nearDead pos

/-- At start-up or in a deal, cell n of a pavilion, whose physical cell has died, takes a dummy, zeroed (R501, R518); none
when its pavilion must be replaced (R24, R25, R300). The entry of a dummy that dies keeps its rdead (log 31). -/
def State.remapCell (s : State) (p n : Nat) (rdead : Bool) : Option (Nat × State) :=
  let q := p % 4
  let pos := cellLocal q n
  let at_ := physLocal q (s.physCell p n)
  let x := s.plot (plotOf p)
  match s.freeSpare p with
  | none => none
  | some d =>
    if 64 ≤ x.remap.length ∨ (rdead && x.routerLost q at_) = true then none
    else
      let dead := ((x.remapOf pos.1 pos.2).map (·.rdead)).getD rdead
      let s := s.modPlot (plotOf p) (fun x => { x with
        remap := x.remap.filter (fun r => !(r.dx.val == pos.1 && r.dy.val == pos.2)) ++ [remapEntry q pos d dead] })
      let s := s.modPav p (fun v => { v with garden := v.garden.zeroRows (4096 * d) 4096, cores := tdel v.cores n })
      some (d, s.record { s.pavRec p 0x11 3 1 0 with
        x := BitVec.ofNat 9 (64 * (plotOf p % 8) + pos.1), y := BitVec.ofNat 9 (68 * (plotOf p / 8) + pos.2) })

/-! ### Clearing (R248, R250) -/

/-- Engine-block state of R248 step 3. -/
def Pav.clearEngine (x : Pav) : Pav :=
  { x with
    me := { ME.cleared with
      passes := x.me.passes, colFault := x.me.colFault, nextPass := x.me.nextPass, retiring := x.me.retiring }
    ve := VE.cleared, inBuf := []
    seq := { x.seq with
      running := false, due := false, stopped := false, frozen := false, sb := [], posts := [],
      dma := List.replicate 4 none, streams := List.replicate 4 Strm.cleared } }

/-- Engine stage and engine-block state zeroed, as when E is switched on (R250). -/
def Pav.clearE (x : Pav) : Pav := { x.clearEngine with stage := Store.empty, stageHand := 0 }

/-- Garden zeroed, every tag empty, as when G is switched on (R250). -/
def Pav.clearG (x : Pav) : Pav :=
  { x.clearTags with garden := Store.empty, writeBacks := [], cores := [], handAll := 0, hands := [] }

/-- R248 steps 1–4 in one pavilion. -/
def Pav.scrub (x : Pav) : Pav :=
  { x.clearE.clearTags with garden := Store.empty, writeBacks := [] }

def State.eachPav (s : State) (plot : Nat) (f : Pav → Pav) : State :=
  s.each (pavsOf plot) (fun s p => s.modPav p f)

/-! ### Pavilions and plots that fail (R18, R502) -/

/-- A unit retirement record (R441, type 0x11). -/
def State.retireRec (s : State) (p kind severity : Nat) : State :=
  s.record (s.pavRec p 0x11 severity (if kind = 0 then 1 else if kind = 1 then 2 else 4) kind)

/-- A change of pavilion p that may fail it: an enable that waits behind its disable then fails, and event 0x0008 reports it (R354). -/
def State.changePav (s : State) (p : Nat) (f : Pav → Pav) : State :=
  let pending := (s.pav p).enable == .closingPending
  let s := s.modPav p f
  if pending && (s.pav p).enable == .failed then s.event 0x0008 5 (0x2200 + p) 2 ((s.allotOfPav p).getD 0x1F) else s

/-- A pavilion fails outside an allotment's work: a presented one keeps its index and reads failed, a reserve is
retired (R501, R502). -/
def State.failPav (s : State) (p : Nat) : State :=
  let s := s.retireRec p 2 3
  s.changePav p (fun x => match x.role with
    | .reserve => { x with role := .retired, enable := .failed }
    | _ => { x with enable := .failed })

/-- A pavilion that BIST fails (R502), once. -/
def State.bistFail (s : State) (p : Nat) : State := if (s.pav p).enable == .failed then s else s.failPav p

/-- A presented cell takes a dummy, or fails its pavilion. -/
def State.takeDummy (s : State) (p n : Nat) (rdead : Bool) : State :=
  match s.remapCell p n rdead with
  | some t => t.2
  | none => s.bistFail p

/-- A failed cell (R24, R25, R248, R300, R501): a presented one takes a dummy, a spare one is used no more, and a dummy's
position takes another. A cell that already has its dummy stays dead. A router whose death no skip link makes good fails the
pavilion. -/
def State.bistCell (s : State) (p cell : Nat) (rdead : Bool) : State :=
  let q := p % 4
  let l := physLocal q cell
  let s := s.cellDead p cell rdead
  if rdead && (s.plot (plotOf p)).routerLost q l then s.bistFail p
  else if isSpare q cell then
    match (s.plot (plotOf p)).remap.find? (fun r => r.ux.val == l.1 && r.uy.val == l.2) with
    | some r => match cellNumber q r.dx.val r.dy.val with
      | some n => s.takeDummy p n rdead
      | none => s
    | none => s
  else match cellNumber q l.1 l.2 with
    | some n =>
      if s.physCell p n ≠ cell then s else s.takeDummy p n rdead
    | none => s

/-! ### Dealing a pavilion's chunks (R361, R369) -/

/-- The chunks inside an alternate (log 21): U64 count, then 16-byte directory entries as R360 lays them out, with
offsets from the alternate's start. -/
def altChunks (c : Chunk) : List Chunk :=
  (List.range (leNat (bslice c.data 0 8))).map (fun i =>
    let v := leNat (bslice c.data (16 + 16 * i) 16)
    { ty := BitVec.ofNat 8 (bits v 127 120), parcel := c.parcel, target := BitVec.ofNat 12 (bits v 115 104),
      section_ := BitVec.ofNat 8 (bits v 103 96), alt := c.alt, data := bslice c.data (bits v 95 64) (bits v 63 32) })

/-- Records of a cell-code chunk (log 21): U32 cell, U32 entry point, U32 byte offset, U32 length, then the bytes. -/
def cellParts (d : List Byte) : Nat → List (Nat × Nat × Nat × List Byte)
  | 0 => []
  | n + 1 =>
    if d.length < 16 then [] else
      let len := leNat (bslice d 12 4)
      (leNat (bslice d 0 4), leNat (bslice d 4 4), leNat (bslice d 8 4), bslice d 16 len) ::
        cellParts (d.drop (16 + len)) n

/-- Writes bytes into a pavilion's garden by pavilion-local address, as the deal does. -/
def State.gardenLoad (s : State) (p a : Nat) (d : List Byte) : State :=
  s.each (List.range ((d.length + 63) / 64)) (fun s i =>
    let k := s.gardenRow p (a + 64 * i)
    s.modPav p (fun x => { x with garden := x.garden.putRow k (bslice d (64 * i) 64) false }))

/-- Deals the chunks of a target into physical pavilion p: program store, engine stage and cell code (types
0x02–0x04). -/
def State.dealPav (s : State) (p : Nat) (cs : List Chunk) : State :=
  s.each cs (fun s c => match c.ty.toNat with
    | 2 => s.stageLoad p 0x780000 c.data
    | 3 => s.stageLoad p 0 c.data
    | 4 => s.each (cellParts c.data c.data.length) (fun s e =>
        let s := s.gardenLoad p (0x40000 * e.1 + e.2.2.1) e.2.2.2
        s.modPav p (fun x => x.setCore e.1 { x.core e.1 with entry := some (BitVec.ofNat 32 e.2.1) }))
    | _ => s)

/-- Garden settings and tag plan of a target (types 0x08 and 0x09; log 21). Full/empty mode empties every tag
(R246). -/
def State.settingsPav (s : State) (p : Nat) (cs : List Chunk) : State :=
  s.each cs (fun s c => match c.ty.toNat with
    | 8 => s.modPav p (fun x =>
        let x := x.gardenMode c.data
        if x.fullEmpty then x.clearTags else x)
    | 9 => s.modPav p (fun x => { x with tagPlan := tagPlanOf c.data })
    | _ => s)

/-- The parcel's chunks for pavilion p in the section whose settings are in force. -/
def Allot.chunksOf (x : Allot) (p : Nat) : List Chunk :=
  sectionChunks (x.chunks.filter (fun c => c.target.toNat == p && c.ty != 0x0B)) x.nowSection

/-- Chunks with the replacements that one alternate brings (R362, R372). -/
def takeAlternate (cs alt : List Chunk) : List Chunk :=
  cs.map (fun k => (alt.find? (fun n => n.ty == k.ty && n.target == k.target && n.section_ == k.section_)).getD k)

/-- The alternates in force: those of the reserves that replace pavilions now. -/
def Allot.withAlternates (x : Allot) (cs : List Chunk) : List Chunk :=
  (x.pavMap.filter (fun m => !m.doubled)).foldl (fun cs m =>
    match cs.find? (fun c => c.ty == 0x0B && c.target.toNat == m.failed.val && c.alt.toNat == m.standIn.val) with
    | some c => takeAlternate cs (altChunks c)
    | none => cs) cs

/-! ### Moving a context (R458 steps 3 and 4) -/

/-- The presented cell that a physical cell of pavilion p answers for. -/
def State.cellOfPhys (s : State) (p k : Nat) : Option Nat :=
  (List.range 1024).find? (fun n => s.physCell p n == k)

/-- Copies listed rows with conditions, and the plain bytes beside them, under a renaming of rows. -/
def Store.copyRows (c : Code) (m : Store) (ren : Nat → Option Nat) (n : Nat) : Store :=
  let plain := m.bytes.foldl (fun (acc : List Host.Cell) e =>
    match ren (e.1 / 64) with
    | some r => memSet acc (64 * r + e.1 % 64) e.2
    | none => acc) []
  m.rows.foldl (fun (acc : Store) e =>
    match ren e.1 with
    | some r => let d := copiedMeta c m e.1 n; acc.putRow r d.1 d.2
    | none => acc) { bytes := plain, rows := [] }

/-- Every row of a store poisoned: what stands for contents that cannot be read. -/
def poisonedRows (rows : List Nat) : Store :=
  { bytes := [], rows := rows.map (fun r => (r, { poison := true, errs := 0 })) }

/-- Where row r of a context's garden in `src` goes in `dst`: by cell number, and its keep copies into the other keep store. -/
def State.contextRow (s : State) (src dst r : Nat) : Option Nat :=
  match s.cellOfPhys src (r / 4096) with
  | some n => some (s.physCell dst n * 4096 + r % 4096)
  | none => ((s.pav src).seq.keep.findIdx? (fun k => k.at_ == r)).map (keepSlot (s.spareCells dst))

/-- Copies the garden, engine stage, keep store and context of pavilion `src` into pavilion `dst`, zeroed first;
rows that cannot be read land poisoned. -/
def State.moveContext (s : State) (src dst : Nat) (readable : Bool) : State :=
  let x := s.pav src
  let garden := if readable then
      x.garden.copyRows sramCode (s.contextRow src dst) s.free
    else poisonedRows ((List.range 1024).flatMap (fun n =>
      (List.range 4096).map (fun i => s.physCell dst n * 4096 + i)) ++ (rekeep (s.spareCells dst) x.seq.keep).map (·.at_))
  let stage := if readable then x.stage.copyRows sramCode some s.free else poisonedRows (List.range 131072)
  let s := if readable then s.fresh.2 else s
  s.modPav dst (fun y => { y.clearEngine with
    garden := garden, stage := stage, tags := x.tags, tagPlan := x.tagPlan, tagWaiters := []
    fullEmpty := x.fullEmpty, pool := x.pool, settingsDue := x.settingsDue
    cores := x.cores, dirty := x.dirty, handAll := x.handAll, hands := x.hands, stageHand := x.stageHand
    forecast := x.forecast, ve := x.ve
    seq := { x.seq with
      sb := [], posts := [], dma := List.replicate 4 none, keep := rekeep (s.spareCells dst) x.seq.keep } })

/-! ### Stand-ins (R458, R462, R463) -/

/-- The first alternate, in directory order, whose target is p and whose reserve works (R458 step 2). -/
def State.alternateFor (s : State) (a p : Nat) : Option Chunk :=
  let rs := s.reservesOf a
  (s.allot a).chunks.find? (fun c => c.ty == 0x0B && c.target.toNat == p && rs.contains c.alt.toNat)

/-- Hops between two plots on the express torus: each ring links its gates in a folded order (R29). -/
def ringDist (n i j : Nat) : Nat :=
  let d := (foldPos n i + n - foldPos n j) % n
  min d (n - d)

def plotHops (p q : Nat) : Nat := ringDist 8 (p % 8) (q % 8) + ringDist 7 (p / 8) (q / 8)

/-- The stand-in for doubling: a presented, working pavilion of the allotment with fewer than 3 partners, in the
same plot first, then by fewest hops, then by lowest index (R462). -/
def State.standInFor (s : State) (a p : Nat) : Option Nat :=
  let ok := (s.pavsOfAllot a).filter (fun d => d != p && s.works a d &&
    decide ((s.pav d).partners.length < 3) && (s.plot (plotOf d)).serves)
  let rank := fun d => 1000000 * (if plotOf d = plotOf p then 0 else 1) + plotHops (plotOf p) (plotOf d) * 1000 + d
  ok.foldl (fun m d => match m with
    | none => some d
    | some e => if rank d < rank e then some d else some e) none

/-- Bytes of a spill slot (R462). -/
def spillBytes : Nat := 272 * 2 ^ 20

/-- HBM bytes that the ranges of live allotments take. -/
def State.rangeTaken (s : State) (m len : Nat) : Bool :=
  (List.range 16).any (fun a => (s.allot a).live && (s.allot a).ranges.any (fun r =>
    decide (r.2.toNat ≠ 0 ∧ m < 10 ^ 9 * (r.1.toNat + r.2.toNat) ∧ 10 ^ 9 * r.1.toNat < m + len)))

/-- A free spill slot: outside every allotment first, at 1 GB marks and multiples of the slot size within them, then
in the free part of the allotment's stage area, below its keep area (R450, R463; log 29). -/
def State.freeSpill (s : State) (a : Nat) : Option Nat :=
  let used := (List.range 16).flatMap (fun b => (s.allot b).spills)
  let free := fun m => !used.any (fun u => decide (u < m + spillBytes ∧ m < u + spillBytes))
  let outside := (List.range 1536).flatMap (fun g => (List.range 3).map (fun i => 10 ^ 9 * g + i * spillBytes))
  match outside.find? (fun m => !s.rangeTaken m spillBytes && free m) with
  | some m => some m
  | none =>
    let x := s.allot a
    let stage := match x.parcel with
      | some (n, k) => parcelStage (imgChunks (s.image n).content) k
      | none => 0
    let top := 10 ^ 9 - 67108864
    match (List.range 3).find? (fun i => decide (stage + (i + 1) * spillBytes ≤ top) &&
        ((rangeAddr x.ranges (x.usable + stage + i * spillBytes)).map free).getD false) with
    | some i => rangeAddr x.ranges (x.usable + stage + i * spillBytes)
    | none => none

/-- Adds an entry to the allotment's pavilion map of 16 (R457), replacing the pavilion's earlier one. -/
def State.mapPav (s : State) (a p d : Nat) (doubled : Bool) : State :=
  s.modAllot a (fun x => { x with
    pavMap := x.pavMap.filter (fun m => m.failed.val != p) ++ [PavMap.mk (Fin.ofNat 224 p) (Fin.ofNat 224 d) doubled] })

/-- Stops the jobs that use a failed pavilion, when it can be neither replaced nor doubled (R463). -/
def State.noRemedy (s : State) (a p : Nat) : State :=
  (s.retireRec p 2 4).stopJob a stPoisoned (s.recordNumber (s.pavRec p 0x11 4 4 2))

/-- Tells hosts of the presented count after it changes (R466). -/
def State.presentedEvent (s : State) (a : Nat) : State := s.event 0x0001 s.presentedNow 0x1000 8 a

/-- A pavilion that a context leaves for good: retired and failed, or, in a plot that may return, a reserve once it is back
(R458, R461). -/
def Pav.leave (x : Pav) (retire : Bool) : Pav :=
  if retire then { x with role := .retired, enable := .failed, reduced := false }
  else { x with role := if x.enable = .failed then .retired else .reserve, reduced := false }

/-- Frees the spill slot of a context. -/
def State.freeSlot (s : State) (a c : Nat) : State :=
  match (s.pav c).doubled with
  | some d => s.modAllot a (fun x => { x with spills := x.spills.erase d.spill })
  | none => s

/-- A stand-in without partners gives back its own spill slot (R463). -/
def State.freeOwn (s : State) (a d : Nat) : State :=
  match (s.pav d).ownSpill with
  | some o =>
    if (s.pav d).partners.isEmpty then
      (s.modAllot a (fun x => { x with spills := x.spills.erase o })).modPav d (fun x => { x with ownSpill := none })
    else s
  | none => s

/-- Doubles pavilion p: its context goes to a stand-in's spill slot, and the stand-in's own context takes a slot
too when this is its first partner (R462, R463, R466). A context that is doubled again keeps its slot (R465). The pavilion
`left` that it leaves counts as a doubled one when it is p itself, which keeps its place, and as failed when it stood for
p. -/
def State.double (s : State) (a p src : Nat) (left : Option Nat) (readable retire : Bool) : State :=
  let slot := match (s.pav p).doubled with
    | some d => some d.spill
    | none => s.freeSpill a
  match s.standInFor a p, slot with
  | some d, some m =>
    let first := (s.pav d).ownSpill.isNone
    let taken := (s.allot a).spills
    let s := s.modAllot a (fun x => { x with spills := if x.spills.contains m then x.spills else x.spills ++ [m] })
    let own := if first then s.freeSpill a else none
    if first ∧ own.isNone then (s.modAllot a (fun x => { x with spills := taken })).noRemedy a p
    else
      let s := match own with
        | some o => (s.modAllot a (fun x => { x with spills := x.spills ++ [o] })).modPav d (fun x =>
            { x with ownSpill := some o })
        | none => s
      let s := if src = 224 + p then s else s.moveContext src (224 + p) readable
      let s := match left with
        | some l => s.changePav l (fun x => if l = p then { x with enable := if retire then .failed else x.enable, reduced := true }
            else x.leave retire)
        | none => s
      let s := s.modPav p (fun x => { x with doubled := some { standIn := d, spill := m }, outAt := s.ns })
      let s := s.modPav d (fun x => { x with partners := x.partners ++ [p] })
      let s := s.mapPav a p d true
      (s.retireRec p 2 4).presentedEvent a
  | _, _ =>
    ((((s.freeSlot a p).modPav p (fun x => { x with doubled := none })).modAllot a (fun x => { x with
      pavMap := x.pavMap.filter (fun m => !(m.failed.val == p && m.doubled)) }))).noRemedy a p

/-- Replaces pavilion p's context, held now by pavilion or spill slot `src`, by a reserve, or doubles it (R458, R462). `left`
is the pavilion that the context leaves for good, if it was not doubled; `retire` is false for pavilions of a plot that may
return (R461); `copy` is false when an allotment opens (R502). The presented count stays as it was: a pavilion that is
no longer doubled counts again only by R466. -/
def State.place (s : State) (a p src : Nat) (left : Option Nat) (readable copy retire : Bool) : State :=
  match s.alternateFor a p with
  | some c =>
    let r := c.alt.toNat
    let cs := altChunks c
    let low := match left with
      | some l => (s.pav l).reduced
      | none => true
    let s := s.modPav r (fun x => { x.clearE.clearTags with garden := Store.empty })
    let s := if copy then s.moveContext src r readable else s
    let sec := (s.allot a).nowSection
    let own := sectionChunks (cs.filter (fun k => k.target.toNat == p)) sec
    let s := (s.dealPav r own).settingsPav r own
    let s := s.modAllot a (fun x => { x with
      chunks := takeAlternate x.chunks cs })
    let s := s.each (s.plotsOf a) (fun s q =>
      if cs.any (fun k => k.target.toNat == 0x100 + q) then
        s.modPlot q (fun y => { y with promIdle := some (sec, promSetOf (s.allot a).chunks q sec) })
      else s)
    let s := s.mapPav a p r false
    let s := (s.freeSlot a p).modPav p (fun x => { x with doubled := none })
    let s := match left with
      | some l => s.changePav l (fun x => x.leave retire)
      | none => s.modPav p (fun x => if x.reduced && x.role == Role.presented then x.leave false else x)
    let s : State := { s with pavs := tdel s.pavs (224 + p) }
    let s := s.modPav r (fun x => { x with role := .presented, reduced := low })
    let s := s.retireRec p 2 3
    if (s.reservesOf a).isEmpty then s.event 0x000D a (0x2400 + a) 15 a else s
  | none => s.double a p src left readable retire

/-- A shuffle of an allotment's unit ends: counted, and the replay may run (R451 step 2, R467). -/
def State.shuffled (s : State) (a kind : Nat) : State :=
  let s := s.modLodge (fun l => { l with shuffles := l.shuffles.set kind (satInc (lget 0 l.shuffles kind)) })
  s.modAllot a (fun x => { x with
    frozen := x.frozen.map (fun f => { f with shuffle := false }), replayRow := 0 })

/-! ### Plots (R461, R478, R484) -/

/-- Pavilions of a plot that have a context of their own. -/
def State.carriedIn (s : State) (a plot : Nat) : List Nat := (pavsOf plot).filter (s.works a)

/-- Switches off a plot's E and G: contents are lost. -/
def State.offEG (s : State) (plot : Nat) (why : OffCause) (power : Nat) : State :=
  s.modPlot plot (fun x => { x with
    e := { x.e with on := false }, g := { x.g with on := false }
    offCause := some why, powerState := BitVec.ofNat 8 power, shedding := false, fenced := true, coolSince := none })

/-- The landing side of an endpoint loses its state with the domain that it lies in: a cell's with G, a DMA engine's with E, an
agent's with H (R250, R287, R469; log 95). -/
def inDomain (plot : Nat) (k : DomainKind) : Receiver → Bool
  | .cell c => k == .G && plotOfCell c.x.val c.y.val == plot
  | .dma p => k == .E && plotOf p.val == plot
  | .agent p => k == .H && p.val == plot
  | _ => false

def State.dropRxs (s : State) (plot : Nat) (k : DomainKind) : State :=
  { s with rxs := s.rxs.filter (fun e => !inDomain plot k e.1) }

/-- Switches a domain of a plot on, unless a short has opened it (R470, R477), and clears what it holds (R250). -/
def State.plotOn (s : State) (plot : Nat) (k : DomainKind) : State :=
  let x := s.plot plot
  match k with
  | .H => (s.modPlot plot (fun x => { x with
      h := { x.h with on := !x.h.shorted }, agent := [], agentWait := [] })).dropRxs plot .H
  | .G => if x.g.shorted then s else
      ((s.modPlot plot (fun x => { x with g := { x.g with on := true } })).eachPav plot Pav.clearG).dropRxs plot .G
  | .E => if x.e.shorted then s else
      ((s.modPlot plot (fun x => { x with e := { x.e with on := true } })).eachPav plot Pav.clearE).dropRxs plot .E

/-- The contexts that a pavilion carries, its own first and then its partners' by index (R465): index, where the contents
are now, and the pavilion itself where the context is its own. -/
def State.contextsOf (s : State) (a d : Nat) : List (Nat × Nat × Option Nat) :=
  ((s.allot a).targetOf d, (if (s.pav d).context = d then d else 448 + d), some d) ::
    (below 224 (fun c => (s.pav d).partners.contains c)).map (fun c => (c, s.mappedTo a c, none))

/-- Every context that a pavilion carries is placed again (R465); what a spill slot holds can be read. -/
def State.placeAll (s : State) (a d : Nat) (readable retire : Bool) : State :=
  let cs := s.contextsOf a d
  let s := s.modPav d (fun y => { y with partners := [] })
  let s := (s.freeOwn a d).modPav d (fun y => { y with context := d })
  let s := s.each cs (fun s c => s.place a c.1 c.2.1 c.2.2 (readable || decide (224 ≤ c.2.1)) true retire)
  { s with pavs := tdel s.pavs (448 + d) }

/-- R459: every context of the plot is placed in turn under one freeze; none stays in the plot. -/
def State.plotPlace (s : State) (a plot : Nat) (readable retire : Bool) : State :=
  let ds := s.carriedIn a plot
  let s := s.modPlot plot (fun x => { x with shedding := true })
  s.each ds (fun s d => s.placeAll a d readable retire)

/-- Freezes a plot's allotment for a plot shuffle (R484, R485); transparent policy replays, fail-fast stops the
job with POISONED (R373). -/
def State.freezePlot (s : State) (plot : Nat) (c : FreezeCause) : State :=
  match s.ownerOf plot with
  | some a => s.recover a c
  | none => s

/-- Working pavilions of a plot become reserves of its allotment, those too whose contexts are doubled (R461). -/
def State.toReserves (s : State) (plot : Nat) : State :=
  s.eachPav plot (fun x => if x.role != .retired && x.enable != .failed then
    { x with role := .reserve, reduced := false } else x)

/-- R484 steps 1–5, with a cause of its own: the section freezes, each context of the plot takes a stand-in and is
copied there, and E and G are switched off. -/
def State.shedPlot (s : State) (plot : Nat) (why : OffCause) (power : Nat) : State :=
  let s := match s.ownerOf plot with
    | some a => if (s.plot plot).offCause.isSome then s else (s.freezePlot plot .plotCut).plotPlace a plot true false
    | none => s
  s.offEG plot (if (s.plot plot).offCause = some .heat then .heat else why) power

/-- A plot comes back (R480, R487, R488): E and G on and cleared, its working pavilions reserves of its allotment. -/
def State.backPlot (s : State) (plot : Nat) : State :=
  let s := (s.plotOn plot .G).plotOn plot .E
  let s := s.modPlot plot (fun x => { x with
    offCause := none, fenced := false, shedding := false, coolSince := none
    powerState := if x.derated then 1 else 0 })
  if (s.ownerOf plot).isSome then s.toReserves plot else s

/-- A plot's H domain or a switch of it is lost, so that it cannot open (R350, R477, R488). -/
def Plot.dead (x : Plot) : Bool := !x.h.on || x.h.shorted || x.e.shorted || x.g.shorted || x.offCause == some .lost

/-- A closed plot opens (R488); it waits while it is shed or cut for heat. Pavilions that fail their drill read
failed. -/
def State.openPlot (s : State) (plot : Nat) (failedDrill : List Nat) : State :=
  let x := s.plot plot
  if x.dead then s.modPlot plot (fun x => { x with enable := .failed })
  else if x.offCause = some .heat then s.modPlot plot (fun x => { x with enable := .opening })
  else
    let s := s.each failedDrill (fun s q => s.modPav (4 * plot + q) (fun v => { v with enable := .failed }))
    (s.backPlot plot).modPlot plot (fun x => { x with enable := .open_ })

/-- Carries out a plot's disable, and then an enable that waits behind it (R354, R488), whose pavilions' drills end as they may. -/
def State.closePlot (s : State) (plot : Nat) : State :=
  let pending := (s.plot plot).enable == .closingPending
  let s := (s.shedPlot plot .disabled 4).modPlot plot (fun x => { x with enable := .closed })
  if pending then
    let n := s.free
    let s := s.fresh.2.openPlot plot ((List.range 4).filter (Config.free16 n).getLsbD)
    if (s.plot plot).enable == .opening then s.modPlot plot (fun x => { x with pendOpen := true })
    else s.event 0x0008 (s.plot plot).enable.code (0x2100 + plot) 1 ((s.ownerOf plot).getD 0x1F)
  else s

/-- An opening that waited ends: with event 0x0008 when it was a pending enable (R354). -/
def State.plotOpened (s : State) (plot : Nat) : State :=
  let pending := (s.plot plot).pendOpen
  let s := s.modPlot plot (fun x => { x with enable := .open_, pendOpen := false })
  if pending then s.event 0x0008 2 (0x2100 + plot) 1 ((s.ownerOf plot).getD 0x1F) else s

/-- R511: the allotment's LAUNCH job stops as under ABORT_JOB, engine block and stage are cleared, and the cores
restart in their monitors. -/
def State.closePav (s : State) (p : Nat) : State :=
  let s := match s.allotOfPav p with
    | some a => (s.modLaunch a (fun j => { j with aborted := j.aborted || j.ended.isNone })).stopJob a stRefusedState 0
    | none => s
  s.modPav p (fun x => { x.clearEngine with
    stage := Store.empty, enable := .closed, cores := x.cores.map (fun e => (e.1, e.2.restart)) })

/-- The enabling of a pavilion (R511): its chunks are dealt and it reads open; one that fails a drill reads failed and
is replaced without replay. -/
def State.openPav (s : State) (p : Nat) (drillOk : Bool) : State :=
  match s.allotOfPav p with
  | none => s.modPav p (fun x => { x with enable := if drillOk then .open_ else .failed })
  | some a =>
    if drillOk then
      let t := (s.allot a).targetOf p
      ((s.dealPav p ((s.allot a).chunksOf t)).settingsPav p ((s.allot a).chunksOf t)).modPav p (fun x =>
        { x with enable := .open_ })
    else
      let s := s.modPav p (fun x => { x with enable := .failed })
      if (s.pav p).role = .presented then (s.placeAll a p true true).shuffled a 1
      else s.failPav p

/-- Disables that waited for a shuffle of their allotment run, and the enables that wait behind them, with a drill that passes or not
(R354, R467, R511). -/
def State.afterShuffle (s : State) (a : Nat) : State :=
  let s := s.each ((s.plotsOf a).filter (fun p =>
    (s.plot p).enable == .closing || (s.plot p).enable == .closingPending)) (fun s p => s.closePlot p)
  s.each ((s.pavsOfAllot a).filter (fun p => (s.pav p).enable == .closing || (s.pav p).enable == .closingPending))
    (fun s p =>
      let pending := (s.pav p).enable == .closingPending
      let s := s.closePav p
      let ok := Config.freeBool s.free
      if pending then (s.fresh.2.openPav p ok).event 0x0008 (if ok then 2 else 5) (0x2200 + p) 2 a else s)

/-- A shuffle ends, and what waited for it runs. -/
def State.shuffleEnd (s : State) (a kind : Nat) : State := (s.shuffled a kind).afterShuffle a

/-- An H domain or PLL is lost (R478, R480): E and G off, links and edges withdrawn. -/
def State.loseH (s : State) (p : PlotIx) : State :=
  let pending := (s.plot p.val).enable == .closingPending || (s.plot p.val).pendOpen
  let s := s.modPlot p.val (fun x => { x with
    h := { x.h with on := false }, pll := false, enable := .failed, pendOpen := false })
  let s := if pending then s.event 0x0008 5 (0x2100 + p.val) 1 ((s.ownerOf p.val).getD 0x1F) else s
  let s := s.offEG p.val .lost 4
  let s := s.each (List.range 16) (fun s i => s.withdraw (.express p (Fin.ofNat 4 (i / 4)) (Fin.ofNat 4 i)))
  s.each ((List.range 256).filter (fun i => (edgeTo p.val (i / 64)).isSome)) (fun s i => s.withdraw (.prom p (Fin.ofNat 4 (i / 64)) (Fin.ofNat 64 i)))

/-! ### The end of runs and jobs -/

/-- Rows left in the stream buffer at a program's end are discarded, and a stream fault is counted (R150). -/
def Pav.dropStream (x : Pav) : Pav :=
  if x.me.streamBuf.isEmpty then x
  else { x with me := { x.me with streamBuf := [] }, streamFaults := satInc x.streamFaults }

/-- A run ends; garden settings of an overlay that waited for it take effect (R150, R223, R371). -/
def State.endRun (s : State) (p : Nat) : State :=
  let due := (s.pav p).settingsDue
  let s := s.modPav p (fun x => { x.dropStream with settingsDue := false, seq := { x.seq with running := false } })
  match s.allotOfPav (p % 224) with
  | some a => if due then s.settingsPav p ((s.allot a).chunksOf (s.contextTarget p)) else s
  | none => s

/-- Nothing that a pavilion has issued can still finish (R204): only circuit transfers, and an ME held by a stream buffer that no
VE instruction empties any more, are left. A pavilion that is off or has failed finishes nothing. -/
def State.settled (s : State) (p : Nat) : Bool :=
  let x := s.pav p
  let m := x.me
  !(s.plot (plotOf (p % 224))).e.on || x.enable == .failed ||
    (x.seq.dma.all (fun d => match d with
      | some d => d.kind != .dcopy
      | none => true) &&
    m.inFlight.isEmpty && m.shadows.isEmpty &&
    (decide (32 ≤ m.streamBuf.length) ||
      (m.running.isNone && m.waiting.isNone && m.drain.isNone && !m.loading)))

/-- What a stopped run leaves unfinished is dropped. -/
def Pav.dropWork (x : Pav) : Pav :=
  { x with
    me := { x.me with
      running := none, waiting := none, finishing := [], drain := none, inFlight := [], shadows := [], prune := [], fed := []
      loading := false, loadEntries := [] }
    seq := { x.seq with
      due := false, stopped := false, frozen := false, taken := [], sb := [], dma := List.replicate 4 none, posts := [] } }

/-- Ends the runs of a job of the allotment (R392, R394). -/
def State.endRuns (s : State) (a : Nat) : State :=
  s.each (s.holdersOf a) (fun s p => (s.endRun p).modPav p Pav.dropWork)

/-- Stopping ends once no job runs (R355). -/
def State.settleStop (s : State) : State :=
  if s.lodge.moduleState = 2 ∧ (List.range 16).all (fun a => (s.allot a).jobs.isEmpty) then
    (s.modLodge (fun l => { l with moduleState := 1 })).event 0x000A 1 0x2000 1 0x1F
  else s

/-- Ends a job: its completion is written with its marks, waits on it complete, and a held LAUNCH starts (R391,
R392, R394, R395). -/
def State.finishJob (s : State) (a : Nat) (j : Job) (status : Nat) : State :=
  let s := if j.launch then s.endRuns a else s
  let s := s.modQueue a j.queue (fun x => { x with cmds := x.cmds.map (fun c =>
    if c.id = j.cmd then { c with recovered := c.recovered || j.recovered, record := if j.record = pendingRecord then 0 else j.record }
    else c) })
  let result := j.marks + (if j.aborted then 2 ^ 63 else 0)
  let s := s.modAllot a (fun x => { x with jobs := x.jobs.filter (fun k => k.id != j.id) })
  let s := if j.launch then
      s.modAllot a (fun x => { x with
        sectionActive := false, frozen := none, frozenNext := []
        queues := x.queues.map (fun e => (e.1, { e.2 with kept := [] })) })
    else s
  ((s.completeWake a j.queue j.cmd status result).startHeld a).settleStop

end Sys2Proof.Machine
end

