-- ==== Sys2Proof/Machine/Recovery.lean ====
section
/-! DEFINITION. Replay, shuffles, doubling (R449–R467). -/

namespace Sys2Proof.Machine

/-! ### Replay -/

/-- The restore point of a pavilion: its last verified mark, or the older of the last two; none is the start of the
LAUNCH (R449). -/
def Seq.restorePoint (q : Seq) (older : Bool) : Option MarkRec := if older then q.verified[1]? else q.verified.head?

/-- Entries of an interval that the digests compare: not superseded. -/
def digestable (l : List Taint) (interval : Nat) : List Taint :=
  l.filter (fun t => t.interval == interval && t.state != 3)

/-- The comparisons that an interval still needs before the next mark may be verified: d1 while an entry has no first digest, d2
while an entry may still be compared (R433, R434). -/
def Seq.openDigests (q : Seq) (more : List Taint) : Seq :=
  let l := match q.verified.head? with
    | some r => digestable (q.taint ++ more) r.number
    | none => []
  { q with d1Pending := l.any (fun t => t.state != 2), d2Pending := !l.isEmpty }

/-- The tainted rows that were first written after mark n and have no keep copy (R451 step 3). -/
def freshRows (taint : List Taint) (keep : List Keep) (n : Nat) : List (Nat × Nat) :=
  (taint.filter (fun t => decide (n < t.interval))).flatMap (fun t =>
    ((List.range (t.limit - t.base)).map (· + t.base)).filterMap (fun r =>
      if taint.any (fun u => decide (u.interval ≤ n) && u.covers t.space.toNat r) ||
          keep.any (fun k => k.space == t.space && k.row == r && decide (n < k.interval)) then none
      else some (t.space.toNat, r)))

/-- Puts a row back as it was, without a write's effects. -/
def State.restoreRow (s : State) (p space row : Nat) (d : List Byte) (poison : Bool) : State :=
  if space = 1 then s.modPav p (fun x => { x with stage := x.stage.putRow row d poison })
  else
    let k := s.gardenRow p (64 * row)
    s.modPav p (fun x => { x with garden := x.garden.putRow k d poison })

/-- R451 steps 3 and 4 for one pavilion: memory, tags, streams, cadence entry and sync counters as they stood at the
restore point, from which its run goes on. -/
def State.restorePav (s : State) (p : Nat) (older : Bool) : State :=
  let q := (s.pav p).seq
  let m := q.restorePoint older
  let n := (m.map (·.number)).getD 0
  let s := s.each (freshRows q.taint q.keep n) (fun s r => s.restoreRow p r.1 r.2 (List.replicate 64 0) false)
  let s := s.each (q.keep.filter (fun k => decide (n < k.interval))) (fun s k =>
    let d := copiedMeta sramCode (s.pav p).garden k.at_ s.free
    s.fresh.2.restoreRow p k.space.toNat k.row d.1 d.2)
  s.modPav p (fun x => { x with
    tags := (m.map (·.tags)).getD q.startTags
    tagWaiters := [], dirty := []
    me := { x.me with running := none, waiting := none, finishing := [], drain := none, inFlight := [], streamBuf := [], prune := [] }
    seq :=
      let base := { x.seq with
        taint := q.taint.filter (fun t => decide (t.interval ≤ n))
        keep := q.keep.filter (fun k => decide (k.interval ≤ n))
        verified := q.verified.filter (fun v => decide (v.number ≤ n))
        interval := n + 1, taken := [], d1Pending := false, d2Pending := false, copyMap := [], sb := [],
        dma := List.replicate 4 none, posts := [], stopped := false, frozen := false }
      match m with
      | some k =>
        { base with
          running := !k.points.isEmpty, due := k.due, cadEntry := k.cadEntry, ctrs := k.ctrs
          nstr := if k.points.isEmpty then base.nstr else k.points.length
          cad := k.cad, tagged := k.tagged
          cadEnded := false, cadPasses := 0, cadOpen := false, cadLoads := 0, cadAhead := none
          streams := (List.range 4).map (fun i =>
            let st := lget Strm.cleared base.streams i
            match k.points[i]? with
            | some pt => { st with
                slot := pt.slot, loops := pt.loops, halted := false, hold := .none, markPts := [], interval := n + 1 }
            | none => { st with halted := true, hold := .none, markPts := [] }) }
      | none => { base with running := false, due := true } })

/-- HBM lines of the allotment as they stood at mark n (R450, R451). -/
def State.restoreHbm (s : State) (a n : Nat) : State :=
  let x := s.allot a
  let s := s.each (freshRows x.taint x.keep n) (fun s r => s.linePut r.2 (List.replicate 64 0) false)
  let s := s.each (x.keep.filter (fun k => decide (n < k.interval))) (fun s k =>
    let d := copiedMeta hbmCode s.hbm k.at_ s.free
    s.fresh.2.linePut k.row d.1 d.2)
  s.modAllot a (fun y => { y with
    taint := y.taint.filter (fun t => decide (t.interval ≤ n)), keep := y.keep.filter (fun k => decide (k.interval ≤ n)) })

/-- The COPYs fetched after the restore point run again, without a second completion (R396). -/
def State.refetchCopies (s : State) (a point : Nat) : State :=
  s.modAllot a (fun x => { x with queues := x.queues.map (fun e =>
    (e.1, { e.2 with
      cmds := (e.2.kept.filter (fun c => decide (point < c.id))).map (fun c => { c with state := .fetched }) ++ e.2.cmds
      kept := e.2.kept.filter (fun c => decide (c.id ≤ point)) })) })

/-- A section goes back to the older mark, unless a replay from it has not come past the later one again: then that mark is the last
that is verified (R449, R453). -/
def State.toOlder (s : State) (a : Nat) (f : Frozen) : Bool :=
  let marks := ((s.allot a).launchJob.map (·.marks)).getD 0
  f.older && !((s.runners a).any (fun e => match (s.pav e.2).seq.verified with
    | [r] => decide (r.number < marks)
    | _ => false))

/-- The replay of a frozen section (R451). -/
def State.replay (s : State) (a : Nat) (fr : Frozen) : State :=
  let f := { fr with older := s.toOlder a fr }
  let ps := (s.runners a).map (·.2)
  let marks := ps.filterMap (fun p => (s.pav p).seq.restorePoint f.older)
  let n := marks.foldl (fun m k => max m k.number) 0
  let s := s.discardBeats a false
  let s := s.restoreHbm a n
  let s := s.each ps (fun s p => (s.restorePav p f.older).modSeq p (fun q =>
    q.openDigests (if ps.head? == some p then (s.allot a).taint else [])))
  let s := match marks with
    | [] => s.enterSection a 0
    | k :: _ =>
      let s := s.modAllot a (fun x => { x with sectionPos := k.sec, sectionActive := true })
      let sec := (s.allot a).section_
      (s.each (s.plotsOf a) (fun s plot => s.setPlotSection plot (s.sectionSet a plot sec))).fetchNext a
  let j := (s.allot a).launchJob
  let point := match j with
    | some j => if f.older then lget j.cmd j.points 1 else lget j.cmd j.points 0
    | none => 0
  let s := s.refetchCopies a point
  let s := s.modLaunch a (fun j => { j with recovered := true, points := if f.older then j.points.drop 1 else j.points })
  let s := s.modLodge (fun l => { l with replays := satInc l.replays })
  let next := (s.allot a).frozenNext
  let s := s.modAllot a (fun x => { x with frozen := none, frozenNext := [], replayRow := x.replayRow + 1 })
  match next with
  | c :: t => (s.freeze a c).modAllot a (fun x => { x with frozenNext := t })
  | [] => s

/-- What the frozen section had issued has finished, or 1 ms has passed and its transfers are abandoned (R451 step 1). -/
def State.drained (s : State) (a : Nat) (f : Frozen) : Bool := f.abandoned || (s.holdersOf a).all s.settled

/-- R449, R451, R467: the replay runs once issued instructions have finished and any shuffle has completed; a closing that waits
takes its place. -/
def execReplay (a : AllotIx) (s : State) : Res :=
  match (s.allot a.val).frozen with
  | some f => onlyIf (!f.shuffle && !(s.allot a.val).closeDue && (s.allot a.val).launchJob.isSome && s.drained a.val f) s
      (s.replay a.val f)
  | none => .next s

/-- The transfers of an endpoint that have not finished are dropped, sent and received alike. -/
def Rx.abandon (x : Rx) : Rx := { x with tx := [], entries := [], held := [], reads := [], readQueue := [] }

/-- R451 step 1: 1 ms after the freeze, transfers that have not finished are abandoned, without R307. -/
def execFreezeAbandon (a : AllotIx) (s : State) : Res :=
  match (s.allot a.val).frozen with
  | some f =>
    if f.abandoned || decide (s.ns < 1000000 + f.since) then .next s
    else
      let s := s.each (s.pavsOfAllot a.val) (fun s p => s.modPav p (fun x => { x with
        seq := { x.seq with dma := List.replicate 4 none, posts := [] }
        cores := x.cores.map (fun e => (e.1, { e.2 with moves := List.replicate 4 none })) }))
      let s : State := { s with rxs := s.rxs.map (fun (e : Receiver × Rx) =>
        if (plotAt (addressOf e.1).1 (addressOf e.1).2).any (fun p => s.ownerOf p == some a.val) then
          (e.1, e.2.abandon) else e) }
      .next (s.modAllot a.val (fun x => { x with frozen := some { f with abandoned := true } }))
  | none => .next s

/-! ### Cell shuffle -/

/-- Freezes the section for a unit's death, when a LAUNCH runs and no freeze stands. -/
def State.freezeFor (s : State) (a : Nat) : State :=
  if (s.allot a).launchJob.isSome && (s.allot a).frozen.isNone then s.recover a .unitDeath else s

/-- R458, R465: a pavilion shuffle of the contexts that pavilion p carries, one unless it is a stand-in. -/
def State.pavShuffle (s : State) (a p : Nat) : State :=
  let readable := (s.plot (plotOf p)).offCause.isNone
  let s := (s.freezeFor a).changePav p (fun y => { y with enable := .failed })
  (s.placeAll a p readable true).shuffleEnd a 1

/-- The card chunks of a cell dealt again into it (R456 step 3). -/
def State.dealCell (s : State) (p n : Nat) : State :=
  match s.allotOfPav p with
  | some a => s.each (((s.allot a).chunksOf ((s.allot a).targetOf p)).filter (fun c => c.ty == 4)) (fun s c =>
      s.each ((cellParts c.data c.data.length).filter (fun e => e.1 == n)) (fun s e =>
        s.gardenLoad p (0x40000 * e.1 + e.2.2.1) e.2.2.2))
  | none => s

/-- The cards of a copied cell's image that no longer read as dealt are dealt again (R456 step 3; log 132). -/
def State.recheckCell (s : State) (p n : Nat) : State :=
  match s.allotOfPav p with
  | some a => s.each (((s.allot a).chunksOf ((s.allot a).targetOf p)).filter (fun c => c.ty == 4)) (fun s c =>
      s.each ((cellParts c.data c.data.length).filter (fun e => e.1 == n)) (fun s e =>
        let at_ := 0x40000 * e.1 + e.2.2.1
        let r := s.localGet p false at_ e.2.2.2.length
        if r.1.1 = e.2.2.2 ∧ r.1.2 = false then r.2 else r.2.gardenLoad p at_ e.2.2.2))
  | none => s

/-- The image bytes of a cell: rows that the deal writes stay clean, its other rows are data rows. -/
def Allot.imageRows (x : Allot) (p n : Nat) : List Nat :=
  ((x.chunksOf (x.targetOf p)).filter (fun c => c.ty == 4)).flatMap (fun c =>
    ((cellParts c.data c.data.length).filter (fun e => e.1 == n)).flatMap (fun e =>
      (List.range ((e.2.2.2.length + 63) / 64)).map (· + e.2.2.1 / 64)))

/-- The spare cells that a cell shuffle may pick (R456 step 2): those without keep copies, or, when all hold some, those with
the fewest. -/
def State.dummyPicks (s : State) (p : Nat) : List Nat :=
  let l := s.spareCells p
  let n := fun k => ((s.pav p).seq.keep.filter (fun e => e.at_ / 4096 == k)).length
  l.filter (fun k => l.all (fun j => decide (n k ≤ n j)))

/-- The keep copies of a cell move to the others of the pavilion (R456 step 2). -/
def State.clearKeeps (s : State) (p dummy : Nat) : State :=
  let cells := (s.spareCells p).filter (· ≠ dummy)
  s.each ((s.pav p).seq.keep.filter (fun e => e.at_ / 4096 == dummy)) (fun s k =>
    let d := copiedMeta sramCode (s.pav p).garden k.at_ s.free
    let e := freeKeep cells (s.pav p).seq.keep
    s.fresh.2.modPav p (fun x => { x with
      garden := x.garden.putRow e d.1 d.2
      seq := { x.seq with keep := x.seq.keep.map (fun j => if j.at_ = k.at_ then { j with at_ := e } else j) } }))

/-- Spare cell `dummy` takes the place of position n of pavilion p (R456 steps 3–5): it reads zero, the remap names it, and it gets what
can be read of a cell whose core alone died, else the cards again, with the data rows poisoned; the core starts afresh. -/
def State.useDummy (s : State) (p n dummy : Nat) (coreOnly : Bool) (entry : Remap) : State :=
  let plot := plotOf p
  let from_ := s.gardenRow p (0x40000 * n) / 4096
  let bytes := if coreOnly then memRead (s.pav p).garden.bytes (0x40000 * from_) 0x40000 else []
  let metas := if coreOnly then (s.pav p).garden.rows.filter (fun e => e.1 / 4096 == from_) else []
  let s := s.modPav p (fun v => { v with garden := v.garden.zeroRows (4096 * dummy) 4096 })
  let s := s.modPlot plot (fun y => { y with
    remap := y.remap.filter (fun r => !(r.dx == entry.dx && r.dy == entry.dy)) ++ [entry] })
  let s :=
    if coreOnly then (s.modPav p (fun v =>
      let g : Store := { v.garden with bytes := memWrite v.garden.bytes (0x40000 * dummy) bytes }
      { v with garden := metas.foldl (fun m e => m.setMeta (4096 * dummy + e.1 % 4096) e.2) g })).recheckCell p n
    else
      let clean := match s.allotOfPav p with
        | some a => (s.allot a).imageRows p n
        | none => []
      let s := s.dealCell p n
      s.modPav p (fun v =>
        let dirty := below 4032 (fun i => !clean.contains i)
        { v with garden := dirty.foldl (fun m i => m.poisonRow (4096 * dummy + i)) v.garden })
  let s := s.modPav p (fun v => { v with cores := tdel v.cores n })
  s.record { s.pavRec p 0x11 3 1 0 with
    x := BitVec.ofNat 9 (64 * (plot % 8) + entry.dx.val), y := BitVec.ofNat 9 (68 * (plot / 8) + entry.dy.val) }

/-- R24, R300, R456: a dead cell is remapped to a spare cell of its pavilion. -/
def execCellShuffle (p : PavIx) (cell : Fin 1088) (coreOnly : Bool) (dummy : Fin 1088) (s : State) : Res :=
  let q := p.val % 4
  let x := s.plot (plotOf p.val)
  let dl := physLocal q cell.val
  let ul := physLocal q dummy.val
  let lost := !coreOnly && x.routerLost q dl
  -- the presented position: the dead cell's own, or the one that a dead dummy stands for
  let old := x.remap.find? (fun r => r.ux.val == dl.1 && r.uy.val == dl.2)
  let s := s.cellDead p.val cell.val (!coreOnly)
  let a := s.allotOfPav p.val
  let asPav := x.remap.length = 64 ∨ (s.spareCells p.val).isEmpty = true ∨ lost = true
  if (isSpare q cell.val && old.isNone && !lost) || (!lost && !isSpare q cell.val && (x.remapOf dl.1 dl.2).isSome) then .next s
  else if asPav then
    match a with
    | some a => .next (s.pavShuffle a p.val)
    | none => .next (s.failPav p.val)
  else if !(s.dummyPicks p.val).contains dummy.val then .next s
  else
    let pos := match old with
      | some r => (r.dx.val, r.dy.val)
      | none => dl
    let entry : Remap :=
      { rdead := (old.map (·.rdead)).getD (!coreOnly), dx := Fin.ofNat 64 pos.1, dy := Fin.ofNat 68 pos.2, ux := Fin.ofNat 64 ul.1,
        uy := Fin.ofNat 68 ul.2 }
    let s := s.clearKeeps p.val dummy.val
    match cellNumber q pos.1 pos.2, a with
    | none, _ => .next s
    | some n, some a => .next (((s.freezeFor a).useDummy p.val n dummy.val coreOnly entry).shuffleEnd a 0)
    | some n, none => .next (s.useDummy p.val n dummy.val coreOnly entry)

/-! ### Pavilion and plot shuffles -/

/-- A pavilion that has to be replaced: its context moves to a reserve, or is doubled; outside an allotment, and where it carries no
context, it only fails (R94, R457, R458). -/
def State.pavLost (s : State) (p : Nat) : State :=
  match s.allotOfPav p with
  | some a => if s.works a p then s.pavShuffle a p else s.failPav p
  | none => s.failPav p

/-- R457, R458: the pavilion's context moves to a reserve, or is doubled; outside an allotment it only fails. -/
def execPavilionShuffle (p : PavIx) (s : State) : Res :=
  match s.allotOfPav p.val with
  | some a => onlyIf (s.works a p.val) s (s.pavShuffle a p.val)
  | none => .next (s.failPav p.val)

/-- A plot shuffle: under one freeze every context of the plot is placed (R459). -/
def State.plotShuffle (s : State) (a plot : Nat) (readable retire : Bool) : State :=
  let s := ((s.freezeFor a).plotPlace a plot readable retire).modPlot plot (fun x => { x with shedding := false })
  (s.record { s.plotRec plot 0x11 3 7 3 with allotment := BitVec.ofNat 5 a }).shuffleEnd a 2

/-- R459, R461: every context of the plot is placed under one freeze, and the plot's pavilions are retired unless it
may return, as a plot does whose PLL alone is lost (R480). -/
def execPlotShuffle (p : PlotIx) (s : State) : Res :=
  match s.ownerOf p.val with
  | some a =>
    let why := (s.plot p.val).offCause
    let relock := (s.plot p.val).h.on && !(s.plot p.val).pll
    .next (s.plotShuffle a p.val why.isNone ((why == some .lost && !relock) || why.isNone))
  | none => .next s

/-! ### Retired lines (R94) -/

/-- R94: between tile passes, a line that is to be retired goes into the repair map, and the work since the verified mark is
replayed; with no spare line of its kind left, the pavilion is replaced. A failed drill of the ME has left the line to the monitor. -/
def execLineRetirement (p : PavIx) (column : Bool) (line : Fin 530) (s : State) : Res :=
  let x := s.pav p.val
  let due := x.me.retiring.contains (column, line.val) || x.me.retiring.contains (true, 1023)
  let between := match x.me.running with
    | some r => r.issued == 0
    | none => true
  let real := decide (line.val < if column then 530 else 528)
  if due && between && real then
    let s := s.modME p.val (fun m => { m with retiring := (m.retiring.erase (column, line.val)).erase (true, 1023) })
    match retireIn x.repair column line.val with
    | some m =>
      let s := (s.modPav p.val (fun v => { v with repair := m })).retireRec p.val 1 3
      match s.allotOfPav p.val with
      | none => .next s
      | some a =>
        if (s.allot a).frozen.isSome then
          .next (s.modAllot a (fun y => { y with frozen := y.frozen.map (fun f => { f with shuffle := false }) }))
        else .next (s.recover a .checkFault)
    | none => .next (s.pavLost p.val)
  else .next s

/-! ### Doubling -/

/-- R462, R463, R466: without a reserve that can take it, a pavilion's context is doubled. -/
def execDoubling (p : PavIx) (s : State) : Res :=
  match s.allotOfPav p.val with
  | some a =>
    let c := (s.allot a).targetOf p.val
    if (s.alternateFor a c).isSome ∨ s.works a p.val = false ∨ (s.pav p.val).partners ≠ [] then .next s
    else
      let s := (s.freezeFor a).changePav p.val (fun y => { y with enable := .failed })
      .next ((s.double a c p.val (some p.val) (s.plot (plotOf p.val)).offCause.isNone true).shuffleEnd a 1)
  | none => .next s

/-- What a pavilion or spill slot holds of a context: garden, engine stage, tags and engine state. -/
def Pav.takeContext (x y : Pav) : Pav :=
  { x with
    me := y.me, ve := y.ve, seq := y.seq, stage := y.stage, garden := y.garden, tags := y.tags, tagPlan := y.tagPlan
    tagWaiters := y.tagWaiters, fullEmpty := y.fullEmpty, pool := y.pool
    settingsDue := y.settingsDue, cores := y.cores, dirty := y.dirty, forecast := y.forecast
    handAll := y.handAll, hands := y.hands, stageHand := y.stageHand, lastDrill := y.lastDrill, drillDue := y.drillDue }

/-- The spill slot of a context of stand-in d (log 30). -/
def slotOf (d c : Nat) : Nat := if c = d then 448 + d else 224 + c

/-- A stand-in spills the context that it runs and loads another one from its slot (R462): gardens move by cell number. -/
def State.swapContext (s : State) (d next : Nat) : State :=
  let x := s.pav d
  let f := s.fresh
  let s := f.2
  let out := slotOf d x.context
  let slot := slotOf d next
  let move := fun (src dst : Nat) (y z : Pav) => { y.takeContext z with
    garden := z.garden.copyRows sramCode (s.contextRow src dst) f.1
    seq := { z.seq with keep := rekeep (s.spareCells dst) z.seq.keep } }
  let s := (s.setPav out (move d out (s.pav out) x)).setPav d { move slot d x (s.pav slot) with context := next }
  { s with pavs := tdel s.pavs slot }

/-- No ME, VE or DCOPY instruction is in flight (R462). -/
def Pav.quiet (x : Pav) : Bool :=
  x.me.running.isNone && x.me.waiting.isNone && x.me.drain.isNone && x.me.inFlight.isEmpty && !x.me.loading &&
    x.seq.dma.all (fun d => d.isNone) && x.seq.sb.isEmpty

/-- A join of a switch that a port of quadrant q's pavilion feeds, or that feeds one (R464). -/
def PromSet.joins (x : PromSet) (q port src ins outs : Nat) : Bool :=
  let home := fun (v : Nat) => decide (256 + 16 * q ≤ v ∧ v < 272 + 16 * q)
  x.slots.any (fun e => e.2.getLsbD 31 &&
    ((decide (port ≤ e.1 / 64 ∧ e.1 / 64 < port + ins) && home (bits e.2.toNat 30 22)) ||
      (home (e.1 / 64) && decide (src ≤ bits e.2.toNat 30 22 ∧ bits e.2.toNat 30 22 < src + outs))))

/-- Paused timers resume with the time they had left (R464): of the fabric, of window transfers, of the joins at the context's
ports, and of the streams and tags that pavilion p now runs it with. -/
def State.shiftTimers (s : State) (a p c dt : Nat) : State :=
  let names := fun (v : BitVec 64) => s.namedPav a v.toNat == some c
  let s := s.modPlot (plotOf c) (fun x => { x with
    steers := x.steers.map (fun (e : Nat × Steer) => if x.prom.joins (c % 4) (320 + 3 * e.1) (320 + 2 * e.1) 3 2 then
      (e.1, { e.2 with since := e.2.since + dt }) else e)
    merges := x.merges.map (fun (e : Nat × Merge) => if x.prom.joins (c % 4) (416 + 2 * e.1) (384 + e.1) 2 1 then
      (e.1, { e.2 with since := e.2.since + dt }) else e) })
  let s := s.modPav p (fun x => { x with
    tagWaiters := x.tagWaiters.map (fun e => (e.1, e.2.1, e.2.2 + dt)), lastDrill := x.lastDrill + dt
    seq := { x.seq with streams := x.seq.streams.map (fun t => { t with since := t.since + dt }) } })
  { s with
    rxs := s.rxs.map (fun e => (e.1, { e.2 with
      entries := e.2.entries.map (fun l => if names l.2.base then (l.1, { l.2 with since := l.2.since + dt }) else l)
      held := e.2.held.map (fun h => if names h.address then { h with since := h.since + dt } else h)
      reads := e.2.reads.map (fun h => if names h.address then { h with since := h.since + dt } else h)
      readQueue := e.2.readQueue.map (fun h => if names h.address then { h with since := h.since + dt } else h)
      tx := e.2.tx.map (fun l => if names l.2.source then
        (l.1, { l.2 with first := l.2.first + dt, last := l.2.last + dt }) else l) }))
    srvPorts := s.srvPorts.map (fun e => (e.1, { e.2 with
      incoming := e.2.incoming.map (fun i => match tget? e.2.windows (bits i.handle.toNat 11 0) with
        | some w => if w.space = 2 ∧ bits w.base.toNat 35 28 = c then { i with since := i.since + dt } else i
        | none => i) })) }

/-- Doubling ends on a list of pavilions, when their allotment closes or is dealt another parcel (R466): each stand-in holds its
own context again, and the spill slots hold nothing. -/
def State.endDoublings (s : State) (ps : List Nat) : State :=
  let s := s.each (ps.filter (fun p => (s.pav p).context != p)) (fun s p => s.swapContext p p)
  let s := s.each ps (fun s p => s.modPav p (fun v => { v with doubled := none, ownSpill := none, partners := [], context := p }))
  { s with pavs := s.pavs.filter (fun e => decide (e.1 < 224) || !ps.contains (e.1 % 224)) }

/-- R462, R464: a quantum of 8 ms after the last switch, the stand-in switches to the next of its contexts, its own first
and then its partners in turn. -/
def execContextSwitch (p : PavIx) (s : State) : Res :=
  let x := s.pav p.val
  match s.allotOfPav p.val with
  | some a =>
    let ring := p.val :: x.partners
    let cur := x.context
    if x.partners.isEmpty || !x.quiet || (s.allot a).frozen.isSome ||
        ring.any (fun c => decide (c ≠ cur ∧ s.ns < 8000000 + (s.pav c).outAt)) then .next s
    else
      let i := (ring.idxOf cur + 1) % ring.length
      let next := lget p.val ring i
      let s := (s.swapContext p.val next).modPav cur (fun y => { y with outAt := s.ns })
      .next (s.shiftTimers a p.val next (s.ns - (s.pav next).outAt))
  | none => .next s

/-- R465: a stand-in fails; every context that it carries is placed again. -/
def execStandInFailure (p : PavIx) (s : State) : Res :=
  match s.allotOfPav p.val with
  | some a => onlyIf (!(s.pav p.val).partners.isEmpty) s (s.pavShuffle a p.val)
  | none => .next s

/-- R466: a reserve that has become available ends the doubling of the lowest-index pavilion it can serve. -/
def State.endDoubling (s : State) (a r : Nat) : State :=
  if !s.reserveWorks r then s else
  match (List.range 224).find? (fun c => (s.pav c).doubled.isSome && s.allotOfPav c == some a &&
      (s.allot a).chunks.any (fun k => k.ty == 0x0B && k.target.toNat == c && k.alt.toNat == r)) with
  | none => s
  | some c =>
    match (s.pav c).doubled with
    | none => s
    | some d =>
      let s := s.freezeFor a
      let st := d.standIn
      let s := if (s.pav st).context = st then s else s.swapContext st st
      let s := (s.modPav st (fun y => { y with partners := y.partners.erase c })).freeOwn a st
      let keep := (s.allot a).chunks
      -- the alternate that names this reserve is the one taken
      let s := s.modAllot a (fun x => { x with chunks := x.chunks.filter (fun k =>
        !(k.ty == 0x0B && k.target.toNat == c && k.alt.toNat != r)) })
      let s := (s.place a c (224 + c) none true true true).modPav r (fun y => { y with reduced := false })
      let s := s.modAllot a (fun x => { x with chunks := x.chunks ++ keep.filter (fun k =>
        k.ty == 0x0B && k.target.toNat == c && k.alt.toNat != r) })
      (s.presentedEvent a).shuffleEnd a 1

def execDoublingEnd (reserve : PavIx) (s : State) : Res :=
  match s.allotOfPav reserve.val with
  | some a => .next (s.endDoubling a reserve.val)
  | none => .next s

end Sys2Proof.Machine
end

