-- ==== Sys2Proof/Machine/ServerPorts.lean ====
section
/-! DEFINITION. Server ports and windows (R400–R422). -/

namespace Sys2Proof

/-- The transport header as 64 bytes, most significant first (R404). -/
def TFrame.header (f : TFrame) : List Byte :=
  Machine.natBE 64 (2 ^ 508 * f.version.toNat + 2 ^ 504 * f.ftype.toNat + 2 ^ 496 * f.flags.toNat +
    2 ^ 464 * f.handle.toNat + 2 ^ 448 * f.xid.toNat + 2 ^ 428 * f.seq.toNat + 2 ^ 416 * f.reserved1.toNat +
    2 ^ 352 * f.offset.toNat + 2 ^ 320 * f.length.toNat + 2 ^ 304 * f.bytes.toNat + 2 ^ 296 * f.status.toNat +
    2 ^ 288 * f.round.toNat + 2 ^ 256 * f.nbase.toNat + 2 ^ 192 * f.counter.toNat + 2 ^ 64 * f.pmap.toNat +
    f.reserved2.toNat)

/-- The tag of R419. -/
def TFrame.mac (f : TFrame) (key : List Byte) : List Byte :=
  Machine.kmac256 key (f.header ++ f.data) 16 (Machine.ascii "Wabuaris window")

/-- A frame of one of the types that a row of the table receives; what cannot be read, or is of a reserved type, may come
in any of them. -/
def TFrame.isA (f : TFrame) (t : Nat) : Bool :=
  f.ftype.toNat == t || f.ftype == 0 || decide (8 ≤ f.ftype.toNat) || !f.fcsOk

def TFrame.auth (f : TFrame) : Bool := f.flags.getLsbD 2

/-- Data and tag as a receiver tells them apart: the last 16 bytes are the tag exactly when AUTH is set (R404). -/
def TFrame.split (f : TFrame) : TFrame :=
  let b := f.data ++ f.tag
  if f.auth then { f with data := b.take (b.length - 16), tag := b.drop (b.length - 16) } else { f with data := b, tag := [] }

/-- Bytes of the frame on Ethernet, from destination address through FCS (R401, R404). -/
def TFrame.size (f : TFrame) : Nat := 82 + f.data.length + f.tag.length
def TFrame.last (f : TFrame) : Bool := f.flags.getLsbD 0

end Sys2Proof

namespace Sys2Proof.Machine

/-! ### Counters and windows -/

def tsOK : Nat := 0
def tsMissing : Nat := 1
def tsClosed : Nat := 2
def tsDenied : Nat := 3
def tsBusy : Nat := 4
def tsTimeout : Nat := 5

/-- Raises a server port counter (R422). -/
def State.srvCount (s : State) (n i : Nat) : State :=
  s.modSrv n (fun x => { x with counters := tmod 0 x.counters i satInc })

/-- The allotment that a server port serves: an open one whose set names it (R400). -/
def State.srvAllot (s : State) (n : Nat) : Option Nat :=
  (List.range 16).find? (fun a => (s.allot a).enable == .open_ && (s.allot a).serverPorts.getLsbD n)

/-- A window's handle (R405). -/
def Window.handle (w : Window) (port entry : Nat) : Nat :=
  2 ^ 24 * w.gen.toNat + 2 ^ 20 * port + 2 ^ 16 * w.allotment.val + entry

/-- The place of a window offset. -/
def State.windowTarget (s : State) (w : Window) (off : Nat) : Target :=
  if w.space = 1 then .hbm (w.base.toNat + off)
  else .cell (s.mappedTo w.allotment.val (bits w.base.toNat 35 28)) (bits w.base.toNat 27 0 + off)

/-- A garden window whose context is switched out (R464). -/
def State.windowWaits (s : State) (w : Window) : Bool :=
  w.space == 2 && s.switchedOut (bits w.base.toNat 35 28)

/-- The tags that a window range touches, when its garden is in full/empty mode. -/
def State.windowTags (s : State) (w : Window) (off len : Nat) : Option (Nat × List Nat) :=
  s.landTags (s.windowTarget w off) len

def State.windowKey (s : State) (w : Window) : List Byte :=
  (((s.allot w.allotment.val).wkeys.find? (fun k => k.1 == w.key)).map (·.2)).getD []

def State.modWindow (s : State) (n e : Nat) (f : Window → Window) : State :=
  s.modSrv n (fun x => { x with windows := x.windows.map (fun p => if p.1 = e then (e, f p.2) else p) })

/-- Frames of a transfer (R404). -/
def framesOf (len : Nat) : Nat := (len + 8191) / 8192

/-! ### Sending -/

/-- Sends a frame of window entry e, with its tag when the window has authentication (R419). -/
def State.sendFrame (s : State) (n e : Nat) (f : TFrame) : State :=
  match tget? (s.srv n).windows e with
  | some w =>
    let s := s.srvCount n 1
    if w.auth then
      let g := { f with flags := f.flags ||| 4, counter := BitVec.ofNat 64 (w.txHigh + 1) }
      (s.modWindow n e (fun w => { w with txHigh := w.txHigh + 1 })).emit
        (.transport (Fin.ofNat 16 n) { g with tag := g.mac (s.windowKey w) })
    else s.emit (.transport (Fin.ofNat 16 n) f)
  | none => (s.srvCount n 1).emit (.transport (Fin.ofNat 16 n) f)

/-- A frame that the module makes (R404). -/
def State.frame (s : State) (n ty : Nat) (peer : BitVec 48) (handle : BitVec 32) (xid : BitVec 16) : TFrame :=
  { peer := peer, fcsOk := true, ethertype := (s.srv n).ethertype, vlan := false, version := 1,
    ftype := BitVec.ofNat 4 ty, flags := 0, handle := handle, xid := xid, seq := 0, reserved1 := 0, offset := 0,
    length := 0, bytes := 0, status := 0, round := 0, nbase := 0, counter := 0, pmap := 0, reserved2 := 0, data := [],
    tag := [] }

/-- DONE to a peer. -/
def State.sendDone (s : State) (n e : Nat) (peer : BitVec 48) (handle : BitVec 32) (xid : BitVec 16) (st : Nat) : State :=
  s.sendFrame n e { s.frame n 5 peer handle xid with status := BitVec.ofNat 8 st }

/-- Refuses a frame: one NACK per (peer, xid) in any 10 µs (R409). -/
def State.refuse (s : State) (n : Nat) (f : TFrame) (st : Nat) : State :=
  let seen := (s.srv n).refused.any (fun r => r.1 == f.peer && r.2.1 == f.xid && decide (s.ns < 10000 + r.2.2))
  let s := if st = tsClosed then s.srvCount n 5 else s
  if seen then s
  else
    let s := s.modSrv n (fun x => { x with
      refused := (f.peer, f.xid, s.ns) :: x.refused.filter (fun r => decide (s.ns < 10000 + r.2.2)) })
    (s.srvCount n 8).sendFrame n (bits f.handle.toNat 11 0)
      { s.frame n 6 f.peer f.handle f.xid with status := BitVec.ofNat 8 st }

/-- One data frame of an outgoing transfer, from the window's rows; poisoned rows are marked in pmap (R412, R418)
and recorded (R437). -/
def State.sendPart (s : State) (n : Nat) (o : Outgoing) (retry : Bool) (i : Nat) : State :=
  match tget? (s.srv n).windows o.entry.toNat with
  | none => s
  | some w =>
    let len := min 8192 (o.length - 8192 * i)
    let off := o.offset.toNat + 8192 * i
    let rows := (List.range ((len + 63) / 64)).map (fun r => (off + 64 * r, min 64 (len - 64 * r)))
    let got := rows.foldl (fun (acc : List Byte × Nat × Nat × State) r =>
      let g := acc.2.2.2.targetGet w.allotment.val (acc.2.2.2.windowTarget w r.1) r.2
      (acc.1 ++ g.1.1, acc.2.1 + (if g.1.2 then 2 ^ acc.2.2.1 else 0), acc.2.2.1 + 1, g.2)) ([], 0, 0, s)
    let s := got.2.2.2
    let handle := w.handle n o.entry.toNat
    let s := if got.2.1 = 0 then s else
      s.record { ErrRec.base with
        ty := 0x0F, severity := 1, cls := 13, subunit := BitVec.ofNat 16 n,
        allotment := BitVec.ofNat 5 w.allotment.val, detail := BitVec.ofNat 32 handle, address := BitVec.ofNat 64 off }
    let lastF := decide (i + 1 = framesOf o.length)
    let fl := (if lastF then 1 else 0) + (if retry then 2 else 0)
    let s := if retry then s.srvCount n 10 else s
    s.sendFrame n o.entry.toNat { s.frame n (if o.push then 4 else 3) o.peer o.handle o.xid with
      flags := BitVec.ofNat 8 fl, seq := BitVec.ofNat 20 i, offset := o.offset, length := BitVec.ofNat 32 o.length,
      bytes := BitVec.ofNat 16 len, pmap := BitVec.ofNat 128 got.2.1, data := got.1 }

def State.sendParts (s : State) (n : Nat) (o : Outgoing) (retry : Bool) (l : List Nat) : State :=
  s.each l (fun s i => s.sendPart n o retry i)

/-- Whether an outgoing transfer may start: a place is free, its context runs, and its rows' tags are full. -/
def State.outReady (s : State) (n : Nat) (o : Outgoing) : Bool :=
  match tget? (s.srv n).windows o.entry.toNat with
  | some w =>
    !s.windowWaits w && (match s.windowTags w o.offset.toNat o.length with
      | some (p, ts) => (s.pav p).allTags ts tagFull
      | none => true)
  | none => false

/-- The same transfer of a port (R410, R412, R414). -/
def Outgoing.same (o y : Outgoing) : Bool :=
  y.push == o.push && y.peer == o.peer && y.xid == o.xid && y.entry == o.entry

/-- Starts an outgoing transfer: every frame is sent, and a full/empty garden's tags are read (R412, R420). -/
def State.startOut (s : State) (n : Nat) (o : Outgoing) : State :=
  let s := s.sendParts n o false (List.range (framesOf o.length))
  let s := match (tget? (s.srv n).windows o.entry.toNat).bind (fun w => s.windowTags w o.offset.toNat o.length) with
    | some (p, ts) => s.modPav p (fun x => x.readEnd ts)
    | none => s
  s.modSrv n (fun x => { x with outgoing := x.outgoing.map (fun y =>
    if o.same y then { y with wait := false, since := s.ns } else y) })

/-- An outgoing transfer fails (R415). -/
def State.failOut (s : State) (n : Nat) (o : Outgoing) (st : Nat) : State :=
  let s := s.modSrv n (fun x => { x with outgoing := x.outgoing.filter (fun y => !o.same y) })
  let s := s.srvCount n (if o.push then 14 else 12)
  match tget? (s.srv n).windows o.entry.toNat with
  | some w => s.record { ErrRec.base with
      ty := 0x07, severity := 1, cls := 13, subunit := BitVec.ofNat 16 n, detail := BitVec.ofNat 32 st,
      allotment := BitVec.ofNat 5 w.allotment.val, address := BitVec.ofNat 64 (w.handle n o.entry.toNat) }
  | none => s

/-- A broken tag of a window's range, at which a transfer fails at once (R246). -/
def State.windowBroken (s : State) (w : Window) (off len : Nat) : Option (Nat × Nat) :=
  (s.windowTags w off len).bind (fun e => ((s.pav e.1).anyBroken e.2).map (fun t => (e.1, t)))

/-- Starts an outgoing transfer when it may; one that meets a broken tag fails at once (R246). -/
def State.tryOut (s : State) (n : Nat) (o : Outgoing) : State :=
  match (tget? (s.srv n).windows o.entry.toNat).bind (fun w => s.windowBroken w o.offset.toNat o.length) with
  | some (p, t) => (s.brokenTag p t).failOut n o tsTimeout
  | none =>
    if s.outReady n o && decide (((s.srv n).outgoing.filter (fun y => !y.wait)).length < 256) then s.startOut n o else s

/-- Adds an outgoing transfer and starts it when it may. -/
def State.addOut (s : State) (n : Nat) (o : Outgoing) : State :=
  let o := { o with wait := true, since := s.ns }
  (s.modSrv n (fun x => { x with outgoing := x.outgoing ++ [o] })).tryOut n o

/-- Puts a window in its place in a list in handle order. -/
def placeHandle (n e : Nat) (w : Window) : List (Nat × Nat × Window) → List (Nat × Nat × Window)
  | [] => [(n, e, w)]
  | x :: t => if w.handle n e < x.2.2.handle x.1 x.2.1 then (n, e, w) :: x :: t else x :: placeHandle n e w t

/-- The bound export windows of an allotment, in handle order (R413, R414). -/
def State.exportWindows (s : State) (a : Nat) : List (Nat × Nat × Window) :=
  (List.range 16).foldl (fun l n => (s.srv n).windows.foldl (fun l e =>
    if e.2.allotment.val == a && e.2.dir.getLsbD 1 && !e.2.closing && e.2.binding.isSome then placeHandle n e.1 e.2 l
    else l) l) []

/-- The next transfer identifier of a port that none of its transfers with a peer has (R404). -/
def SrvPort.freeXid (x : SrvPort) (peer : BitVec 48) : Nat :=
  let at_ := fun (i : Nat) => (x.nextXid + 1 + i) % 65536
  (((List.range 512).find? (fun i => !x.outgoing.any (fun o => o.peer == peer && o.xid.toNat == at_ i))).map at_).getD (at_ 0)

/-- Pushes every bound export window of an allotment, in handle order; a push of it that still runs is ended (R414,
R415). -/
def State.pushExports (s : State) (a : Nat) : State :=
  s.each (s.exportWindows a) (fun s e =>
    match e.2.2.binding with
    | some (peer, handle) =>
      let n := e.1
      let s := s.modSrv n (fun x => { x with
        outgoing := x.outgoing.filter (fun o => !(o.push && o.entry.toNat == e.2.1))
        nextXid := x.freeXid peer })
      s.addOut n (Outgoing.mk true peer (BitVec.ofNat 16 (s.srv n).nextXid) (BitVec.ofNat 12 e.2.1) handle 0 e.2.2.length 0
        s.ns none false false)
    | none => s)

/-! ### Closing (R416) -/

/-- Phase 1 of a close: the port refuses the window's frames and stops its outgoing transfers. -/
def State.closeWindow (s : State) (n e : Nat) : State :=
  match tget? (s.srv n).windows e with
  | some w =>
    if w.closing then s
    else
      let s := s.each ((s.srv n).outgoing.filter (fun o => o.entry.toNat == e)) (fun s o => s.failOut n o tsClosed)
      s.modWindow n e (fun w => { w with closing := true, since := s.ns })
  | none => s

/-- Closes every window of a port that a test selects. -/
def State.closeWindows (s : State) (n : Nat) (f : Window → Bool) : State :=
  s.each ((s.srv n).windows.filter (fun e => f e.2)) (fun s e => s.closeWindow n e.1)

/-- Overlap of two window ranges in one space and, in the garden, one pavilion. -/
def windowsMeet (sp1 b1 l1 sp2 b2 l2 : Nat) : Bool := sp1 == sp2 && decide (b1 < b2 + l2 ∧ b2 < b1 + l1)

/-- The lowest entry of a port that is neither a window nor a landing entry; 0xFFF is the deal entry. -/
def State.freeWindow (s : State) (n : Nat) : Option Nat :=
  (List.range 4095).find? (fun e => (tget? (s.srv n).windows e).isNone &&
    (tget? (s.rx (.server (Fin.ofNat 16 n))).entries e).isNone)

/-- The generation that an entry takes at its next opening: 1–255 (R406). -/
def SrvPort.genOf (x : SrvPort) (e : Nat) : BitVec 8 :=
  (tget? x.gens e).getD (BitVec.ofNat 8 (1 + (Config.windowGen x.genDraw e).val))

/-- The generation after g, from 255 to 1 (R405). -/
def nextGen (g : BitVec 8) : BitVec 8 := if g = 255 then 1 else g + 1

/-- The WOPEN that a closing window holds, while its command still waits (R378, R384, R408). -/
def State.heldOpen (s : State) (w : Window) : Option HeldOpen :=
  w.held.filter (fun o => (((s.allot w.allotment.val).queue o.queue).cmd o.cmd).isSome)

/-- R407, R408: a WOPEN opens its window and completes, is held behind a closing window, or fails. -/
def State.wopen (s : State) (a q : Nat) (c : Cmd) : State :=
  let x := s.allot a
  let n := bits c.a2 3 0
  let port := s.srv n
  let space := bits c.a2 15 8
  let auth := bit c.a2 6
  let dir := bits c.a2 5 4
  let done := fun (s : State) st r => s.completeWake a q c.id st r
  let pav := bits c.a0 35 28
  let inSpace := if space = 1 then s.hbmFits a c.a0 c.a1
    else space == 2 && bits c.a0 63 36 == 0 && decide (bits c.a0 27 0 + c.a1 ≤ 2 ^ 28) && decide (pav < 224) &&
      s.allotOfPav pav == some a && ((s.pav pav).role == .presented || x.pavMap.any (fun m => m.failed.val == pav))
  let ours := (List.range 16).flatMap (fun k => ((s.srv k).windows.filter (fun e => e.2.allotment.val == a)).map
    (fun e => (k, e.1, e.2)))
  let meets := ours.filter (fun e => windowsMeet e.2.2.space.toNat e.2.2.base.toNat e.2.2.length space c.a0 c.a1)
  if x.enable != .open_ then done s stRefusedState 0
  else if !(x.serverPorts.getLsbD n) || port.enable != .open_ then done s stDenied 0
  else if (space ≠ 1 ∧ space ≠ 2) ∨ !inSpace ∨ c.a0 % 64 ≠ 0 ∨ c.a1 % 64 ≠ 0 ∨ c.a1 < 64 ∨ dir = 0 then
    done s stOutOfRange 0
  else if auth ∧ !x.wkeys.any (fun k => k.1.toNat == bits c.a3 31 0) then done s stDenied 0
  else if 1024 ≤ port.windows.length ∨ meets.any (fun e => !e.2.2.closing) then done s stOutOfRange 0
  else match meets.head? with
    | some (k, e, w) =>
      if meets.any (fun e => (s.heldOpen e.2.2).isSome) || (s.heldOpen w).isSome then done s stRefusedState 0
      else (s.cmdTo a q c.id .held).modWindow k e (fun w => { w with held := some { queue := q, cmd := c.id } })
    | none =>
      match s.freeWindow n with
      | none => done s stOutOfRange 0
      | some e =>
        let g := port.genOf e
        let w : Window :=
          { closing := false, since := s.ns, gen := g, allotment := Fin.ofNat 16 a, space := BitVec.ofNat 8 space,
            base := BitVec.ofNat 64 c.a0, length := c.a1, dir := BitVec.ofNat 2 dir, auth := auth,
            key := BitVec.ofNat 32 c.a3, binding := none, completed := 0, last := [], rxHigh := 0, rxSeen := [],
            txHigh := 0, held := none, closers := [] }
        let s := s.modSrv n (fun y => { y with
          windows := tset y.windows e w, gens := tset y.gens e (nextGen g) })
        done s stOK (w.handle n e)

/-- Phase 2: the entry is freed, its closers complete, unsatisfied waits end, and a held WOPEN opens (R416, R408). -/
def State.windowEnd (s : State) (n e : Nat) : State :=
  match tget? (s.srv n).windows e with
  | some w =>
    let a := w.allotment.val
    let s := s.modSrv n (fun x => { x with
      windows := tdel x.windows e, incoming := x.incoming.filter (fun i => bits i.handle.toNat 11 0 != e) })
    let s := s.each w.closers (fun s h => s.complete a h.queue h.cmd stOK 0)
    let s := s.wake a
    match w.held with
    | some h => match ((s.allot a).queue h.queue).cmd h.cmd with
      | some c => s.wopen a h.queue c
      | none => s
    | none => s
  | none => s

/-- A closing server port without windows is closed, and a pending enable is carried out (R354). -/
def State.settleSrv (s : State) (n : Nat) : State :=
  let x := s.srv n
  if x.windows.isEmpty then
    match x.enable with
    | .closing => s.modSrv n (fun y => { y with enable := .closed })
    | .closingPending => (s.modSrv n (fun y => { y with enable := .open_ })).event 0x0008 2 (0x2510 + n) 2
        ((s.srvAllot n).getD 0x1F)
    | _ => s
  else s

/-- R293, R416: every frame accepted before the close has landed, or its transfer has ended. -/
def execWindowClosed (n : SrvIx) (entry : BitVec 12) (s : State) : Res :=
  match tget? (s.srv n.val).windows entry.toNat with
  | some w =>
    let landed := (s.srv n.val).incoming.all (fun i => bits i.handle.toNat 11 0 != entry.toNat || i.waiting.isEmpty)
    onlyIf (w.closing && landed) s
      ((s.windowEnd n.val entry.toNat).settleSrv n.val)
  | none => .next s

/-! ### Receiving (R409) -/

/-- What the checks of R409 decide. -/
inductive Frame where
  | accept (e : Nat) (w : Window)
  | stop (s : State)

/-- A frame's counter under authentication is new (R419). -/
def Window.counterOk (w : Window) (c : Nat) : Bool := !w.rxSeen.contains c && !decide (c + 1024 ≤ w.rxHigh)

def Window.accept (w : Window) (c : Nat) : Window :=
  let high := max w.rxHigh c
  { w with rxHigh := high, rxSeen := c :: w.rxSeen.filter (fun k => decide (high < k + 1024)) }

/-- The checks of R409 up to authentication, for any frame of a peer. A Direct-mode frame has no Ethernet header (R404). A frame above
the largest size counts as malformed (log 128). -/
def State.frameFirst (s : State) (n : Nat) (f : TFrame) : Option State :=
  let bad := ((s.srv n).mode == 0 && (f.ethertype != (s.srv n).ethertype || f.vlan || decide (9216 < f.size))) || f.version != 1 || f.ftype == 0 ||
    decide (8 ≤ f.ftype.toNat) || f.flags &&& 0xF8 != 0 || f.reserved1 != 0 || f.reserved2 != 0
  if !f.fcsOk then some (s.srvCount n 2)
  else if (s.srvAllot n).isNone || (s.srv n).enable != .open_ then some (s.srvCount n 5)
  else if bad then some (s.srvCount n 7)
  else none

/-- Authentication of a frame for a window (R409, R419). -/
def State.authOk (s : State) (w : Window) (f : TFrame) : Bool :=
  !w.auth || (f.auth && w.counterOk f.counter.toNat && f.tag == f.mac (s.windowKey w))

/-- A port that retrains all its lanes at once loses the peer's frames; one lane at a time, it goes on (R403, R508; log 128). -/
def State.deaf (s : State) (n : Nat) : Bool := (s.srv n).retraining && s.lodge.set.laneRetrain == 0

/-- R409, in order. `needs` is the bit of the direction that allows the type, `off` and `len` are the range that the frame names, and
`shape` says whether seq, bytes and LAST agree with the length. -/
def State.checkFrame (s : State) (n : Nat) (f : TFrame) (needs off len : Nat) (shape known : Bool) : Frame :=
  if s.deaf n then .stop s else
  let s := s.srvCount n 0
  match s.frameFirst n f with
  | some t => .stop t
  | none =>
    let e := bits f.handle.toNat 11 0
    let w? := tget? (s.srv n).windows e
    if (w?.map (fun w => !s.authOk w f)).getD false then .stop (s.srvCount n 6)
    else match w? with
      | none => .stop (s.refuse n f tsClosed)
      | some w =>
        let w' := if w.auth then w.accept f.counter.toNat else w
        let s := s.modWindow n e (fun _ => w')
        if w.handle n e ≠ f.handle.toNat ∨ w.closing then .stop (s.refuse n f tsClosed)
        else if !w.dir.getLsbD needs then .stop (s.refuse n f tsDenied)
        else if w.length < off + len ∨ off % 64 ≠ 0 ∨ len = 0 ∨ !shape then
          .stop (s.refuse n f tsDenied)
        else if !known && decide (256 ≤ (if f.ftype = 1 then (s.srv n).incoming.length
            else (s.srv n).outgoing.length)) then .stop (s.refuse n f tsBusy)
        else .accept e w'

/-- A row that a window landing has written keeps what landed through a replay: its keep copy follows it (R452; log 132). -/
def State.landKeep (s : State) (a : Nat) (t : Target) : State :=
  let onChip := fun (p : Nat) (stage : Bool) (row : Nat) =>
    match (s.pav p).seq.keep.find? (fun k => k.space == (if stage then 1 else 0) && k.row == row) with
    | some k =>
      let d := copiedMeta sramCode (if stage then (s.pav p).stage else (s.pav p).garden)
        (if stage then row else s.gardenRow p (64 * row)) s.free
      s.fresh.2.modPav p (fun x => { x with garden := x.garden.putRow k.at_ d.1 d.2 })
    | none => s
  match t with
  | .cell p o => onChip p false (o / 64)
  | .stage p o => onChip p true (o / 64)
  | .hbm o =>
    match s.hbmAddr a o with
    | some m => match (s.allot a).keep.find? (fun k => k.row == m / 64) with
      | some k =>
        let d := copiedMeta hbmCode s.hbm (m / 64) s.free
        let s := s.fresh.2
        { s with hbm := s.hbm.putRow k.at_ d.1 d.2 }
      | none => s
    | none => s
  | .outside => s

/-- Lands an accepted WRITE frame's rows with their poison (R410, R418). No write reaches a monitor region (R210, R219; log 128). -/
def State.landFrame (s : State) (w : Window) (f : TFrame) : State :=
  let off := f.offset.toNat + 8192 * f.seq.toNat
  let d := f.data.take f.bytes.toNat
  let barred := fun (r : Nat) => w.space == 2 && touchesMonitor (bits w.base.toNat 27 0 + off + 64 * r) 64
  s.each ((List.range ((d.length + 63) / 64)).filter (fun r => !barred r)) (fun s r =>
    let t := s.windowTarget w (off + 64 * r)
    (s.targetPut w.allotment.val t .port ((d.drop (64 * r)).take 64) (f.pmap.getLsbD r)).landKeep w.allotment.val t)

def Incoming.is (i : Incoming) (f : TFrame) : Bool := i.peer == f.peer && i.xid == f.xid && i.handle == f.handle

/-- Lands a frame of transfer i, and completes the transfer when every frame has landed (R410). -/
def State.landIncoming (s : State) (n e : Nat) (w : Window) (i : Incoming) (f : TFrame) : State :=
  if i.landed.testBit f.seq.toNat then s.modSrv n (fun x => { x with
    incoming := x.incoming.map (fun j => if j.is f then { j with since := s.ns } else j) })
  else
    let s := s.landFrame w f
    let i := { i with landed := i.landed + 2 ^ f.seq.toNat, count := i.count + 1, since := s.ns }
    if i.count = framesOf i.length then
      let s := match s.windowTags w i.offset.toNat i.length with
        | some (p, ts) => s.modPav p (fun x => x.fillEnd ts)
        | none => s
      let s := s.modSrv n (fun x => { x with incoming := x.incoming.filter (fun j => !j.is f) })
      let s := s.modWindow n e (fun w => { w with
        completed := w.completed + 1, last := ((f.peer, f.xid) :: w.last).take 1024 })
      ((s.srvCount n 11).sendDone n e f.peer f.handle f.xid tsOK).wake w.allotment.val
    else s.modSrv n (fun x => { x with incoming := x.incoming.map (fun j => if j.is f then i else j) })

/-- The range of an incoming transfer may not be written yet: its tags are not empty, or its context is switched
out (R420, R464). -/
def State.incomingBlocked (s : State) (w : Window) (off len : Nat) : Bool :=
  s.windowWaits w || (match s.windowTags w off len with
    | some (p, ts) => !(s.pav p).allTags ts tagEmpty
    | none => false)

/-- The seq, bytes and LAST of a WRITE frame agree with its length (R404, R409), and the frame with the transfer that it
belongs to. -/
def State.writeShape (s : State) (n : Nat) (f : TFrame) : Bool :=
  let frames := framesOf f.length.toNat
  let i := f.seq.toNat
  decide (i < frames) && (f.last == decide (i + 1 = frames)) && f.data.length == f.bytes.toNat &&
  f.bytes.toNat == (if i + 1 = frames then f.length.toNat - 8192 * i else 8192) &&
  (s.srv n).incoming.all (fun j => !j.is f || (j.offset == f.offset && j.length == f.length.toNat))

/-- A frame of a transfer that the port has seen: one in progress, or one of those that it remembers as completed (R410). -/
def State.seenWrite (s : State) (n : Nat) (f : TFrame) : Bool :=
  (s.srv n).incoming.any (fun j => j.is f) ||
  ((tget? (s.srv n).windows (bits f.handle.toNat 11 0)).map (fun w => w.last.contains (f.peer, f.xid))).getD false

/-- The first slot of a list of tags that is not empty. -/
def State.firstTaken (s : State) (p : Nat) (ts : List Nat) : Option Nat :=
  ts.find? (fun t => ((s.pav p).tag t).state != tagEmpty)

/-- R246, R409, R410, R420: a peer's WRITE frame. -/
def execTransportWrite (n : SrvIx) (f : TFrame) (s : State) : Res :=
  onlyIf (f.isA 1) s <|
    let f := f.split
    let known := (s.srv n.val).incoming.any (fun j => j.is f)
    match s.checkFrame n.val f 0 f.offset.toNat f.length.toNat (s.writeShape n.val f) (s.seenWrite n.val f) with
    | .stop t => t
    | .accept e w =>
      let s := (s.srvCount n.val 0).modWindow n.val e (fun _ => w)
      let broken := if known then none else s.windowBroken w f.offset.toNat f.length.toNat
      if w.last.contains (f.peer, f.xid) then s.sendDone n.val e f.peer f.handle f.xid tsOK
      else if let some (p, t) := broken then
        ((s.brokenTag p t).srvCount n.val 12).sendDone n.val e f.peer f.handle f.xid tsTimeout
      else
        let s := if known then s else
          let blocked := s.incomingBlocked w f.offset.toNat f.length.toNat
          let s := if blocked then
              match s.windowTags w f.offset.toNat f.length.toNat with
              | some (p, ts) => match s.firstTaken p ts with
                | some t => s.modPav p (fun x => x.addWaiter t
                    (.window n.val f.peer.toNat f.xid.toNat f.handle.toNat) s.ns)
                | none => s
              | none => s
            else match s.windowTags w f.offset.toNat f.length.toNat with
              | some (p, ts) => s.modPav p (fun x => x.fillStart ts)
              | none => s
          s.modSrv n.val (fun x => { x with incoming := x.incoming ++
            [Incoming.mk f.peer f.xid f.handle f.offset f.length.toNat 0 0 0 s.ns blocked []] })
        match (s.srv n.val).incoming.find? (fun j => j.is f) with
        | none => s
        | some t =>
          if t.tagWait || s.windowWaits w then
            s.modSrv n.val (fun x => { x with incoming := x.incoming.map (fun j =>
              if j.is f && !j.waiting.any (fun g => g.seq == f.seq) then
                { j with waiting := j.waiting ++ [f], since := s.ns, tagWait := true } else j) })
          else s.landIncoming n.val e w t f

/-- R412: a peer's READ is answered with RDATA. -/
def execTransportRead (n : SrvIx) (f : TFrame) (s : State) : Res :=
  onlyIf (f.isA 2) s <|
    let f := f.split
    let same := fun (o : Outgoing) => !o.push && o.peer == f.peer && o.xid == f.xid && o.handle == f.handle
    let known := (s.srv n.val).outgoing.any same
    match s.checkFrame n.val f 1 f.offset.toNat f.length.toNat (f.data.isEmpty && f.bytes == 0) known with
    | .stop t => t
    | .accept e w =>
      let s := (s.srvCount n.val 0).modWindow n.val e (fun _ => w)
      if known then s
      else s.addOut n.val (Outgoing.mk false f.peer f.xid (BitVec.ofNat 12 e) f.handle f.offset f.length.toNat 0 s.ns none
        false false)

/-- R413: a BIND binds the window to the peer window that its data names; it names no range. -/
def execBind (n : SrvIx) (f : TFrame) (s : State) : Res :=
  onlyIf (f.isA 7) s <|
    let f := f.split
    match s.checkFrame n.val f 1 0 64 (f.data.length == 4 && f.bytes == 4) true with
    | .stop t => t
    | .accept e w =>
      let s := (s.srvCount n.val 0).modWindow n.val e (fun _ => { w with
        binding := some (f.peer, BitVec.ofNat 32 (leNat f.data)) })
      s.sendDone n.val e f.peer f.handle f.xid tsOK

/-- The outgoing transfer that a peer's answer names: one of the window whose handle it carries (R404, R410). -/
def State.outOf (s : State) (n : Nat) (f : TFrame) : Option Outgoing :=
  (s.srv n).outgoing.find? (fun o => o.peer == f.peer && o.xid == f.xid && o.entry.toNat == bits f.handle.toNat 11 0)

/-- The checks of R409 that concern a peer's DONE or NACK: those up to the one that its window is open. -/
def State.answerFrame (s : State) (n : Nat) (f : TFrame) : Frame :=
  if s.deaf n then .stop s else
  let s := s.srvCount n 0
  match s.frameFirst n f with
  | some t => .stop t
  | none =>
    let e := bits f.handle.toNat 11 0
    match tget? (s.srv n).windows e with
    | none => .stop (s.refuse n f tsClosed)
    | some w =>
      if !s.authOk w f then .stop (s.srvCount n 6)
      else
        let w' := if w.auth then w.accept f.counter.toNat else w
        if w.handle n e ≠ f.handle.toNat ∨ w.closing then .stop ((s.modWindow n e (fun _ => w')).refuse n f tsClosed)
        else .accept e w'

/-- Starts outgoing transfers that waited for a place, a context or tags. -/
def State.pumpOut (s : State) (n : Nat) : State :=
  s.each ((s.srv n).outgoing.filter (·.wait)) (fun s o => s.tryOut n o)

/-- R412, R414, R415: a peer's DONE ends an RDATA or PUSH. -/
def execDone (n : SrvIx) (f : TFrame) (s : State) : Res :=
  onlyIf (f.isA 5) s <|
    let f := f.split
    match s.answerFrame n.val f with
    | .stop t => t
    | .accept e w =>
      let s := (s.srvCount n.val 0).modWindow n.val e (fun _ => w)
      match s.outOf n.val f with
      | none => s
      | some o =>
        if f.status ≠ 0 then (s.failOut n.val o f.status.toNat).pumpOut n.val
        else
          let s := s.modSrv n.val (fun x => { x with
            outgoing := x.outgoing.filter (fun y => !o.same y) })
          let s := if o.push then
              ((s.srvCount n.val 13).modWindow n.val e (fun w => { w with completed := w.completed + 1 })).wake
                w.allotment.val
            else s
          s.pumpOut n.val

/-- R412, R415: a peer's NACK: missing frames are sent again, a refusal fails the transfer, BUSY delays it. -/
def execTransportNack (n : SrvIx) (f : TFrame) (s : State) : Res :=
  onlyIf (f.isA 6) s <|
    let f := f.split
    match s.answerFrame n.val f with
    | .stop t => t
    | .accept e w =>
      let s := ((s.srvCount n.val 0).srvCount n.val 9).modWindow n.val e (fun _ => w)
      match s.outOf n.val f with
      | none => s
      | some o =>
        let set := fun (s : State) (g : Outgoing → Outgoing) => s.modSrv n.val (fun x => { x with
          outgoing := x.outgoing.map (fun y => if o.same y then g y else y) })
        match f.status.toNat with
        | 1 =>
          if 4 ≤ o.rounds ∧ o.rounds < f.round.toNat then (s.failOut n.val o tsMissing).pumpOut n.val
          else
            let map := leNat f.data
            let l := below 1024 (fun i => map.testBit i && decide (f.nbase.toNat + i < framesOf o.length))
            let s := set s (fun y => { y with
              rounds := max y.rounds f.round.toNat, since := s.ns, busySince := none, busy := false })
            s.sendParts n.val o true (l.map (· + f.nbase.toNat))
        | 4 => set s (fun y => { y with busySince := some (y.busySince.getD s.ns), busy := true, since := s.ns })
        | 2 | 3 => (s.failOut n.val o f.status.toNat).pumpOut n.val
        | _ => s

/-! ### Timers -/

/-- NACK MISSING frames of a round, one per 1,024-sequence range (R411). -/
def State.nackMissing (s : State) (n e : Nat) (i : Incoming) (round : Nat) : State :=
  s.each (List.range ((framesOf i.length + 1023) / 1024)) (fun s b =>
    let miss := below 1024 (fun k => decide (1024 * b + k < framesOf i.length) && !i.landed.testBit (1024 * b + k))
    if miss.isEmpty then s
    else (s.srvCount n 8).sendFrame n e { s.frame n 6 i.peer i.handle i.xid with
      status := 1, round := BitVec.ofNat 8 round, nbase := BitVec.ofNat 32 (1024 * b),
      bytes := 128, data := natLE 128 (sumBy miss (fun k => 2 ^ k)) })

/-- R411: an incoming transfer's timer elapses with frames missing. -/
def execTransferTimer (n : SrvIx) (peer : BitVec 48) (xid : BitVec 16) (handle : BitVec 32) (s : State) : Res :=
  match (s.srv n.val).incoming.find? (fun i => i.peer == peer && i.xid == xid && i.handle == handle) with
  | none => .next s
  | some i =>
    let e := bits handle.toNat 11 0
    if i.tagWait ∨ s.ns < i.since + s.landingNs then .next s
    else if i.round < 4 then
      let s := s.modSrv n.val (fun x => { x with incoming := x.incoming.map (fun j =>
        if j.peer = peer ∧ j.xid = xid ∧ j.handle = handle then { j with round := i.round + 1, since := s.ns } else j) })
      .next (s.nackMissing n.val e i (i.round + 1))
    else
      let s := s.modSrv n.val (fun x => { x with incoming := x.incoming.filter (fun j =>
        !(j.peer == peer && j.xid == xid && j.handle == handle)) })
      .next ((s.srvCount n.val 12).sendDone n.val e peer handle xid tsTimeout)

/-- R412: neither DONE nor NACK within 2 landing timeouts of the last frame sent; after four rounds the transfer has
failed. -/
def execOutgoingResend (n : SrvIx) (xid : BitVec 16) (s : State) : Res :=
  match (s.srv n.val).outgoing.find? (fun o => o.xid == xid && !o.wait && !o.busy &&
      decide (o.since + 2 * s.landingNs ≤ s.ns)) with
  | none => .next s
  | some o =>
    if 4 ≤ o.rounds then .next ((s.failOut n.val o tsTimeout).pumpOut n.val)
    else
      let s := s.modSrv n.val (fun x => { x with outgoing := x.outgoing.map (fun y =>
        if o.same y then { y with rounds := y.rounds + 1, since := s.ns } else y) })
      .next (s.sendParts n.val o true (List.range (framesOf o.length)))

/-- A transfer that the peer answered BUSY, whose 10 µs or whose 1 s have passed (R415). -/
def State.busyOut (s : State) (n : Nat) (xid : BitVec 16) (expired : Bool) : Option Outgoing :=
  (s.srv n).outgoing.find? (fun o => o.xid == xid && o.busy &&
    (decide (1000000000 + o.busySince.getD s.ns ≤ s.ns) == expired) && (expired || decide (10000 + o.since ≤ s.ns)))

/-- R415: a transfer that the peer answered BUSY starts again after 10 µs, for up to 1 s. -/
def execBusyRetry (n : SrvIx) (xid : BitVec 16) (expired : Bool) (s : State) : Res :=
  match s.busyOut n.val xid expired with
  | none => .next s
  | some o =>
    if expired then .next ((s.failOut n.val o tsBusy).pumpOut n.val)
    else
      let s := s.modSrv n.val (fun x => { x with outgoing := x.outgoing.map (fun y =>
        if o.same y then { y with since := s.ns, busy := false } else y) })
      .next (s.sendParts n.val o false (List.range (framesOf o.length)))

/-- R403: a port whose pre-FEC bit error rate exceeds 10^-5 over a 1 s window retrains; its windows stay open. The
rate is an F32 of bits `ber`; 10^-5 rounds to 0x3727C5AC. -/
def execServerPortRetrain (n : SrvIx) (ber : BitVec 32) (s : State) : Res :=
  let s := s.modSrv n.val (fun x => { x with ber := ber })
  onlyIf (decide (0x3727C5AC < ber.toNat)) s
    ((s.modSrv n.val (fun x => { x with retraining := true })).srvCount n.val 15)

/-- R508: a Footbridge span retrains; nothing is lost, since its traffic is held under credit. -/
def execFootbridgeRetrain (n : Fin 9) (errors bits : Nat) (lanes : List (LinkId × Nat)) (s : State) : Res :=
  onlyIf (decide (1000000000 + (s.link (.span n)).winStart ≤ s.ns ∧ bits < 10 ^ 12 * errors)) s
    (let s := (s.failLanes n.val lanes).modLink (.span n) (fun x => { x with winStart := s.ns, trained := true })
    if lanes.isEmpty then s else s.flashWrite .repair 0 1)

/-! ### Held grants (R287, R420, R464) -/

/-- Lands the frames of transfers that waited for tags or a context. -/
def State.pumpIn (s : State) (n : Nat) : State :=
  s.each (s.srv n).incoming (fun s i =>
    let e := bits i.handle.toNat 11 0
    match tget? (s.srv n).windows e with
    | none => s
    | some w =>
      let started := decide (i.count ≠ 0)
      if !i.tagWait || s.windowWaits w || (!started && s.incomingBlocked w i.offset.toNat i.length) then s
      else
        let s := match s.windowTags w i.offset.toNat i.length with
          | some (p, ts) => s.modPav p (fun x =>
              (if started then x else x.fillStart ts).dropWaiter (.window n i.peer.toNat i.xid.toNat i.handle.toNat))
          | none => s
        let s := s.modSrv n (fun x => { x with incoming := x.incoming.map (fun j =>
          if j.peer = i.peer ∧ j.xid = i.xid ∧ j.handle = i.handle then
            { j with tagWait := false, waiting := [], since := s.ns } else j) })
        s.each i.waiting (fun s f => match (s.srv n).incoming.find? (fun j => j.is f) with
          | some j => s.landIncoming n e w j f
          | none => s))

/-- R287, R291, R420: what a receiver holds back is granted, and READs that wait are served, once nothing stands against them. -/
def execHeldGrant (r : Receiver) (s : State) : Res :=
  let s := (s.grantHeld r).pumpReads r
  .next (match r with
    | .server n => (s.pumpIn n.val).pumpOut n.val
    | _ => s)

end Sys2Proof.Machine
end

