-- ==== Sys2Proof/Machine/Allots.lean ====
section
/-! DEFINITION. Forming, closing and configuring allotments, and the module's resets (R246–R250, R312, R351–R354,
R367–R372, R382–R384, R406, R509). -/

namespace Sys2Proof.Machine

/-! ### Images and parcels (R361, R362, R367, R370) -/

/-- The base image slot and parcel of an overlay: a verified base whose digest the overlay names (R360, R370). -/
def State.overlayBase (s : State) (n : Nat) : Option (Nat × Nat) :=
  let h := imgHeader (s.image n).content
  ((List.range 64).find? (fun b => b != 0 && (s.image b).status == 2 &&
    (imgHeader (s.image b).content).kind == 1 && leNat (shake256 (s.image b).content 32) == h.base)).map
      (fun b => (b, h.parcels))

/-- The parcel that an allotment takes: its overlay's, or the matching one of the active base (R367). A parcel whose
stage bytes leave less than 64 MiB of the stage area is not taken (R451). -/
def State.parcelFor (s : State) (a : Nat) : Option (Nat × Nat) :=
  let x := s.allot a
  let fits := fun (b k : Nat) =>
    let cs := imgChunks (s.image b).content
    parcelMask cs k == some x.plots.toNat && decide (67108864 + parcelStage cs k ≤ 10 ^ 9)
  if x.overlay ≠ 0 then
    match s.overlayBase x.overlay.toNat with
    | some (b, k) => if fits b k then some (b, k) else none
    | none => none
  else
    let b := s.lodge.set.activeBase.toNat
    if b = 0 ∨ (s.image b).status ≠ 2 then none
    else ((List.range 16).find? (fun k => fits b k)).map (fun k => (b, k))

/-- The chunks of a parcel with the allotment's overlay applied (R362, R368). -/
def State.parcelChunks (s : State) (a b k : Nat) : List Chunk :=
  let base := (imgChunks (s.image b).content).filter (fun c => c.parcel.toNat == k)
  let o := (s.allot a).overlay.toNat
  if o = 0 then base else applyOverlay base ((imgChunks (s.image o).content).filter (fun c => c.parcel.toNat == k))

/-- A port or source of a plot's switch that R255 lets a slot table use: an edge channel that is not withdrawn and leads
to another plot of the mask, or one inside the plot. Edges N, E, S and W have 0–255. -/
def State.edgeOpen (s : State) (mask plot port : Nat) : Bool :=
  decide (256 ≤ port) || (((edgeTo plot (port / 64)).map mask.testBit).getD false &&
    !(s.plot plot).promWithdrawn.getLsbD port)

/-- R254, R255: an entry of a slot table names a port and a source that exist and lie inside the allotment. -/
def State.slotFits (s : State) (mask plot : Nat) (port src : Nat) : Bool :=
  s.edgeOpen mask plot port && s.edgeOpen mask plot src && decide (src < 400)

/-- R255, R263: the slot tables that an overlay brings keep to the plots of a mask, and no table of a section that it touches uses a
steering unit against its mode, `all` being the parcel's chunks with the overlay applied. -/
def State.slotTablesFit (s : State) (mask : Nat) (own all : List Chunk) : Bool :=
  (own.filter (fun c => c.ty == 5)).all (fun c =>
    (numbered (words32 c.data)).all (fun e => !e.2.getLsbD 31 ||
      s.slotFits mask (c.target.toNat - 0x100) (e.1 / 64) (bits e.2.toNat 30 22))) &&
  (own.filter (fun c => c.ty == 5 || c.ty == 6)).all (fun c =>
    ((sectionList all).filter (fun n => c.section_ == 0xFF || c.section_.toNat == n)).all (fun n =>
      let x := promChunks all (c.target.toNat - 0x100) n
      !x.slots.any (steerMisused x.steer)))

/-- The overlay check of R370: 0 or an abort code. A table that R263 refuses is refused as one that breaks R255 (log 92). -/
def State.overlayCheck (s : State) (a n : Nat) : Nat :=
  if n = 0 then 0
  else if 64 ≤ n then 0x0A03
  else
    let im := s.image n
    let h := imgHeader im.content
    if im.status ≠ 2 ∨ h.kind ≠ 2 ∨ s.lodge.fw.version.toNat < h.minFw then 0x0A03
    else match s.overlayBase n with
      | none => 0x0A04
      | some (b, k) =>
        let mask := (s.allot a).plots.toNat
        let base := imgChunks (s.image b).content
        let own := (imgChunks im.content).filter (fun c => c.parcel.toNat == k)
        if parcelMask base k ≠ some mask then 0x0A04
        else if !s.slotTablesFit mask own (applyOverlay (base.filter (fun c => c.parcel.toNat == k)) own) then 0x0A04
        else 0

/-! ### Scrub (R248, R249) -/

/-- A plot's scrub starts: it belongs to no allotment. -/
def State.scrubStart (s : State) (p : Nat) : State :=
  (s.modPlot p (fun x => { x with owner := none, scrubbing := true, zeroed := false })).progressTo (1 + p) 1 0 5 (0x2100 + p)

/-- The plots of a mask. -/
def plotsIn (mask : BitVec 64) : List Nat := below 56 (fun p => mask.getLsbD p)

/-- An allotment whose closing has come to its plots: no window and no command of it is left (R384 steps 2–4). -/
def State.closedOut (s : State) (a : Nat) : Bool :=
  let x := s.allot a
  (x.enable == .closing || x.enable == .closingPending) && !x.closeDue && x.jobs.isEmpty &&
  x.queues.all (fun e => e.2.cmds.isEmpty) &&
  (List.range 16).all (fun n => (s.srv n).windows.all (fun e => e.2.allotment.val != a))

/-- R248 steps 1–4: the plot's gardens, stages, engine state and tags are cleared. A plot of a closing allotment
leaves it as its scrub begins. -/
def execPlotScrub (p : PlotIx) (s : State) : Res :=
  let x := s.plot p.val
  let leave := (s.ownerOf p.val).any s.closedOut
  if x.scrubbing || leave then
    let s := if x.scrubbing then s else s.scrubStart p.val
    .next (((s.eachPav p.val Pav.scrub).modPlot p.val (fun x => { x with zeroed := true })).progressTo (1 + p.val) 1 4 5 (0x2100 + p.val))
  else .next s

/-- The read-back of R248 step 5, which follows steps 1–4, ends: a cell or pavilion that fails it goes to the kitty, and the plot joins the allotment
that is opening with it (R249, R382, R383). -/
def execPlotScrubDone (p : PlotIx) (failedPavs : List (Fin 4)) (failedCells : List (Fin 4 × Fin 1088)) (s : State) : Res :=
  if !(s.plot p.val).scrubbing || !(s.plot p.val).zeroed then .next s
  else
    let s := s.modPlot p.val (fun x => { x with scrubbing := false, zeroed := false })
    let s := s.each failedCells (fun s c => s.bistCell (4 * p.val + c.1.val) c.2.val false)
    let s := s.each failedPavs (fun s q => s.bistFail (4 * p.val + q.val))
    let joins := (List.range 16).find? (fun a => (s.allot a).enable == .opening && (s.allot a).plots.getLsbD p.val)
    let s := match joins with
      | some a => (s.modPlot p.val (fun x => { x with owner := some (Fin.ofNat 16 a) })).modAllot a (fun x =>
          { x with claims := x.claims &&& ~~~(BitVec.ofNat 64 (2 ^ p.val)) })
      | none => s
    .next (s.progressEnd (1 + p.val) 2)

/-! ### Opening (R382, R383) -/

/-- Express neighbours (R29). -/
def plotsAdjacent (p q : Nat) : Bool := plotHops p q == 1

/-- Two gates in service are joined by an express link that is not withdrawn (R301). -/
def State.expressJoined (s : State) (p q : Nat) : Bool :=
  plotsAdjacent p q && (List.range 16).any (fun i => expressTo p (i / 4) == q &&
    (s.link (.express (Fin.ofNat 56 p) (Fin.ofNat 4 (i / 4)) (Fin.ofNat 4 i))).state != 2)

/-- R312: at most 8 plots, each joined to an edge gate of the allotment by express links between gates of the
allotment. -/
def State.directOk (s : State) (mask : BitVec 64) : Bool :=
  let ps := plotsIn mask
  let edges := ps.filter (fun p => !(segsOfPlot p).isEmpty)
  let grow := fun (l : List Nat) => ps.filter (fun p => l.contains p || l.any (fun q => s.expressJoined p q))
  let reach := (List.range 8).foldl (fun l _ => grow l) edges
  decide (ps.length ≤ 8) && !edges.isEmpty && ps.all (fun p => reach.contains p)

/-- Two range entries overlap. -/
def rangesMeet (x y : BitVec 32 × BitVec 32) : Bool :=
  x.2 != 0 && y.2 != 0 && decide (x.1.toNat < y.1.toNat + y.2.toNat ∧ y.1.toNat < x.1.toNat + x.2.toNat)

def rangesDisjoint : List (BitVec 32 × BitVec 32) → Bool
  | [] => true
  | r :: t => t.all (fun u => !rangesMeet r u) && rangesDisjoint t

/-- The rules of R382 that concern other objects than plots. -/
def State.openRules (s : State) (a : Nat) : Bool :=
  let x := s.allot a
  let others := (List.range 16).filter (fun b => b != a && (s.allot b).live)
  let rs := x.ranges.filter (fun r => r.2 != 0)
  x.plots != 0 && decide (x.plots.toNat < 2 ^ 56) &&
  others.all (fun b => !((s.allot b).hostPort == x.hostPort && (s.allot b).pf == x.pf)) &&
  rs.all (fun r => decide (r.1.toNat + r.2.toNat ≤ 1536)) && rangesDisjoint rs &&
  others.all (fun b => rs.all (fun r => (s.allot b).ranges.all (fun u => !rangesMeet r u))) &&
  decide (2 ≤ sumBy rs (fun r => r.2.toNat)) && (x.attach == 0 || s.directOk x.plots) &&
  decide (x.queuePairs.toNat + sumBy others (fun b => (s.allot b).queuePairs.toNat) ≤ 65536) &&
  others.all (fun b => (s.allot b).serverPorts &&& x.serverPorts == 0) &&
  others.all (fun b => (s.allot b).claims &&& x.plots == 0)

/-- The live allotments that hold a plot of the mask. -/
def State.plotHolders (s : State) (a : Nat) : List Nat :=
  (List.range 16).filter (fun b => b != a && (s.allot b).live && (s.allot b).plots &&& (s.allot a).plots != 0)

/-- Starts an opening: key pair, scrubs, and the zeroing of the ranges. -/
def State.startOpen (s : State) (a : Nat) (pending : Bool) : State :=
  let x := s.allot a
  let key := s.lodge.nextKey
  let s := s.modLodge (fun l => { l with nextKey := l.nextKey + 1 })
  let held := plotsIn x.plots |>.filter (fun p => (s.ownerOf p).isSome || (s.plot p).scrubbing)
  let s := s.modAllot a (fun x => { x with
    enable := .opening, key := some key, zeroed := false, wkeys := [], queues := [], fetchCount := 0, jobs := []
    counters := [], evq := [], parcel := none, chunks := [], sections := [], sectionPos := 0, sectionActive := false
    frozen := none, frozenNext := [], pavMap := [], tunnels := [], spills := [], taint := [], keep := []
    overlayPending := none, redealDue := false, dealing := false, closeDue := false, pendOpen := pending
    claims := BitVec.ofNat 64 (sumBy (held.filter (fun p => (s.ownerOf p).isSome)) (fun p => 2 ^ p)) })
  let s := s.each ((plotsIn x.plots).filter (fun p => !held.contains p)) State.scrubStart
  s.progressTo (0x40 + a) 1 0 (sumBy x.ranges (fun r => r.2.toNat)) (0x2400 + a)

/-- A write of 1 to an allotment's enable (R351, R353, R382): the answer and the state. -/
def State.allotEnable (s : State) (a : Nat) : Nat × State :=
  let x := s.allot a
  match x.enable with
  | .opening | .open_ => (0, s)
  | .failed => (0x0A04, s)
  | .closingPending => (0x0A06, s)
  | .closing =>
    if (List.range 16).any (fun b => b != a && (s.allot b).claims &&& x.plots != 0) then (0x0A04, s)
    else (0x0A06, s.modAllot a (fun y => { y with enable := .closingPending }))
  | .closed =>
    let holders := s.plotHolders a
    if s.lodge.phase != .ready || s.lodge.computeReset || !s.openRules a then (0x0A04, s)
    else if holders.isEmpty then (0, s.startOpen a false)
    else if holders.all (fun b => (s.allot b).enable == .closing) then (0x0A06, s.startOpen a false)
    else (0x0A04, s)

/-- R327, R383 step 3: every line of the ranges reads zero under the new key, and the ranges join. -/
def execHbmZeroingDone (a : AllotIx) (s : State) : Res :=
  let x := s.allot a.val
  if x.enable != .opening || x.zeroed then .next s
  else
    let s : State := { s with hbm := x.ranges.foldl (fun m r =>
      m.zeroRows (10 ^ 9 * r.1.toNat / 64) (10 ^ 9 * r.2.toNat / 64)) s.hbm }
    .next ((s.modAllot a.val (fun x => { x with zeroed := true })).progressEnd (0x40 + a.val) 2)

/-- The function of an allotment is set as after an open or when it becomes idle: ring and window closed. -/
def State.idleFn (s : State) (h f : Nat) : State :=
  s.modFn h f (fun x => { x with
    evqBase := 0, evqCtrl := 0, evqHead := 0, evqTail := 0, evqPhase := true, qsel := 0, classWeight := 0x10101010
    w4ctrl := 0, w4base := 0, mbxCtrl := 0, mbxStatus := 0, mbxGather := [] })

/-- Puts the parcel of an allotment in force: chunks with overlay, section list, garden settings, tag plan (R361,
R367, R368). -/
def State.putParcel (s : State) (a : Nat) : State :=
  match s.parcelFor a with
  | none => s.modAllot a (fun x => { x with parcel := none, chunks := [], sections := [] })
  | some (b, k) =>
    let cs := (s.allot a).withAlternates (s.parcelChunks a b k)
    let s := s.modAllot a (fun x => { x with parcel := some (b, k), chunks := cs, sections := sectionList cs })
    s.each (s.runners a) (fun s e => s.settingsPav e.2 ((s.allot a).chunksOf e.1))

/-- No chunk of the parcel in force is for pavilion p. -/
def Allot.unused (x : Allot) (p : Nat) : Bool := !x.chunks.any (fun c => c.target.toNat == p && c.ty != 0x0B)

/-- Presented pavilions that are failed are replaced or doubled before the allotment reads open (R502), those that a test
selects. -/
def State.replaceFailed (s : State) (a : Nat) (want : Nat → Bool) : State :=
  s.each ((s.pavsOfAllot a).filter (fun p => (s.pav p).role == .presented && (s.pav p).enable == .failed &&
    (s.pav p).doubled.isNone && want p)) (fun s p => s.place a p p (some p) true false true)

/-- A deal of an allotment that closes or fails is dropped. -/
def State.dropDeal (s : State) (a : Nat) : State :=
  (s.modAllot a (fun y => { y with dealing := false })).modLodge (fun l => { l with
    dealQueue := l.dealQueue.filter (fun b => b.val != a)
    deal := if (l.deal.map (·.allotment)) = some (some (Fin.ofNat 16 a)) then none else l.deal })

/-- R383: the last opening step ends. On failure the plots are scrubbed and the keys destroyed. -/
def execAllotmentOpenDone (a : AllotIx) (ok : Bool) (s : State) : Res :=
  let x := s.allot a.val
  let joined := (plotsIn x.plots).all (fun p => s.ownerOf p == some a.val)
  if x.enable != .opening then .next s
  else if !ok || (plotsIn x.plots).any (fun p => (s.plot p).out) then
    let s := (s.dropDeal a.val).modAllot a.val (fun x => { x with
      enable := .failed, key := none, wkeys := [], claims := 0, zeroed := false })
    let s := s.each ((plotsIn x.plots).filter (fun p => s.ownerOf p == some a.val)) State.scrubStart
    .next (if x.pendOpen then s.event 0x0008 5 (0x2400 + a.val) 1 a.val else s)
  else if !joined || !x.zeroed || x.claims != 0 || 
      ((s.parcelFor a.val).isSome && (!x.dealing || (s.lodge.deal.map (·.allotment)) == some (some a))) then .next s
  else
    let s := s.putParcel a.val
    let s := s.modAllot a.val (fun x => { x with
      enable := .open_, dealing := false, pendOpen := false, counters := [], queues := [], evq := [] })
    let s := (s.replaceFailed a.val (fun _ => true)).idleFn x.hostPort.toNat x.pf.toNat
    .next (if x.pendOpen then s.event 0x0008 2 (0x2400 + a.val) 1 a.val else s)

/-! ### Closing (R384) -/

/-- Empties an image slot, on both flash devices too (R355, R364, R384). -/
def State.emptySlot (s : State) (n : Nat) : State :=
  (s.modLodge (fun l => { l with
    images := tdel l.images n, flashJobs := l.flashJobs.filter (fun j => !(j.region == .images && j.slot == n)) })).flashWrite
    .images n 1

/-- Steps 1–3 of R384. -/
def State.closeSteps (s : State) (a : Nat) : State :=
  let s := match (s.allot a).launchJob with
    | some j => s.finishJob a { j with ended := some 6 } stRefusedState
    | none => s
  let cmds := (s.allot a).queues.flatMap (fun e => e.2.cmds.map (fun c => (e.1, c)))
  let refused := cmds.filter (fun e => e.2.state == .fetched || e.2.state == .held ||
    (e.2.state == .waiting && e.2.op == 0x07) || e.2.op == 0x09)
  let s := s.each refused (fun s e =>
    let s := if e.2.op = 0x09 ∧ e.2.state ≠ .fetched then s.emptySlot (bits e.2.a2 5 0) else s
    s.complete a e.1 e.2.id stRefusedState 0)
  let s := s.each (List.range 16) (fun s n => s.closeWindows n (fun w => w.allotment.val == a))
  (s.modAllot a (fun x => { x with closeDue := false })).wake a

/-- A write of 0 to an allotment's enable (R352, R384, R467). -/
def State.allotDisable (s : State) (a : Nat) : Nat × State :=
  let x := s.allot a
  match x.enable with
  | .closed | .closing => (0, s)
  | .closingPending => (0, s.modAllot a (fun y => { y with enable := .closing }))
  | .failed => (0, s.modAllot a (fun y => { y with enable := .closed }))
  | .opening | .open_ =>
    let s := (s.dropDeal a).modAllot a (fun y => { y with enable := .closing, claims := 0, pendOpen := false })
    if (x.frozen.map (·.shuffle)).getD false then (0, s.modAllot a (fun y => { y with closeDue := true }))
    else (0, s.closeSteps a)

/-- R384 steps 5 and 6, R354: closing completes, and a pending enable is carried out. -/
def execAllotmentCloseDone (a : AllotIx) (s : State) : Res :=
  let x := s.allot a.val
  if x.enable != .closing && x.enable != .closingPending then .next s
  else if x.closeDue then
    (if (x.frozen.map (·.shuffle)).getD false then .next s else .next (s.closeSteps a.val))
  else if !s.closedOut a.val ||
      !(plotsIn x.plots).all (fun p => s.ownerOf p != some a.val && !(s.plot p).scrubbing) then .next s
  else
    let s := s.endDoublings ((plotsIn x.plots).flatMap pavsOf)
    let s := s.idleFn x.hostPort.toNat x.pf.toNat
    let s := s.modAllot a.val (fun y => { y with
      enable := .closed, key := none, wkeys := [], queues := [], jobs := [], evq := [], counters := [], parcel := none
      chunks := [], sections := [], sectionActive := false, frozen := none, frozenNext := [], pavMap := [], tunnels := []
      spills := [], taint := [], keep := [], zeroed := false, tried := [], overlayPending := none, redealDue := false
      attachPending := none })
    if x.enable = .closingPending then
      let holders := s.plotHolders a.val
      if s.openRules a.val && holders.isEmpty then .next (s.startOpen a.val true)
      else .next ((s.modAllot a.val (fun y => { y with enable := .failed })).event 0x0008 5 (0x2400 + a.val) 1 a.val)
    else .next s

/-! ### Resets (R406, R509) -/

/-- Every window is closed and the generations are drawn again (R406). -/
def State.resetWindows (s : State) : State :=
  s.each (List.range 16) (fun s n =>
    let f := s.fresh
    f.2.modSrv n (fun x => { x with
      windows := [], incoming := [], outgoing := [], refused := [], gens := [], genDraw := f.1 }))

/-- The start-up state of a plot in step 3 of R496: its switch, settings and tasks. -/
def Plot.startOver (x : Plot) : Plot :=
  { x with
    e := { x.e with on := false }, g := { x.g with on := false }, prom := .empty, promIdle := none, circuits := []
    steers := [], merges := [], bistDone := false, bistTask := false, linkTask := false, dealTask := false
    deal := .empty, dealt := false, owner := none, scrubbing := false, fenced := false, shedding := false }

/-- The compute reset of R509: step 3 for E and G, then steps 4–6; ports, HBM, H domains and derating keep running. -/
def State.computeReset (s : State) : State :=
  let s := s.each (List.range 56) (fun s p => 
    (((s.modPlot p Plot.startOver).eachPav p (fun x => x.clearE.clearG)).dropRxs p .G).dropRxs p .E)
  let s : State := { s with links := s.links.map (fun e =>
    let l := { e.2 with state := if e.2.state = 1 then 0 else e.2.state }
    match e.1 with
    | .express _ _ _ | .prom _ _ _ | .cellTorus _ _ _ _ | .attach _ _ _ | .port _ _ | .segGate _ _ _ =>
      (e.1, { l with checked := false, trained := false })
    | _ => (e.1, l)) }
  let s := s.resetWindows
  let s := s.modLodge (fun l => { l with
    moduleState := 0, computeReset := true, phase := .steps23, waves := [], deal := none, dealQueue := []
    stepStart := tset (tdel (tdel l.stepStart 4) 5) 3 s.ns })
  (s.progressTo 0 1 0 168 0x2100).event 0x000A 0 0x2000 1 0x1F

end Sys2Proof.Machine
end

