-- ==== Sys2Proof/Machine/Flags.lean ====
section
/-! DEFINITION. The flags of the engines and the sticky flag word (R51, R152, R153). A set of flags is a number with
the bits of the sticky flag word's [6:0]. -/

namespace Sys2Proof.Machine

/-- A set of flags, as bits [6:0] of the sticky flag word (R152). -/
abbrev Flags := Nat

def fInvalid : Flags := 1
def fDivZero : Flags := 2
def fOverflow : Flags := 4
def fUnderflow : Flags := 8
def fInexact : Flags := 16
def fPoison : Flags := 32
def fIndex : Flags := 64

def flagIf (c : Bool) (f : Flags) : Flags := if c then f else 0

/-- The union of two sets of flags. -/
def Flags.or (f g : Flags) : Flags := f ||| g

def orFlags (l : List Flags) : Flags := l.foldl (· ||| ·) 0

/-- Where a flag of the sticky word came from (R152). -/
inductive Src3 where
  | ve | out | idx
  deriving DecidableEq, Repr

/-- The source bit of the sticky flag word. -/
def Src3.bits : Src3 → Nat
  | .ve => 2 ^ 10
  | .out => 2 ^ 9
  | .idx => 2 ^ 8

/-- The sticky flag word after flags from a source (R152); no flag leaves it as it was. -/
def stickyOr (w : Word) (src : Src3) (f : Flags) : Word :=
  if f % 128 = 0 then w else w ||| BitVec.ofNat 32 (src.bits + f % 128)

/-- ORs flags into a pavilion's sticky flag word. -/
def State.raise (s : State) (p : Nat) (src : Src3) (f : Flags) : State :=
  s.modVE p (fun v => { v with sticky := stickyOr v.sticky src f })

/-- The flags of one VE instruction: its snapshot, ORed into the sticky flag word (R152). -/
def State.veFlags (s : State) (p : Nat) (f : Flags) : State :=
  (s.raise p .ve f).modVE p (fun v => { v with snapshot := BitVec.ofNat 7 (f % 128) })

end Sys2Proof.Machine
end

