-- ==== Sys2Proof/Machine/Numerics.lean ====
section
/-! DEFINITION. The number formats of the engines and their arithmetic (R37–R57): reading stored bits, exact sums and
products with special values, rounding to each format with its flags, MX scales, W40, and double-word FP32. -/

namespace Sys2Proof.Machine

/-! ### Formats (R37, R66) -/

/-- How a floating format uses its largest exponent: infinities and NaNs, one NaN only, or neither. -/
inductive Special where
  | ieee | e4m3 | none_
  deriving DecidableEq, Repr

/-- A floating storage format of R37. -/
structure FloatFmt where
  exp : Nat
  frac : Nat
  bias : Int
  special : Special
  deriving DecidableEq, Repr

def fp32 : FloatFmt := { exp := 8, frac := 23, bias := 127, special := .ieee }
def fp16 : FloatFmt := { exp := 5, frac := 10, bias := 15, special := .ieee }
def bf16 : FloatFmt := { exp := 8, frac := 7, bias := 127, special := .ieee }
def e4m3 : FloatFmt := { exp := 4, frac := 3, bias := 7, special := .e4m3 }
def e5m2 : FloatFmt := { exp := 5, frac := 2, bias := 15, special := .ieee }
def e2m3 : FloatFmt := { exp := 2, frac := 3, bias := 1, special := .none_ }
def e3m2 : FloatFmt := { exp := 3, frac := 2, bias := 3, special := .none_ }
def e2m1 : FloatFmt := { exp := 2, frac := 1, bias := 1, special := .none_ }
/-- R43: the W40 wide float. -/
def w40 : FloatFmt := { exp := 11, frac := 28, bias := 1023, special := .ieee }

/-- What one element of a format code holds: a float, a two's complement integer times 2^(−shift), or a double-word
pair. -/
inductive Elem where
  | flt (f : FloatFmt)
  | int (shift : Nat)
  | dw
  deriving DecidableEq, Repr

/-- The element of a format code of *ME format codes* (R66). -/
def elemOf : Nat → Elem
  | 0 | 6 => .flt e4m3
  | 1 | 7 => .flt e5m2
  | 2 | 8 => .flt e2m3
  | 3 | 9 => .flt e3m2
  | 4 | 10 => .flt e2m1
  | 5 => .int 0
  | 11 => .int 6
  | 12 => .flt bf16
  | 13 => .flt fp16
  | 14 => .flt fp32
  | _ => .dw

/-- Bits of one element of a format code (R67). -/
def elemBits : Nat → Nat
  | 0 | 1 | 5 | 6 | 7 | 11 => 8
  | 2 | 3 | 8 | 9 => 6
  | 4 | 10 => 4
  | 12 | 13 => 16
  | 14 => 32
  | _ => 64

/-- Codes 0x6–0xB are MX formats (R66). -/
def isMx (code : Nat) : Bool := decide (6 ≤ code ∧ code ≤ 11)

/-- The classes of R62, ordered by how slow they are. -/
inductive Class where
  | n4 | n8 | w16 | fp32
  deriving DecidableEq, Repr

def Class.rank : Class → Nat
  | .n4 => 0
  | .n8 => 1
  | .w16 => 2
  | .fp32 => 3

def classOf (code : Nat) : Class :=
  if [2, 3, 4, 8, 9, 10].contains code then .n4
  else if [12, 13].contains code then .w16
  else if code = 14 then .fp32
  else .n8

/-- A pair takes the class of its slower operand (R63). -/
def pairClass (x w : Nat) : Class :=
  if (classOf x).rank < (classOf w).rank then classOf w else classOf x

/-- Tile depth of a class (R62). -/
def Class.depth : Class → Nat
  | .n4 => 1024
  | _ => 512

/-- The path of an operand pair, none for a pair outside R45. -/
def pathOf (x w : Nat) : Option Path :=
  let tensor := fun c => decide (c ≤ 5)
  let half := fun c => c == 12 || c == 13
  let fp8 := fun c => decide (c ≤ 1)
  if x = 14 ∧ w = 14 then some .fp32
  else if tensor x && tensor w then some .exact
  else if isMx x && isMx w then some .block
  else if (half x && (half w || fp8 w)) || (half w && fp8 x) then some .wide
  else none

/-! ### Values -/

/-- The dyadic number m · 2^e with a sign as a value; a zero keeps its sign. -/
def FV.ofInt (i : Int) (e : Int) : FV := .fin (decide (i < 0)) i.natAbs e

def FV.zero : FV := .fin false 0 0
def FV.one : FV := .fin false 1 0
def FV.qnan : FV := .nan false

def FV.isNan : FV → Bool
  | .nan _ => true
  | _ => false

def FV.isSnan : FV → Bool
  | .nan s => s
  | _ => false

def FV.isInf : FV → Bool
  | .inf _ => true
  | _ => false

def FV.isZero : FV → Bool
  | .fin _ m _ => m == 0
  | _ => false

def FV.isFin : FV → Bool
  | .fin _ _ _ => true
  | _ => false

def FV.sign : FV → Bool
  | .fin n _ _ => n
  | .inf n => n
  | .nan _ => false

def FV.neg : FV → FV
  | .fin n m e => .fin (!n) m e
  | .inf n => .inf (!n)
  | .nan s => .nan s

def FV.abs : FV → FV
  | .fin _ m e => .fin false m e
  | .inf _ => .inf false
  | .nan s => .nan s

/-- The signed mantissa of a finite value at a lower exponent. -/
def alignTo (neg : Bool) (m : Nat) (e low : Int) : Int :=
  let i : Int := m * 2 ^ (e - low).toNat
  if neg then -i else i

/-- INVALID from a signalling NaN among the inputs (R39). -/
def snanFlag (l : List FV) : Flags := flagIf (l.any FV.isSnan) fInvalid

/-- The exact sum of two values under the IEEE 754 rules for special operands and signs of zero (R52, R53, R84). -/
def FV.add (x y : FV) : FV × Flags :=
  match x, y with
  | .nan _, _ => (.qnan, snanFlag [x, y])
  | _, .nan _ => (.qnan, snanFlag [x, y])
  | .inf a, .inf b => if a = b then (.inf a, 0) else (.qnan, fInvalid)
  | .inf a, _ => (.inf a, 0)
  | _, .inf b => (.inf b, 0)
  | .fin a m e, .fin b n f =>
    let low := min e f
    let i := alignTo a m e low + alignTo b n f low
    (if i = 0 then .fin (a && b && m == 0 && n == 0) 0 0 else .fin (decide (i < 0)) i.natAbs low, 0)

/-- The exact product of two values (R52). A zero factor, of a format without −0 too, gives a zero with the sign of the
product: 0 times a negative INT8 or MXINT8 value is −0 (DESIGN CHOICE, log 48). -/
def FV.mul (x y : FV) : FV × Flags :=
  match x, y with
  | .nan _, _ => (.qnan, snanFlag [x, y])
  | _, .nan _ => (.qnan, snanFlag [x, y])
  | .inf a, .inf b => (.inf (a != b), 0)
  | .inf a, .fin b n _ => if n = 0 then (.qnan, fInvalid) else (.inf (a != b), 0)
  | .fin a m _, .inf b => if m = 0 then (.qnan, fInvalid) else (.inf (a != b), 0)
  | .fin a m e, .fin b n f => (.fin (a != b) (m * n) (if m * n = 0 then 0 else e + f), 0)

/-- a · b + c, exact (R55, R84). -/
def FV.fma (a b c : FV) : FV × Flags :=
  let p := a.mul b
  let r := p.1.add c
  (r.1, p.2 ||| r.2)

/-- A value times 2^k. -/
def FV.scale (x : FV) (k : Int) : FV :=
  match x with
  | .fin n m e => .fin n m (if m = 0 then 0 else e + k)
  | y => y

/-- The order of two values that are not NaN: less, equal or greater. -/
def FV.cmp (x y : FV) : Ordering :=
  match x, y with
  | .inf a, .inf b => if a = b then .eq else if a then .lt else .gt
  | .inf a, _ => if a then .lt else .gt
  | _, .inf b => if b then .gt else .lt
  | .fin a m e, .fin b n f =>
    let low := min e f
    compare (alignTo a m e low) (alignTo b n f low)
  | _, _ => .eq

def FV.lt (x y : FV) : Bool := x.cmp y == .lt
def FV.le (x y : FV) : Bool := x.cmp y != .gt
def FV.same (x y : FV) : Bool := x.cmp y == .eq

/-- A finite value as a dyadic number; a special one as 0. -/
def FV.dy : FV → Dy
  | .fin n m e => { m := if n then -(m : Int) else m, e := e }
  | _ => { m := 0, e := 0 }

end Sys2Proof.Machine

namespace Sys2Proof

def Dy.zero : Dy := { m := 0, e := 0 }

def Dy.add (x y : Dy) : Dy :=
  let low := min x.e y.e
  { m := x.m * 2 ^ (x.e - low).toNat + y.m * 2 ^ (y.e - low).toNat, e := low }

def Dy.abs (x : Dy) : Dy := { x with m := x.m.natAbs }

def Dy.mulInt (x : Dy) (k : Int) : Dy := { x with m := x.m * k }

def Dy.le (x y : Dy) : Bool :=
  let low := min x.e y.e
  decide (x.m * 2 ^ (x.e - low).toNat ≤ y.m * 2 ^ (y.e - low).toNat)

def Dy.fv (x : Dy) : Machine.FV := if x.m = 0 then Machine.FV.zero else Machine.FV.ofInt x.m x.e

end Sys2Proof

namespace Sys2Proof.Machine

/-! ### Reading stored bits -/

/-- The value of the bits of a floating format (R37–R39). -/
def FloatFmt.read (f : FloatFmt) (v : Nat) : FV :=
  let neg := bit v (f.exp + f.frac)
  let e := bits v (f.exp + f.frac - 1) f.frac
  let m := v % 2 ^ f.frac
  let top := 2 ^ f.exp - 1
  match f.special with
  | .ieee =>
    if e = top then (if m = 0 then .inf neg else .nan (!bit v (f.frac - 1)))
    else if e = 0 then .fin neg m (1 - f.bias - f.frac) else .fin neg (2 ^ f.frac + m) (e - f.bias - f.frac)
  | .e4m3 =>
    if e = top ∧ m = 2 ^ f.frac - 1 then .qnan
    else if e = 0 then .fin neg m (1 - f.bias - f.frac) else .fin neg (2 ^ f.frac + m) (e - f.bias - f.frac)
  | .none_ => if e = 0 then .fin neg m (1 - f.bias - f.frac) else .fin neg (2 ^ f.frac + m) (e - f.bias - f.frac)

/-- The two's complement value of the low n bits. -/
def toSigned (n v : Nat) : Int :=
  let u := v % 2 ^ n
  if 2 ^ (n - 1) ≤ u then (u : Int) - 2 ^ n else u

/-- The value of a double-word FP32 pair, as the exact sum hi + lo (R44). -/
def readDw (v : Nat) : FV :=
  let hi := fp32.read (bits v 63 32)
  let lo := fp32.read (v % 2 ^ 32)
  match hi, lo with
  | .fin n 0 _, .fin _ 0 _ => .fin n 0 0
  | .fin _ _ _, .fin _ _ _ => (hi.add lo).1
  | .fin _ _ _, x => x
  | x, _ => x

/-- The value that the bits of a format code stand for, before any MX scale. -/
def readElem (code v : Nat) : FV :=
  match elemOf code with
  | .flt f => f.read v
  | .int sh => FV.ofInt (toSigned 8 v) (-sh)
  | .dw => readDw v

/-- An MX element under its scale byte (R41). -/
def mxValue (code v scale : Nat) : FV :=
  if scale = 255 then .qnan else (readElem code v).scale (scale - 127)

/-! ### Rounding (R47–R51) -/

/-- Rounding mode: to nearest even, or stochastic with 16 random bits (R47, R49). -/
abbrev Rnd := Option Nat

/-- m · 2^e in units of 2^q, rounded to an integer, and whether it changed. -/
def roundTo (m : Nat) (e q : Int) (r : Rnd) : Nat × Bool :=
  if q ≤ e then (m * 2 ^ (e - q).toNat, false)
  else
    let k := (q - e).toNat
    let n := m / 2 ^ k
    let rem := m % 2 ^ k
    if rem = 0 then (n, false)
    else
      let up := match r with
        | none => decide (2 ^ k < 2 * rem) || (2 * rem == 2 ^ k && n % 2 == 1)
        | some d => decide (d % 65536 < 65536 * rem / 2 ^ k)
      (if up then n + 1 else n, true)

/-- The largest finite value of a format: its mantissa and exponent (R37). -/
def FloatFmt.largest (f : FloatFmt) : Nat × Int :=
  match f.special with
  | .ieee => (2 ^ (f.frac + 1) - 1, 2 ^ f.exp - 2 - f.bias - f.frac)
  | .e4m3 => (2 ^ (f.frac + 1) - 2, 2 ^ f.exp - 1 - f.bias - f.frac)
  | .none_ => (2 ^ (f.frac + 1) - 1, 2 ^ f.exp - 1 - f.bias - f.frac)

def FloatFmt.largestFV (f : FloatFmt) (neg : Bool) : FV := .fin neg f.largest.1 f.largest.2

/-- The least exponent that a format's values are multiples of. -/
def FloatFmt.step (f : FloatFmt) : Int := 1 - f.bias - f.frac

/-- What an infinity becomes in a format (R48). -/
def FloatFmt.ofInf (f : FloatFmt) (neg : Bool) : FV × Flags :=
  match f.special with
  | .ieee => (.inf neg, 0)
  | _ => (f.largestFV neg, fOverflow ||| fInexact)

/-- What a finite value that overflows becomes in a format (R48): E5M2 saturates. -/
def FloatFmt.overflow (f : FloatFmt) (neg : Bool) : FV :=
  if f.special = .ieee ∧ f ≠ e5m2 then .inf neg else f.largestFV neg

/-- Rounds a value to a floating format (R47, R48, R51): the value delivered and its flags. -/
def FloatFmt.round (f : FloatFmt) (r : Rnd) (x : FV) : FV × Flags :=
  match x with
  | .nan s =>
    match f.special with
    | .none_ => (.zero, fInvalid)
    | _ => (.qnan, flagIf s fInvalid)
  | .inf n => f.ofInf n
  | .fin n m e =>
    if m = 0 then (.fin n 0 0, 0)
    else
      let q := e + Nat.log2 m - f.frac
      let u := roundTo m e q r
      let top := f.largest
      if FV.lt (.fin false top.1 top.2) (.fin false u.1 q) then (f.overflow n, fOverflow ||| fInexact)
      else
        let b := roundTo m e (max q f.step) r
        let tiny := FV.lt (.fin false u.1 q) (.fin false 1 (1 - f.bias))
        (.fin n b.1 (if b.1 = 0 then 0 else max q f.step),
          flagIf b.2 fInexact ||| flagIf (b.2 && tiny) fUnderflow)

/-- The bits of a value that the format holds exactly; a NaN is the positive quiet NaN of R39. -/
def FloatFmt.encode (f : FloatFmt) (x : FV) : Nat :=
  let sgn := fun (n : Bool) => if n then 2 ^ (f.exp + f.frac) else 0
  match x with
  | .nan _ =>
    match f.special with
    | .e4m3 => 2 ^ (f.exp + f.frac) - 1
    | _ => (2 ^ f.exp - 1) * 2 ^ f.frac + 2 ^ (f.frac - 1)
  | .inf n => sgn n + (2 ^ f.exp - 1) * 2 ^ f.frac
  | .fin n m e =>
    if m = 0 then sgn n
    else
      let q := max (e + Nat.log2 m - f.frac) f.step
      let i := if q ≤ e then m * 2 ^ (e - q).toNat else m / 2 ^ (q - e).toNat
      if i < 2 ^ f.frac then sgn n + i
      else sgn n + (q + f.frac + f.bias).toNat * 2 ^ f.frac + (i - 2 ^ f.frac)

/-- Rounds a value to a two's complement integer of 8 bits times 2^(−shift) (R48): the integer and its flags. -/
def roundInt8 (shift : Nat) (r : Rnd) (x : FV) : Int × Flags :=
  match x with
  | .nan _ => (0, fInvalid)
  | .inf n => (if n then -128 else 127, fOverflow ||| fInexact)
  | .fin n m e =>
    let u := roundTo m (e + shift) 0 r
    let i : Int := if n then -(u.1 : Int) else u.1
    if 127 < i then (127, fOverflow ||| fInexact)
    else if i < -128 then (-128, fOverflow ||| fInexact)
    else (i, flagIf u.2 fInexact)

/-- Rounds a value to double-word FP32 (R43): hi, lo and the flags. Where value − hi rounds to half an ulp of an odd hi, R43's two
roundings give a pair that R44 does not call normalised; R43 is followed (DESIGN CHOICE, log 48). -/
def roundDw (x : FV) : Nat × Flags :=
  let h := fp32.round none x
  match h.1 with
  | .fin _ _ _ =>
    let rest := (x.add h.1.neg).1
    let l := if rest.isZero then (FV.zero, 0) else fp32.round none rest
    (fp32.encode h.1 * 2 ^ 32 + fp32.encode l.1,
      flagIf (l.2 / fInexact % 2 == 1) (fInexact ||| (h.2 &&& fUnderflow)))
  | _ => (fp32.encode h.1 * 2 ^ 32, h.2)

/-- Stochastic rounding applies only to the destinations of R47. -/
def rndFor (code : Nat) (r : Rnd) : Rnd := if 14 ≤ code then none else r

/-- Converts a value to a storage format code other than MX (R47, R48): its bits and flags. -/
def convert (code : Nat) (r : Rnd) (x : FV) : Nat × Flags :=
  match elemOf code with
  | .flt f => let y := f.round (rndFor code r) x; (f.encode y.1, y.2)
  | .int sh =>
    let y := roundInt8 sh r x
    ((y.1 % 256).toNat, y.2 ||| snanFlag [x])
  | .dw => roundDw x

/-- A value rounded to W40 (R43). -/
def toW40 (x : FV) : FV := (w40.round none x).1

/-- A sum in W40, to nearest even (R43). -/
def addW40 (x y : FV) : FV := toW40 (x.add y).1

/-- Pairwise sums of neighbours, once (R76, R143). -/
def pairSums (add : FV → FV → FV) : List FV → List FV
  | a :: b :: t => add a b :: pairSums add t
  | l => l

/-- The sum of a list along a tree of neighbours; n bounds its depth. -/
def treeSum (add : FV → FV → FV) : Nat → List FV → FV
  | _, [] => .zero
  | _, [x] => x
  | 0, x :: _ => x
  | n + 1, l => treeSum add n (pairSums add l)

/-! ### MX packing (R42) -/

/-- The largest exponent of an MX element format (R42). -/
def mxEmax : Nat → Int
  | 6 => 8
  | 7 => 15
  | 8 => 2
  | 9 => 4
  | 10 => 2
  | _ => 0

/-- The exponent of the largest magnitude of a block; none when every value is 0. -/
def maxExp (l : List FV) : Option Int :=
  l.foldl (fun m x => match x with
    | .fin _ v e => if v = 0 then m else
        let k := e + Nat.log2 v
        match m with
        | none => some k
        | some j => some (max j k)
    | _ => m) none

/-- Packs a block under R42: its scale byte, and each element's bits and flags. `rnd i` is the mode of element i. -/
def packBlock (code : Nat) (rnd : Nat → Rnd) (l : List FV) : Nat × List (Nat × Flags) :=
  if l.any (fun x => !x.isFin) then
    (255, l.map (fun x => (0, match x with
      | .nan _ => fInvalid
      | .inf _ => fOverflow ||| fInexact
      | _ => 0)))
  else
    let sc := match maxExp l with
      | none => 127
      | some k => (min 254 (max 0 (k - mxEmax code + 127))).toNat
    (sc, ((List.range l.length).zip l).map (fun e => convert code (rnd e.1) (e.2.scale (127 - sc))))

/-! ### Double-word sums (R55–R57) -/

/-- An FP32 sum to nearest even, of finite values. -/
def add32 (x y : FV) : FV := (fp32.round none (x.add y).1).1

/-- The FP32 sum and its exact error. -/
def twoSum (x y : FV) : FV × FV :=
  let t := add32 x y
  (t, ((x.add y).1.add t.neg).1)

/-- The two words of a stored pair; one that is not normalised enters as its exact sum (R44). -/
def readPair (v : Nat) : FV × FV :=
  let hi := fp32.read (bits v 63 32)
  let lo := fp32.read (v % 2 ^ 32)
  if hi.isFin && lo.isFin && !((add32 hi lo).same hi) then twoSum hi lo else (hi, lo)

/-- dw_add of *Reductions across engines*, on pairs as stored (R53, R56, R57): the pair and its flags. Finite pairs whose FP32
sum overflows give an infinity with lo = +0, two_sum having no exact error there (DESIGN CHOICE, log 48). -/
def dwAdd (a b : Nat) : Nat × Flags :=
  let pa := readPair a
  let pb := readPair b
  let va := readDw a
  let vb := readDw b
  if va.isZero && va.sign && vb.isZero && vb.sign then (0x8000000000000000, 0) else
  let ah := pa.1
  let bh := pb.1
  let al := pa.2
  let bl := pb.2
  if ah.isFin && bh.isFin && al.isFin && bl.isFin then
    let s1 := twoSum ah bh
    let s2 := twoSum al bl
    if !s1.1.isFin then (fp32.encode s1.1 * 2 ^ 32, fOverflow ||| fInexact)
    else
      let e1 := add32 s1.2 s2.1
      let s3 := twoSum s1.1 e1
      let e2 := add32 s3.2 s2.2
      let s4 := twoSum s3.1 e2
      if !s4.1.isFin then (fp32.encode s4.1 * 2 ^ 32, fOverflow ||| fInexact)
      else
        let exact := (((ah.add al).1.add bh).1.add bl).1
        let lo := if s4.2.isZero then FV.zero else s4.2
        (fp32.encode s4.1 * 2 ^ 32 + fp32.encode lo,
          flagIf (!(exact.same (s4.1.add lo).1)) fInexact)
  else
    let r := (readDw a).add (readDw b)
    (fp32.encode (fp32.round none r.1).1 * 2 ^ 32, r.2)

/-! ### Quotients and roots, correctly rounded -/

/-- The quotient of two finite non-zero values, to 128 bits and a sticky bit. -/
def quotient (a b : Bool) (m n : Nat) (e f : Int) : FV :=
  let sh := 128 + Nat.log2 n
  let q := m * 2 ^ sh / n
  .fin (a != b) (2 * q + (if m * 2 ^ sh % n = 0 then 0 else 1)) (e - f - sh - 1)

/-- x / y under the IEEE 754 rules, to 128 bits and a sticky bit. -/
def FV.div (x y : FV) : FV × Flags :=
  match x, y with
  | .nan _, _ => (.qnan, snanFlag [x, y])
  | _, .nan _ => (.qnan, snanFlag [x, y])
  | .inf _, .inf _ => (.qnan, fInvalid)
  | .inf a, .fin b _ _ => (.inf (a != b), 0)
  | .fin a _ _, .inf b => (.fin (a != b) 0 0, 0)
  | .fin a m e, .fin b n f =>
    if n = 0 then (if m = 0 then (.qnan, fInvalid) else (.inf (a != b), fDivZero))
    else if m = 0 then (.fin (a != b) 0 0, 0)
    else (quotient a b m n e f, 0)

/-- The integer square root, by its bits from 2^k down. -/
def isqrt (n : Nat) : Nat → Nat → Nat
  | 0, r => if (r + 1) * (r + 1) ≤ n then r + 1 else r
  | k + 1, r => isqrt n k (if (r + 2 ^ (k + 1)) * (r + 2 ^ (k + 1)) ≤ n then r + 2 ^ (k + 1) else r)

/-- The square root of a finite positive value, to at least 128 bits and a sticky bit. -/
def root (m : Nat) (e : Int) : FV :=
  let odd : Nat := if e % 2 = 0 then 0 else 1
  let v := m * 2 ^ (odd + 256)
  let q := isqrt v (Nat.log2 v / 2 + 1) 0
  .fin false (2 * q + (if q * q = v then 0 else 1)) ((e - odd - 256) / 2 - 1)

/-- √x under the IEEE 754 rules. -/
def FV.sqrt (x : FV) : FV × Flags :=
  match x with
  | .nan s => (.qnan, flagIf s fInvalid)
  | .inf n => if n then (.qnan, fInvalid) else (.inf false, 0)
  | .fin n m e => if m = 0 then (.fin n 0 0, 0) else if n then (.qnan, fInvalid) else (root m e, 0)

end Sys2Proof.Machine
end

