-- ==== Sys2Proof/Machine/Squares.lean ====
section
/-! DEFINITION. Elements packed in memory and squares of 32 × 32 elements (R41, R67, R552), operand addresses, and
operand reads by the engines with their consumption of poison (R437, R438). -/

namespace Sys2Proof.Machine

/-! ### Packed elements -/

/-- Elements and bytes of one packed group of a width (R67). -/
def packGroup (w : Nat) : Nat × Nat := if w = 4 then (2, 1) else if w = 6 then (4, 3) else (1, w / 8)

def unpackGroups (w g b : Nat) : Nat → List Byte → List Nat
  | 0, _ => []
  | k + 1, d =>
    let v := leNat (bslice d 0 b)
    (List.range g).map (fun i => bits v (w * i + w - 1) (w * i)) ++ unpackGroups w g b k (d.drop b)

/-- The first n elements of w bits in bytes (R552). -/
def unpackElems (w n : Nat) (d : List Byte) : List Nat :=
  let p := packGroup w
  (unpackGroups w p.1 p.2 ((n + p.1 - 1) / p.1) d).take n

def packGroups (w g b : Nat) : Nat → List Nat → List Byte
  | 0, _ => []
  | k + 1, l =>
    natLE b (sumBy ((List.range g).zip (l.take g)) (fun e => (e.2 % 2 ^ w) * 2 ^ (w * e.1))) ++
      packGroups w g b k (l.drop g)

/-- Elements of w bits as bytes, the last group filled with zero bits. -/
def packElems (w : Nat) (l : List Nat) : List Byte :=
  let p := packGroup w
  packGroups w p.1 p.2 ((l.length + p.1 - 1) / p.1) l

/-- Bytes that n packed elements take. -/
def packedLen (w n : Nat) : Nat := (w * n + 7) / 8

/-! ### Operand addresses (R67) -/

/-- An operand address: whether it names the engine stage, and the byte address; none for a reserved space or bit. -/
def operandAddr (a : Nat) : Option (Bool × Nat) :=
  match bits a 31 28 with
  | 0 => some (false, bits a 27 0)
  | 1 => if bits a 27 23 = 0 then some (true, bits a 22 0) else none
  | _ => none

/-- Bytes of a square row of 32 elements, and of a square (R67). -/
def squareRow (code : Nat) : Nat := 4 * elemBits code
def squareBytes (code : Nat) : Nat := 128 * elemBits code

/-- Byte address of element row r of a square matrix, in square column j. -/
def squareAt (base pitch code r j : Nat) : Nat :=
  base + r / 32 * pitch + j * squareBytes code + r % 32 * squareRow code

/-- Bytes from a matrix's first byte to its last, pitch gaps included, of `rows` × `cols` elements. -/
def squareExtent (code pitch rows cols : Nat) : Nat :=
  ((rows + 31) / 32 - 1) * pitch + (cols + 31) / 32 * squareBytes code

/-! ### Operand reads -/

/-- A read operand: its 64-byte rows with their poison. -/
abbrev RowBuf := List (List Byte × Bool)

def RowBuf.bytes (b : RowBuf) : List Byte := (b.map (·.1)).flatten
def RowBuf.bad (b : RowBuf) : Bool := b.any (·.2)

/-- The first failing of a list of consumed rows is met: rows before it are fetched again, and the rest is left. -/
def State.consumeList (s : State) (p : Nat) (stage : Bool) (carrier : Nat) : List Nat → Bool × State
  | [] => (true, s)
  | r :: t =>
    let c := s.consume p stage r carrier
    if c.1 then c.2.consumeList p stage carrier t else (false, c.2)

/-- Reads n rows for arithmetic: poisoned ones are consumed (R437, R438) and, when re-fetch replaces them all, read
again. -/
def State.operandRows (s : State) (p : Nat) (stage : Bool) (row n : Nat) : RowBuf × State :=
  let r := s.rowsRead p stage row n
  let bad := ((List.range n).zip r.1).filterMap (fun e => if e.2.2 then some (row + e.1) else none)
  match bad with
  | [] => r
  | _ =>
    let c := r.2.consumeList p stage (if stage then 1 else 0) bad
    if c.1 then c.2.rowsRead p stage row n else (r.1, c.2)

/-- Reads bytes for arithmetic, and whether any row of them is poisoned. -/
def State.operandBytes (s : State) (p : Nat) (stage : Bool) (a len : Nat) : (List Byte × Bool) × State :=
  let r := s.operandRows p stage (a / 64) ((a + len + 63) / 64 - a / 64)
  (((RowBuf.bytes r.1).drop (a % 64) |>.take len, RowBuf.bad r.1), r.2)

/-- Reads a list of byte ranges of a space, joined. -/
def State.operandSpans (s : State) (p : Nat) (stage : Bool) : List (Nat × Nat) → (List (List Byte) × Bool) × State
  | [] => (([], false), s)
  | (a, n) :: t =>
    let r := s.operandBytes p stage a n
    let u := r.2.operandSpans p stage t
    ((r.1.1 :: u.1.1, r.1.2 || u.1.2), u.2)

/-- One element row of a square matrix: `cols` elements, which may end inside a square. -/
def State.squareRowRead (s : State) (p : Nat) (stage : Bool) (base pitch code r cols : Nat) :
    (List Nat × Bool) × State :=
  let d := s.operandSpans p stage ((List.range ((cols + 31) / 32)).map (fun j =>
    (squareAt base pitch code r j, squareRow code)))
  (((d.1.1.flatMap (unpackElems (elemBits code) 32)).take cols, d.1.2), d.2)

/-- The first `rows` element rows of a square matrix, from row r on. -/
def State.squareMatrix (s : State) (p : Nat) (stage : Bool) (base pitch code cols r : Nat) :
    Nat → (List (List Nat) × Bool) × State
  | 0 => (([], false), s)
  | n + 1 =>
    let x := s.squareRowRead p stage base pitch code r cols
    let t := x.2.squareMatrix p stage base pitch code cols (r + 1) n
    ((x.1.1 :: t.1.1, x.1.2 || t.1.2), t.2)

/-- The transpose of an n-column matrix given by its rows. -/
def columns {α : Type} (d : α) (n : Nat) (m : List (List α)) : List (List α) :=
  (List.range n).map (fun j => m.map (fun r => r.getD j d))

/-! ### Destinations -/

/-- An element of a destination: its bits, none where it is not written (R138), and whether it is poisoned. -/
structure Put where
  val : Option Nat
  poison : Bool
  deriving DecidableEq, Repr

/-- The elements that bits [8·b0, 8·b1) of a packed operand hold a part of. -/
def overlapping {α : Type} (w b0 b1 : Nat) (l : List α) : List α :=
  (l.drop (8 * b0 / w)).take ((8 * b1 + w - 1) / w - 8 * b0 / w)

/-- Writes the rows of a packed destination: `done` bytes of it are behind, d is the rest. A row is written poisoned when an
element written into it is poisoned, and stays poisoned when it is not wholly written (R147, R154). `force` poisons every
row that the destination touches. -/
def State.putRows (s : State) (p : Nat) (stage : Bool) (w : Writer) (wd a done : Nat) (l : List Put) (force : Bool)
    (d : List Byte) : Nat → State
  | 0 => s
  | n + 1 =>
    if d.isEmpty then s else
      let x := a + done
      let c := d.take (64 - x % 64)
      let es := overlapping wd done (done + c.length) l
      let s :=
        if es.any (fun e => e.val.isSome) || force then
          let kept := decide (c.length < 64) || es.any (fun e => e.val.isNone)
          let bad := force || es.any (fun e => e.val.isSome && e.poison) || (kept && s.rowPoison p stage (x / 64))
          let m := s.mergeRow p stage (x / 64) (x % 64) c bad
          m.2.writeRows p stage w [m.1]
        else s
      s.putRows p stage w wd a (done + c.length) l force (d.drop c.length) n

/-- Writes elements of wd bits from address a on; elements without a value, and bits of the last byte beyond the last
element, keep what they held. -/
def State.putElems (s : State) (p : Nat) (stage : Bool) (w : Writer) (wd a : Nat) (l : List Put) (force : Bool) : State :=
  let len := packedLen wd l.length
  let full := l.all (fun e => e.val.isSome) && wd * l.length % 8 == 0
  let g := (packGroup wd).1
  let n := (l.length + g - 1) / g * g
  let old := if full then [] else unpackElems wd n ((List.range len).map (fun i => s.peek p stage (a + i)))
  let new := (List.range n).map (fun i => match l[i]? with
    | some e => e.val.getD (lget 0 old i)
    | none => lget 0 old i)
  s.putRows p stage w wd a 0 l force ((packElems wd new).take len) (len / 64 + 2)

end Sys2Proof.Machine
end

