-- ==== Sys2Proof/Machine/Sequencer.lean ====
section
/-! DEFINITION. Issue by the pavilion sequencer: fetching, the cadence, ports, refusals, the scoreboard, and what
finishing an instruction sets off (R65, R166–R169, R184–R205). -/

namespace Sys2Proof.Machine

/-! ### The program store (R184, R205, R363) -/

/-- Engine-stage row of an instruction slot. -/
def slotRow (i : Nat) : Nat := 122880 + i / 4

/-- First row of the program store. -/
def storeRow : Nat := 122880

/-- The 128 bits stored in a slot. -/
def State.slotWord (s : State) (p i : Nat) : Nat := leNat (memRead (s.pav p).stage.bytes (0x780000 + 16 * i) 16)

/-- A parameter of a layer entry (R363). -/
def layerParam (e : Nat) : Nat → Option Nat
  | 0 => some (bits e 47 44)
  | 1 => some (bits e 43 43)
  | 2 => some (bits e 42 39)
  | 3 => some (bits e 38 38)
  | 4 => some (bits e 37 37)
  | 5 => some (bits e 36 36)
  | 6 => some (bits e 35 35)
  | _ => none

/-- A value with bits [lsb + width − 1 : lsb] replaced. -/
def setBits (v lsb width x : Nat) : Nat :=
  v - bits v (lsb + width - 1) lsb * 2 ^ lsb + x % 2 ^ width * 2 ^ lsb

/-- Writes the patched fields of a pavilion's program (R363), for context target t. -/
def State.patch (s : State) (p t : Nat) : State :=
  match s.allotOfPav p with
  | none => s
  | some a =>
    let x := s.allot a
    let layers := match chunkFor x.chunks 12 0xFFF x.section_ with
      | some c => layerEntries c.data
      | none => []
    match chunkFor x.chunks 14 t x.section_ with
    | none => s
    | some c => s.each ((layerEntries c.data).filter (fun e => decide (4 ≤ bits e 63 49))) (fun s e =>
      match layers.find? (fun l => bits l 63 48 == bits e 37 22) with
      | none => s
      | some l => match layerParam l (bits e 21 16) with
        | none => s
        | some v =>
          let slot := bits e 63 49
          let word := setBits (s.slotWord p slot) (bits e 48 42) (bits e 41 38 + 1) v % 2 ^ 128
          let row := slotRow slot
          let old := memRead (s.pav p).stage.bytes (64 * row) 64
          let d := old.take (16 * (slot % 4)) ++ natLE 16 word ++ old.drop (16 * (slot % 4) + 16)
          s.modPav p (fun v => { v with stage := v.stage.putRow row d (v.stage.rowMeta row).poison }))

/-- R205: a poisoned program-store row stops issue, is fetched again from the base image and patched, and the section
replays. -/
def State.programPoison (s : State) (p row : Nat) : State :=
  let s := s.modSeq p (fun q => { q with stopped := true })
  let t := s.contextTarget p
  let s := match s.allotOfPav p with
    | none => s
    | some a => if s.failFast a then s else
      match chunkFor (s.allot a).chunks 2 t (s.allot a).section_ with
      | some c =>
        let d := bslice c.data (64 * (row - storeRow)) 64
        (s.modPav p (fun v => { v with stage := v.stage.putRow row d false })).patch p t
      | none => s
  s.recoverPav p .poisonedProgram

/-! ### Streams -/

def Seq.stream (q : Seq) (i : Nat) : Strm := lget Strm.cleared q.streams i

def State.modStream (s : State) (p i : Nat) (f : Strm → Strm) : State :=
  s.modSeq p (fun q => { q with streams := q.streams.set i (f (q.stream i)) })

/-- The streams of the program that runs. -/
def Seq.live (q : Seq) : List Strm := q.streams.take q.nstr

/-- A pavilion whose sequencer issues: a run is in progress, and neither a fault, a freeze, a drill nor a loss of power
stops it (R187, R204, R277, R447). -/
def State.issuing (s : State) (p : Nat) : Bool :=
  let v := s.pav p
  v.seq.running && !v.seq.stopped && !v.seq.frozen && !v.drillDue && v.enable != .failed && (s.plot (plotOf p)).e.on

/-- A stream that may offer its next instruction. -/
def State.streamOpen (s : State) (p i : Nat) : Bool :=
  let q := (s.pav p).seq
  let t := q.stream i
  s.issuing p && decide (i < q.nstr) && !t.halted && decide (t.slot < 32768) &&
    (t.hold == .none || t.hold == .stall || t.hold == .cadence)

/-- The opcodes of *VE opcodes* (R141). -/
def veOpcode (op : Nat) : Bool :=
  decide (0x40 ≤ op ∧ op ≤ 0x56) || decide (0x58 ≤ op ∧ op ≤ 0x5D) || decide (0x60 ≤ op ∧ op ≤ 0x65) ||
    op == 0x68 || op == 0x69 || op == 0x70 || op == 0x78

/-- The issue port of an opcode (R188): ME, unpack, VE, DMA, control; a reserved one belongs to none. -/
def issuePort (op : Nat) : Option Nat :=
  if op < 9 then some 4
  else if [0x10, 0x20, 0x28, 0x30, 0x34, 0x38, 0x3C].contains op then some 0
  else if op = 0x18 ∨ op = 0x1C then some 1
  else if veOpcode op then some 2
  else if 0x80 ≤ op ∧ op < 0x83 then some 3
  else none

/-- Opcode of the instruction that a stream offers. -/
def State.nextOp (s : State) (p i : Nat) : Nat := s.slotWord p ((s.pav p).seq.stream i).slot / 2 ^ 120

/-- The slot after n, with the loop levels, innermost first, that end there (R192). -/
def loopNext : List Loop → Nat → Nat × List Loop
  | [], n => (n, [])
  | l :: t, n =>
    if n = l.limit then (if 1 < l.left then (l.first, { l with left := l.left - 1 } :: t) else loopNext t n)
    else (n, l :: t)

/-- Moves a stream past an instruction. -/
def Strm.advance (t : Strm) : Strm :=
  let n := loopNext t.loops (t.slot + 1)
  { t with slot := n.1, loops := n.2, hold := .none }

/-! ### Cadence (R166–R169) -/

/-- How the cadence governs an instruction (R167); of an MRUN it tells whether its fin is 0. -/
inductive Cad where
  | free | load | set
  | pass (opens : Option Bool)
  deriving DecidableEq, Repr

def Seq.cadWord (q : Seq) (e : Nat) : Nat := (lget 0 q.cad e).toNat
def Seq.cadStream (q : Seq) (e : Nat) : Nat := bits (q.cadWord e) 31 30
def Seq.cadLoadsOf (q : Seq) (e : Nat) : Nat := bits (q.cadWord e) 15 8
def Seq.cadPassesOf (q : Seq) (e : Nat) : Nat :=
  let n := bits (q.cadWord e) 7 0
  if n = 0 then 256 else n

/-- The entry that follows one; none ends the cadence. -/
def Seq.cadNext (q : Seq) (e : Nat) : Option Nat :=
  if bit (q.cadWord e) 29 then some 0 else if e + 1 < q.cad.length then some (e + 1) else none

/-- The next entry after e with loads. -/
def Seq.cadNextLoads (q : Seq) (e : Nat) : Nat → Option Nat
  | 0 => none
  | n + 1 => match q.cadNext e with
    | none => none
    | some f => if 0 < q.cadLoadsOf f then some f else q.cadNextLoads f n

/-- Charges an MLOAD of a stream to the current entry, or to the next one with loads; none while it must wait. -/
def Seq.cadCharge (q : Seq) (i : Nat) : Option Seq :=
  if q.cadLoads < q.cadLoadsOf q.cadEntry then
    (if q.cadStream q.cadEntry = i then some { q with cadLoads := q.cadLoads + 1 } else none)
  else match q.cadNextLoads q.cadEntry 256 with
    | none => none
    | some e =>
      let used := match q.cadAhead with
        | some (f, c) => if f = e then c else 0
        | none => 0
      if q.cadStream e = i ∧ used < q.cadLoadsOf e then some { q with cadAhead := some (e, used + 1) } else none

/-- An entry has issued its passes, and the next becomes current. -/
def Seq.cadAdvance (q : Seq) : Seq :=
  match q.cadNext q.cadEntry with
  | none => { q with cadEnded := true, cadBoundary := true, cadOpen := false }
  | some e =>
    let ahead := match q.cadAhead with
      | some (f, c) => if f = e then some c else none
      | none => none
    { q with
      cadEntry := e, cadPasses := 0, cadBoundary := true, cadOpen := false
      cadLoads := ahead.getD 0
      cadAhead := if ahead.isSome then none else q.cadAhead }

/-- A pass counts against the current entry. -/
def Seq.cadPass (q : Seq) (opens : Option Bool) : Seq :=
  if q.cadPasses + 1 = q.cadPassesOf q.cadEntry then q.cadAdvance
  else { q with cadPasses := q.cadPasses + 1, cadOpen := opens.getD q.cadOpen }

/-- The current entry names no stream that can still issue a tile instruction, as `left` tells, or breaks its layout (R166,
R169). -/
def Seq.cadBad (q : Seq) (left : Nat → Bool) : Bool :=
  !left (q.cadStream q.cadEntry) || bits (q.cadWord q.cadEntry) 28 16 != 0

/-- What the cadence says of an instruction: it may issue with the sequencer's cadence charged, it waits, or the cadence
itself is at fault. -/
inductive CadAnswer where
  | go (q : Seq)
  | wait
  | fault

def Seq.cadAsk (q : Seq) (left : Nat → Bool) (i : Nat) (c : Cad) : CadAnswer :=
  if c = .free ∨ q.nstr = 1 then .go q
  else if q.cadEnded || q.cadBad left then .fault
  else match c with
    | .load => match q.cadCharge i with
      | some r => .go r
      | none => .wait
    | .pass o => if q.cadStream q.cadEntry = i then .go (q.cadPass o) else .wait
    | _ => if q.cadStream q.cadEntry = i then .go q else .wait

/-- An MLOAD, MRUN or MACC: a tile instruction (log 104). -/
def tileOp (op : Nat) : Bool := op == 0x10 || op == 0x20 || op == 0x28

/-- A HALT stands in slots n to n + k − 1. -/
def State.haltIn (s : State) (p n : Nat) : Nat → Bool
  | 0 => false
  | k + 1 => s.slotWord p n / 2 ^ 120 == 2 || s.haltIn p (n + 1) k

/-- A tile instruction stands in slots n to n + k − 1, before any HALT. -/
def State.tileIn (s : State) (p n : Nat) : Nat → Bool
  | 0 => false
  | k + 1 =>
    let op := s.slotWord p n / 2 ^ 120
    op != 2 && (tileOp op || s.tileIn p (n + 1) k)

/-- A stream has a tile instruction left: between its slot and its HALT, or in a loop body that it runs again (R169). -/
def State.tileLeft (s : State) (p i : Nat) : Bool :=
  let q := (s.pav p).seq
  let t := q.stream i
  decide (i < q.nstr) && !t.halted && (s.tileIn p t.slot (32768 - t.slot) ||
    t.loops.any (fun l => decide (1 < l.left) && !s.haltIn p t.slot (l.limit - t.slot) && s.tileIn p l.first (l.limit - l.first)))

/-- R169: a cadence fault is counted and is a program fault with code 0x02. -/
def State.cadenceFault (s : State) (p slot opcode : Nat) : State :=
  (s.modPav p (fun v => { v with cadenceFaults := satInc v.cadenceFaults })).programFault p 2 slot opcode

/-! ### The scoreboard (R201–R203) -/

/-- A range of 64-byte rows that an instruction touches: in the engine stage or the garden, with its intent. -/
structure Rng where
  stage : Bool
  base : Nat
  limit : Nat
  read : Bool
  write : Bool
  deriving DecidableEq, Repr

/-- The rows that len bytes at a touch. -/
def Rng.of (stage : Bool) (a len : Nat) (read write : Bool) : Rng :=
  { stage := stage, base := a / 64, limit := (a + len + 63) / 64, read := read, write := write }

def SbEntry.writes (e : SbEntry) : Bool := e.intent.getLsbD 1

/-- An instruction's range conflicts with a valid entry (R202). -/
def Rng.clash (r : Rng) (e : SbEntry) : Bool :=
  e.stage == r.stage && decide (r.base < e.limit ∧ e.base < r.limit) && (r.write || e.writes)

/-- The ranges that take entries: in full/empty mode, garden operands of the ME, the VE and the DMA engine take none
(R187). -/
def entryRngs (tagged : Bool) (unit : Nat) (l : List Rng) : List Rng :=
  l.filter (fun r => r.stage || !tagged || (unit != 0 && unit != 2 && unit != 3))

/-- R202: enough free entries and no conflict. -/
def Seq.passes (q : Seq) (l : List Rng) : Bool :=
  decide (q.sb.length + l.length ≤ 64) && l.all (fun r => !q.sb.any r.clash)

/-- Takes entries for ranges: the entries' own numbers. -/
def Seq.take (q : Seq) (unit stream : Nat) (l : List Rng) : List Nat × Seq :=
  let es := ((List.range l.length).zip l).map (fun e =>
    SbEntry.mk (q.nextId + e.1) (BitVec.ofNat 2 ((if e.2.read then 1 else 0) + if e.2.write then 2 else 0)) e.2.stage
      (BitVec.ofNat 3 unit) stream e.2.base e.2.limit)
  (es.map (·.id), { q with sb := q.sb ++ es, nextId := q.nextId + l.length })

/-- The entries of the ranges that only read, and those of the ranges that write, of ids taken for ranges. -/
def readIds (tagged : Bool) (unit : Nat) (l : List Rng) (ids : List Nat) : List Nat :=
  (((entryRngs tagged unit l).zip ids).filter (fun e => !e.1.write)).map (·.2)

def writeIds (tagged : Bool) (unit : Nat) (l : List Rng) (ids : List Nat) : List Nat :=
  (((entryRngs tagged unit l).zip ids).filter (fun e => e.1.write)).map (·.2)

/-! ### Refusals shared by all units -/

/-- Rows of a space. -/
def spaceRows (stage : Bool) : Nat := if stage then 131072 else 4194304

/-- The fault code of a range: beyond its space (R65, R151, R199), in the program store (R185), or not on 4 KiB
boundaries in full/empty mode (R242). -/
def Rng.code (tagged : Bool) (r : Rng) : Option Nat :=
  if spaceRows r.stage < r.limit then some 1
  else if r.stage && r.write && decide (storeRow < r.limit) then some 5
  else if tagged && !r.stage && (r.base % 64 != 0 || r.limit % 64 != 0) then some 1
  else none

/-- Some byte written lies in a monitor region (R210). -/
def monitorWrite (stage : Bool) (spans : List (Nat × Nat)) : Bool := !stage && spans.any (fun e => touchesMonitor e.1 e.2)

/-- R432, R451: a write waits at issue while the taint record or the keep store has no room for it. -/
def State.writeRoom (s : State) (p : Nat) (l : List Rng) : Bool :=
  let q := (s.pav p).seq
  let w := l.filter (·.write)
  w.isEmpty || ((decide (q.taint.length + 64 ≤ 4096) || canMerge q.taint) &&
    (decide (0 < s.keepRoom p) || w.all (fun r =>
      (List.range (r.limit - r.base)).all (fun i => q.taint.any (fun t => t.covers (if r.stage then 1 else 0) (r.base + i))))))

/-! ### Issue (R65, R189, R190, R202) -/

/-- How an instruction issues: its unit of R201, the cadence rule, whether its port can accept it, why it is refused, and
its ranges. -/
structure Issue where
  unit : Nat
  cad : Cad
  ready : Bool
  refuse : Option Nat
  rngs : List Rng

/-- A hold that counts toward the stall limit (R195). -/
def Hold.counts : Hold → Bool
  | .sync _ _ | .stall => true
  | _ => false

/-- Holds a stream; a stall that goes on keeps the time at which it began (R195). -/
def State.hold (s : State) (p i : Nat) (h : Hold) : State :=
  s.modStream p i (fun t => { t with hold := h, since := if t.hold.counts && h.counts then t.since else s.ns })

/-- The sequencer after stream i has won its port with an instruction (R189). -/
def Seq.won (q : Seq) (i op : Nat) : Seq :=
  { q with
    issued := q.issued + 1
    lastWin := match issuePort op with
      | some k => q.lastWin.set k i
      | none => q.lastWin }

/-- Stream i departs with an instruction: the sequencer is q, the port's rotation and the issue count move on, and so does the
stream (R189, R192). -/
def State.depart (s : State) (p i op : Nat) (q : Seq) : State :=
  (s.modSeq p (fun _ => q.won i op)).modStream p i Strm.advance

/-- A pass that ends a cadence entry whose last MRUN has fin = 0 is a cadence fault (R169). -/
def Seq.openBoundary (q r : Seq) (c : Cad) : Bool :=
  match c with
  | .pass o => decide (r.cadPasses ≤ q.cadPasses ∧ 1 < q.nstr) && o.getD q.cadOpen
  | _ => false

/-- Issues the next instruction of a stream, holds it, or refuses it. The effect runs with the numbers of the entries
taken, one for each range that takes one, after the stream has moved on. -/
def State.issue (s : State) (p i op : Nat) (x : Issue) (eff : List Nat → State → State) : State :=
  let slot := ((s.pav p).seq.stream i).slot
  let f := s.stageRead p (slotRow slot)
  let s := f.2
  if f.1.2 then s.programPoison p (slotRow slot)
  else
    let q := (s.pav p).seq
    match q.cadAsk (s.tileLeft p) i x.cad with
    | .fault => s.cadenceFault p slot op
    | .wait => s.hold p i .cadence
    | .go r =>
      if !x.ready then s.hold p i .stall
      else match x.refuse.or (x.rngs.findSome? (Rng.code (q.tagged && x.unit != 4))) with
        | some code => s.programFault p code slot op
        | none =>
          let need := entryRngs q.tagged x.unit x.rngs
          if !q.passes need || !s.writeRoom p x.rngs then s.hold p i .stall
          else
            let t := r.take x.unit i need
            let s := eff t.1 (s.depart p i op t.2)
            if q.openBoundary r x.cad then s.cadenceFault p slot op else s

/-- R65, R188: an instruction with a reserved opcode is refused as soon as it is the next of its stream. -/
def State.issueReserved (s : State) (p i op : Nat) : State :=
  let slot := ((s.pav p).seq.stream i).slot
  let f := s.stageRead p (slotRow slot)
  if f.1.2 then f.2.programPoison p (slotRow slot) else f.2.programFault p 1 slot op

/-! ### Finishing (R193) -/

/-- Issue counts and streams of the work that has not finished. -/
def Pav.outstanding (x : Pav) : List (Nat × Nat) :=
  let ps := x.me.running.toList ++ x.me.waiting.toList ++ x.me.finishing ++ (x.me.drain.map (·.1)).toList
  ps.map (fun y => (y.id, y.stream)) ++
  (if x.me.loading then [(x.me.loadIssue, x.me.loadStream)] else []) ++
  x.seq.dma.filterMap (fun d => d.map (fun y => (y.issue, y.stream))) ++
  x.seq.posts.map (fun y => (y.2.1, y.1))

/-- Every instruction issued before count n has finished. -/
def Pav.finishedBefore (x : Pav) (n : Nat) : Bool := x.outstanding.all (fun e => decide (n ≤ e.1))

/-- Every instruction of stream i issued before count n has finished. -/
def Pav.finishedOf (x : Pav) (i n : Nat) : Bool := x.outstanding.all (fun e => e.2 != i || decide (n ≤ e.1))

/-- Writes the CPOST posts whose earlier work has finished (R191); n bounds their number. -/
def State.settlePostsN (s : State) (p : Nat) : Nat → State
  | 0 => s
  | n + 1 =>
    match (s.pav p).seq.posts.find? (fun x => (s.pav p).finishedOf x.1 x.2.1) with
    | none => s
    | some x =>
      let s := s.localPut p false { unit := 4, stream := x.1, iv := ((s.pav p).seq.stream x.1).interval }
        x.2.2.1 (natLE 4 x.2.2.2.1.toNat) false 2
      (s.modSeq p (fun q => ({ q with posts := q.posts.erase x } : Seq).release [x.2.2.2.2])).settlePostsN p n

/-- Streams whose FENCE has nothing left to wait for go on. -/
def Pav.settleFences (x : Pav) : Pav :=
  { x with seq := { x.seq with streams := x.seq.streams.map (fun t => match t.hold with
    | .fence n => if x.finishedBefore n then { t with hold := .none } else t
    | _ => t) } }

/-- What finished work sets off: CPOST posts, and streams held by a FENCE (R191, R193). -/
def State.settlePosts (s : State) (p : Nat) : State :=
  (s.settlePostsN p ((s.pav p).seq.posts.length)).modPav p Pav.settleFences

/-- Adds to a sync counter, modulo 2^32 (R194). -/
def State.addCtr (s : State) (p ctr : Nat) (v : Word) : State :=
  s.modSeq p (fun q => { q with ctrs := q.ctrs.set ctr (lget 0 q.ctrs ctr + v) })

end Sys2Proof.Machine
end

