-- ==== Sys2Proof/Machine/MatrixLoad.lean ====
section
/-! DEFINITION. The matrix engine's set-up instructions and its loader (R68–R71, R77–R81, R98–R101, R107, R118–R121,
R124–R128). -/

namespace Sys2Proof.Machine

/-! ### MGEOM (R68) -/

/-- How an MGEOM issues. -/
def mgeomIssue (w : Nat) : Issue :=
  { unit := 0, cad := .free, ready := true, refuse := if bits w 71 0 ≠ 0 then some 1 else none, rngs := [] }

/-- The effect of an MGEOM on its stream. -/
def Strm.setPitches (t : Strm) (w : Nat) : Strm :=
  { t with
    xpitch := BitVec.ofNat 16 (bits w 119 104), wpitch := BitVec.ofNat 16 (bits w 103 88)
    ypitch := BitVec.ofNat 16 (bits w 87 72) }

def State.runMgeom (s : State) (p i w : Nat) : State :=
  s.issue p i 0x38 (mgeomIssue w) (fun _ s => s.modStream p i (fun t => t.setPitches w))

/-! ### Output contexts (R71, R108) -/

def ME.ctx (m : ME) (o : Nat) : OutCtx := lget OutCtx.cleared m.ctxs o

def State.setCtx (s : State) (p o : Nat) (c : OutCtx) : State := s.modME p (fun m => { m with ctxs := m.ctxs.set o c })

/-- A vector of 512 FP32 entries and its poison per entry. -/
def State.vector512 (s : State) (p row : Nat) : (List Word × List Bool) × State :=
  let r := s.operandRows p true row 32
  (((unpackElems 32 512 (RowBuf.bytes r.1)).map (BitVec.ofNat 32),
    (r.1.flatMap (fun e => List.replicate 16 e.2))), r.2)

/-- Ofmt codes that the ME writes (R66). -/
def ofmtOk (c : Nat) : Bool := decide (c ≤ 5 ∨ 12 ≤ c)

def mosetRefuse (w : Nat) : Option Nat :=
  if bits w 109 106 ≠ 0 ∨ bits w 71 64 ≠ 0 ∨ ofmtOk (bits w 117 114) = false ∨
      FV.lt (bf16.read (bits w 15 0)) (bf16.read (bits w 31 16)) then some 1
  else none

/-- How an MOSET issues. -/
def mosetIssue (w : Nat) : Issue :=
  let vec := fun (used : Bool) (row : Nat) => if used then [Rng.of true (64 * row) 2048 true false] else []
  { unit := 0, cad := .set, ready := true, refuse := mosetRefuse w
    rngs := vec (bit w 112) (bits w 105 89) ++ vec (bit w 111) (bits w 88 72) }

/-- The output context that an MOSET writes, of the vectors that it reads. -/
def mosetCtx (w : Nat) (svec bvec : List Word) (bad : List Bool) : OutCtx :=
  { ofmt := BitVec.ofNat 4 (bits w 117 114), rnd := bit w 113, scl := bit w 112, bia := bit w 111, clp := bit w 110
    saddr := BitVec.ofNat 17 (bits w 105 89), baddr := BitVec.ofNat 17 (bits w 88 72)
    scale := BitVec.ofNat 32 (bits w 63 32), clo := BitVec.ofNat 16 (bits w 31 16)
    chi := BitVec.ofNat 16 (bits w 15 0), svec := svec, bvec := bvec, vpoison := bad, pmode := 0, iaddr := 0 }

/-- The effect of an MOSET, with its scoreboard entries. -/
def mosetEff (p w : Nat) (ids : List Nat) (s : State) : State :=
  let a := if bit w 112 then s.vector512 p (bits w 105 89) else (([], List.replicate 512 false), s)
  let b := if bit w 111 then a.2.vector512 p (bits w 88 72) else (([], List.replicate 512 false), a.2)
  let bad := List.zipWith (fun x y => x || y) a.1.2 b.1.2
  ((b.2.setCtx p (bits w 119 118) (mosetCtx w a.1.1 b.1.1 bad)).raise p .out (flagIf (bad.any id) fPoison)).release p ids

def State.runMoset (s : State) (p i w : Nat) : State := s.issue p i 0x30 (mosetIssue w) (mosetEff p w)

/-- How an MPSET issues. -/
def mpsetIssue (w : Nat) : Issue :=
  { unit := 0, cad := .set, ready := true
    refuse := if bits w 114 104 ≠ 0 ∨ bits w 71 0 ≠ 0 ∨ 4 < bits w 117 115 ∨
        (bits w 117 115 ≠ 0 ∧ (operandAddr (bits w 103 72)).isNone) then some 1 else none
    rngs := [] }

/-- The output context with an MPSET's pruning setting. -/
def OutCtx.setPrune (c : OutCtx) (w : Nat) : OutCtx :=
  { c with pmode := BitVec.ofNat 3 (bits w 117 115), iaddr := BitVec.ofNat 32 (bits w 103 72) }

def State.runMpset (s : State) (p i w : Nat) : State :=
  s.issue p i 0x34 (mpsetIssue w) (fun _ s =>
    s.setCtx p (bits w 119 118) (((s.pav p).me.ctx (bits w 119 118)).setPrune w))

/-! ### Forecast records (R118, R119, R124–R128) -/

/-- The header of a record, from bytes 0–7 of its row 0. -/
structure FcHeader where
  slot : Nat
  dir : Bool
  span : Nat
  phase : Nat
  reserved : Nat
  deriving DecidableEq, Repr

def fcHeader (v : Nat) : FcHeader :=
  { slot := bits v 63 58, dir := bit v 57, span := bits v 56 53 + 1, phase := bits v 52 49, reserved := bits v 34 0 }

/-- The record that starts at an engine-stage row, as stored. -/
def State.fcPeek (s : State) (p row : Nat) : FcHeader :=
  fcHeader (leNat (memRead (s.pav p).stage.bytes (64 * row) 8))

/-- The list of a record (R119): each neuron with whether it is audited. -/
def fcList (span phase : Nat) (mask : Nat → Bool) : List (Nat × Bool) :=
  (List.range (512 * span)).filterMap (fun n =>
    if mask n then some (n, false) else if n % 16 = phase then some (n, true) else none)

/-- The list of a span that is loaded dense (R127, R128). -/
def fcDense (span : Nat) : List (Nat × Bool) := (List.range (512 * span)).map (fun n => (n, false))

/-- Reads a record and its list: the header, whether it is loaded dense, the list, and the state with a record fault
counted (R128). In the backward passes of R128 and R176 it is loaded dense. -/
def State.fcRead (s : State) (p i row : Nat) : (FcHeader × Bool × List (Nat × Bool)) × State :=
  let r := s.rowsRead p true row 32
  let s := r.2
  let d := RowBuf.bytes r.1
  let h := fcHeader (leNat (bslice d 0 8))
  if RowBuf.bad r.1 || h.reserved != 0 then
    ((h, true, fcDense h.span), s.modPav p (fun v => { v with recordFaults := satInc v.recordFaults }))
  else if (tget FcSlot.cleared (s.pav p).forecast h.slot).disabled || ((s.pav p).seq.stream i).pass != .forward then ((h, true, fcDense h.span), s)
  else
    let mask := bslice d 64 1024
    ((h, false, fcList h.span h.phase (fun n => (lget 0 mask (n / 8)).getLsbD (n % 8))), s)

def ME.recorder (m : ME) (o : Nat) : Option Recorder := lget none m.recorders o

def State.setRecorder (s : State) (p o : Nat) (r : Option Recorder) : State :=
  s.modME p (fun m => { m with recorders := m.recorders.set o r })

/-- Set bits of a mask. -/
def popCount (v n : Nat) : Nat := (below n (fun i => v.testBit i)).length

/-- The record that a recorder writes (R125): rows 0 to 16. A recorder that no forecast pass has used has no source to
copy, and its slot, dir, span and phase are free (log 51). -/
def Recorder.rows (r : Recorder) (free : Nat) : List Byte :=
  let src := r.source.getD (bits free 63 58, bit free 57, bits free 56 53 + 1, bits free 52 49)
  let head := 2 ^ 58 * src.1 + (if src.2.1 then 2 ^ 57 else 0) + 2 ^ 53 * (src.2.2.1 - 1) +
    (src.2.2.2 + 1) % 16 * 2 ^ 49 + popCount r.mask.toNat 8192 % 2 ^ 14 * 2 ^ 35
  natLE 64 head ++ natLE 1024 r.mask.toNat

/-- How an MFSET issues. -/
def mfsetIssue (w : Nat) : Issue :=
  let raddr := bits w 109 93
  { unit := 0, cad := .set, ready := true
    refuse := if bits w 115 110 ≠ 0 ∨ bits w 92 0 ≠ 0 ∨ raddr % 32 ≠ 0 then some 1 else none
    rngs := if bit w 117 then [{ stage := true, base := raddr, limit := raddr + 32, read := false, write := true }] else [] }

/-- The effect of an MFSET: a recorder starts, or one that records stops and writes its record. The manual gives en = 0 no effect
on a context that does not record, and says nothing of its raddr: such an MFSET changes nothing, and the record is written at the
raddr of the en = 1 (DESIGN CHOICE, log 51). -/
def mfsetEff (p i w : Nat) (ids : List Nat) (s : State) : State :=
  let o := bits w 119 118
  let old := (s.pav p).me.recorder o
  let s := match old with
    | some r => s.release p [r.entry]
    | none => s
  if bit w 117 then
    s.setRecorder p o (some { aud := bit w 116, raddr := bits w 109 93, mask := 0, source := none, entry := ids.headD 0 })
  else match old with
    | none => s
    | some r =>
      let f := s.fresh
      let s := if r.source.isNone then f.2 else s
      let iv := ((s.pav p).seq.stream i).interval
      (s.localPut p true { unit := 0, stream := i, iv := iv } (64 * r.raddr)
        (r.rows (Config.free64 f.1).toNat) false 18).setRecorder p o none

def State.runMfset (s : State) (p i w : Nat) : State := s.issue p i 0x3C (mfsetIssue w) (mfsetEff p i w)

/-! ### Gathering stored elements -/

/-- Chosen elements of one stored element row; only the squares that hold them are read. -/
def State.gatherRow (s : State) (p base pitch code r : Nat) (cols : List Nat) : (List Nat × Bool) × State :=
  let js := (cols.map (· / 32)).eraseDups
  let d := s.operandSpans p true (js.map (fun j => (squareAt base pitch code r j, squareRow code)))
  let table : Tab (List Nat) := js.zip (d.1.1.map (unpackElems (elemBits code) 32))
  ((cols.map (fun n => lget 0 (tget [] table (n / 32)) (n % 32)), d.1.2), d.2)

/-- Chosen rows and columns of a stored matrix, row by row. -/
def State.gather (s : State) (p base pitch code : Nat) (cols : List Nat) : List Nat → (List (List Nat) × Bool) × State
  | [] => (([], false), s)
  | r :: t =>
    let x := s.gatherRow p base pitch code r cols
    let u := x.2.gather p base pitch code cols t
    ((x.1.1 :: u.1.1, x.1.2 || u.1.2), u.2)

/-- Chosen bytes of rows of a plane of the engine stage, each row `width` bytes after the one before; only the 64-byte rows that
hold them are read (R99). -/
def State.planeRows (s : State) (p base width : Nat) (cols : List Nat) : List Nat → (List (List Nat) × Bool) × State
  | [] => (([], false), s)
  | i :: t =>
    let rows := (cols.map (fun n => (base + width * i + n) / 64)).eraseDups
    let r := s.operandSpans p true (rows.map (fun k => (64 * k, 64)))
    let table : Tab (List Byte) := rows.zip r.1.1
    let u := r.2.planeRows p base width cols t
    ((cols.map (fun n =>
        let a := base + width * i + n
        (lget 0 (tget [] table (a / 64)) (a % 64)).toNat) :: u.1.1, r.1.2 || u.1.2), u.2)

/-! ### MLOAD (R69, R70, R78–R81, R99, R100) -/

/-- The fields of an MLOAD. -/
structure Mload where
  wfmt : Nat
  spa : Bool
  tr : Bool
  fc : Bool
  /-- Logical K extent (R69, R100) and columns. -/
  kext : Nat
  next : Nat
  part : Bool
  waddr : Nat
  saddr : Nat
  iaddr : Nat
  maddr : Nat
  deriving DecidableEq, Repr

/-- Tile depth of a weight format, doubled under 2:4 (R62, R63). -/
def tileDepth (wfmt : Nat) (spa : Bool) : Nat := (classOf wfmt).depth * (if spa then 2 else 1)

def mloadOf (w : Nat) : Mload :=
  let k := if bits w 111 102 = 0 then 1024 else bits w 111 102
  let spa := bits w 115 114 == 1
  { wfmt := bits w 119 116, spa := spa, tr := bit w 113, fc := bit w 112
    kext := if spa && classOf (bits w 119 116) == .n4 then 2 * k else k
    next := if bits w 101 93 = 0 then 512 else bits w 101 93
    part := bit w 92, waddr := bits w 84 68, saddr := bits w 67 51, iaddr := bits w 50 34, maddr := bits w 33 17 }

/-- The record that an MLOAD names starts at maddr rounded down, and its chunk is maddr[4:0] (R120). -/
def Mload.record (m : Mload) : Nat := m.maddr / 32 * 32
def Mload.chunk (m : Mload) : Nat := m.maddr % 32

/-- Whether the K extent field counts: forecast with dir = 1 ignores it (R120). -/
def Mload.kextUsed (m : Mload) (h : FcHeader) : Bool := !(m.fc && h.dir)

/-- Refusals of an MLOAD (R65, R69, R70, R100, R120). -/
def Mload.refuse (m : Mload) (w : Nat) (h : FcHeader) : Option Nat :=
  let unit := if m.spa && classOf m.wfmt == .n4 then 2 else 1
  let mx := isMx m.wfmt
  if m.wfmt = 15 ∨ 1 < bits w 115 114 ∨ bits w 91 85 ≠ 0 ∨ bits w 16 0 ≠ 0 ∨ (m.part = true ∧ m.wfmt ≠ 14) ∨
      (m.tr = true ∧ mx = true) then some 1
  else if m.kextUsed h = true ∧ ((m.spa = true ∧ m.kext / unit % 4 ≠ 0) ∨ (mx = true ∧ m.kext % 32 ≠ 0) ∨
      tileDepth m.wfmt m.spa < m.kext) then some 1
  else if m.fc = true ∧ 16 ≤ m.chunk then some 1
  else none

/-- K extent and N extent of the stored operand that the load may touch. -/
def Mload.shape (m : Mload) (h : FcHeader) : Nat × Nat :=
  if m.fc then (if h.dir then (512 * h.span, m.next) else (m.kext, 512 * h.span)) else (m.kext, m.next)

/-- The ranges of an MLOAD (R203). -/
def Mload.rngs (m : Mload) (h : FcHeader) (pitch : Nat) : List Rng :=
  let d := m.shape h
  let stored := if m.spa then (if m.tr then (2 * ((d.2 + 3) / 4), d.1) else (d.1 / 2, d.2))
    else if m.tr then (d.2, d.1) else d
  [Rng.of true (64 * m.waddr) (squareExtent m.wfmt pitch stored.1 stored.2) true false] ++
  (if isMx m.wfmt then [Rng.of true (64 * m.saddr) (512 * ((d.1 - 1) / 32) + d.2) true false] else []) ++
  (if m.spa then [Rng.of true (64 * m.iaddr)
      (if m.tr then d.1 * (((d.2 + 3) / 4 + 1) / 2) else 512 * ((d.1 / 4 - 1) / 2) + d.2) true false] else []) ++
  (if m.fc then [{ stage := true, base := m.record, limit := m.record + 32, read := true, write := false }] else [])

/-- The split of an FP32 value (R91): hi and lo as BF16 values, each with the flags of its rounding. -/
def split32 (a : FV) : (FV × Flags) × (FV × Flags) :=
  let hi := bf16.round none a
  match hi.1 with
  | .fin _ _ _ =>
    let rest := (a.add hi.1.neg).1
    (hi, if rest.isZero then (.zero, 0) else bf16.round none rest)
  | _ => (hi, (.zero, 0))

/-- One weight as the array holds it: the split part of an FP32 weight, or the value under its scale. -/
def Mload.weight (m : Mload) (v scale : Nat) : FV × Flags :=
  if m.wfmt = 14 then (if m.part then (split32 (fp32.read v)).2 else (split32 (fp32.read v)).1)
  else if isMx m.wfmt then (mxValue m.wfmt v scale, 0)
  else (readElem m.wfmt v, 0)

/-- Indices of a 2:4 index entry that is valid (R99): i0 < i1. -/
def indexPair (e : Nat) : Option (Nat × Nat) :=
  let i0 := bits e 1 0
  let i1 := bits e 3 2
  if i0 < i1 then some (i0, i1) else none

/-- A group of four with entry 0x4 and two zero values (R99, R107). -/
def zeroGroup : List (Option FV) := [some .zero, some .zero, none, none]

/-- A group of four from its index pair and its two values. -/
def keptGroup (e : Nat × Nat) (a b : FV) : List (Option FV) :=
  (List.range 4).map (fun k => if k = e.1 then some a else if k = e.2 then some b else none)

/-- The columns of a dense tile (R78): stored values in tile orientation, zero beyond the extents. `scale i j` is the
scale byte of block i in the j-th loaded column. -/
def Mload.denseCols (m : Mload) (depth : Nat) (cols : List (List Nat)) (scale : Nat → Nat → Nat) :
    List (List (Option FV)) × Flags :=
  let cs := ((List.range cols.length).zip cols).map (fun c =>
    ((List.range c.2.length).zip c.2).map (fun e => m.weight e.2 (scale (e.1 / 32) c.1)))
  (cs.map (fun c => c.map (fun e => some e.1) ++ List.replicate (depth - c.length) (some .zero)) ++
    List.replicate (512 - cols.length) (List.replicate depth (some .zero)),
    orFlags (cs.map (fun c => orFlags (c.map (·.2)))))

/-- A 2:4 column (R99): groups of kept values under their entries, zero groups beyond the extent. The answer tells
whether an entry was faulty (R107). -/
def kept24 (depth groups : Nat) (entry : Nat → Nat) (value : Nat → Nat → FV) : List (Option FV) × Bool :=
  let gs := (List.range (depth / 4)).map (fun g =>
    if groups ≤ g then (zeroGroup, false)
    else match indexPair (entry g) with
      | some e => (keptGroup e (value g 0) (value g 1), false)
      | none => (zeroGroup, true))
  ((gs.map (·.1)).flatten, gs.any (·.2))

/-- A 4 × 4 block re-compressed along the new K (R81): for column c of the block, the positions of k that its entries
name; none when the block is not 2:4 along K or an entry is faulty. `covered` lists the block's columns that the tile has, the
only ones that are checked (R99). -/
def recompress (entry : Nat → Nat) (covered : List Nat) (c : Nat) : Option (Nat × Nat) :=
  let named := fun k j => match indexPair (entry k) with
    | some e => e.1 == j || e.2 == j
    | none => false
  let ok := (List.range 4).all (fun k => (indexPair (entry k)).isSome) &&
    covered.all (fun j => ((List.range 4).filter (fun k => named k j)).length == 2)
  match ok, (List.range 4).filter (fun k => named k c) with
  | true, [a, b] => some (a, b)
  | _, _ => none

/-! ### The checksum columns (R78, R79) -/

/-- A weight or a sum n times over. -/
def FV.times (x : FV) (n : Nat) : FV :=
  match x with
  | .fin a m e => .fin a (m * n) e
  | y => y

/-- Adds a value to a checksum sum, exactly or in double-word FP32 (R79). A special value adds nothing, as its products stand
beside the sum (R52; log 101). -/
def ckAdd (exact : Bool) (a b : FV) : FV :=
  if !b.isFin then a else if exact then (a.add b).1 else readDw (dwAdd (roundDw a).1 (roundDw b).1).1

/-- Σ v[n] and Σ (n + 1)·v[n] of a row of values. -/
def ckRow (exact : Bool) (l : List FV) : FV × FV :=
  (numbered l).foldl (fun c e => (ckAdd exact c.1 e.2, ckAdd exact c.2 (e.2.times (e.1 + 1)))) (.zero, .zero)

/-- c1[k] and c2[k] of a tile's columns; under 2:4 a position that no entry names adds nothing. -/
def checkColumns (exact : Bool) (cols : List (List (Option FV))) : List (FV × FV) :=
  (numbered cols).foldl (fun c e => List.zipWith (fun (a : FV × FV) (w : Option FV) =>
    match w with
    | some x => (ckAdd exact a.1 x, ckAdd exact a.2 (x.times (e.1 + 1)))
    | none => a) c e.2) (((cols.head?.map List.length).map (fun n => List.replicate n (FV.zero, FV.zero))).getD [])

/-- Weights of the exact path, whose checksum sums are exact (R45, R79). -/
def exactWeight (wfmt : Nat) : Bool := decide (wfmt ≤ 5)

/-- Loads the tile of an MLOAD from its K and N index lists (R78–R81, R99, R120): columns, INDEX, poison and flags. -/
def State.loadTile (s : State) (p : Nat) (m : Mload) (pitch : Nat) (ks ns : List Nat) :
    (List (List (Option FV)) × Bool × Bool × Flags) × State :=
  let depth := tileDepth m.wfmt m.spa
  let base := 64 * m.waddr
  let blocks := List.range ((ks.length + 31) / 32)
  let sc := if isMx m.wfmt then s.planeRows p (64 * m.saddr) 512 ns blocks else (([], false), s)
  let scale := fun i j => lget 0 (lget [] sc.1.1 i) j
  if !m.spa then
    let g := if m.tr then sc.2.gather p base pitch m.wfmt ks ns else sc.2.gather p base pitch m.wfmt ns ks
    let cols := if m.tr then g.1.1 else columns 0 ns.length g.1.1
    let d := m.denseCols depth cols scale
    ((d.1, false, sc.1.2 || g.1.2, d.2), g.2)
  else if !m.tr then
    let groups := ks.length / 4
    let g := sc.2.gather p base pitch m.wfmt ns (List.range (2 * groups))
    let x := g.2.planeRows p (64 * m.iaddr) 512 ns (List.range ((groups + 1) / 2))
    let at_ := fun r j => lget 0 (lget [] g.1.1 r) j
    let entry := fun j g => bits (lget 0 (lget [] x.1.1 (g / 2)) j) (4 * (g % 2) + 3) (4 * (g % 2))
    let cs := (List.range ns.length).map (fun j =>
      (kept24 depth groups (entry j) (fun g k => (m.weight (at_ (2 * g + k) j) (scale (g / 8) j)).1)))
    let fl := orFlags ((List.range (2 * groups)).map (fun r => orFlags ((List.range ns.length).map (fun j =>
      (m.weight (at_ r j) 127).2))))
    ((cs.map (·.1) ++ List.replicate (512 - ns.length) ((List.replicate (depth / 4) zeroGroup).flatten),
      cs.any (·.2), sc.1.2 || g.1.2 || x.1.2, fl), x.2)
  else
    let hs := (ns.map (· / 4)).eraseDups
    let rows := hs.flatMap (fun h => [2 * h, 2 * h + 1])
    let bytes := (hs.map (· / 2)).eraseDups
    let g := sc.2.gather p base pitch m.wfmt ks rows
    let x := g.2.planeRows p (64 * m.iaddr) m.kext ks bytes
    let kept : Tab (List Nat) := rows.zip g.1.1
    let plane : Tab (List Nat) := bytes.zip x.1.1
    let entry := fun k h => bits (lget 0 (tget [] plane (h / 2)) k) (4 * (h % 2) + 3) (4 * (h % 2))
    let at_ := fun r k => lget 0 (tget [] kept r) k
    let covered := fun h => (ns.filter (fun n => n / 4 == h)).map (· % 4)
    let value := fun k n => match indexPair (entry k (n / 4)) with
      | some e => (m.weight (at_ (2 * (n / 4) + if e.1 = n % 4 then 0 else 1) k) 127).1
      | none => .zero
    let cs := ns.map (fun n =>
      let gs := (List.range (depth / 4)).map (fun b =>
        if m.kext / 4 ≤ b then (zeroGroup, false)
        else match recompress (fun k => entry (4 * b + k) (n / 4)) (covered (n / 4)) (n % 4) with
          | some e => (keptGroup e (value (4 * b + e.1) n) (value (4 * b + e.2) n), false)
          | none => (zeroGroup, true))
      ((gs.map (·.1)).flatten, gs.any (·.2)))
    let fl := orFlags (g.1.1.map (fun r => orFlags (r.map (fun v => (m.weight v 127).2))))
    ((cs.map (·.1) ++ List.replicate (512 - ns.length) ((List.replicate (depth / 4) zeroGroup).flatten),
      cs.any (·.2), g.1.2 || x.1.2, fl), x.2)

/-- The bank that a load fills (R69–R81, R121). -/
def State.fillIdle (s : State) (p : Nat) (m : Mload) (pitch : Nat) (ks ns : List Nat) (fc : Option FcTile) :
    State :=
  let t := s.loadTile p m pitch ks ns
  let bad := t.1.2.2.1 || t.1.2.1
  (t.2.modME p (fun e => { e with
    idle := some { wfmt := BitVec.ofNat 4 m.wfmt, spa := m.spa, part := m.part, kext := ks.length, next := ns.length
                   cols := t.1.1, ck := checkColumns (exactWeight m.wfmt) t.1.1, poison := bad, fc := fc, empty := false } })).raise p .idx
    (t.1.2.2.2 ||| flagIf t.1.2.1 fIndex ||| flagIf bad fPoison)

/-- The effect of an MLOAD. -/
def State.mload (s : State) (p i : Nat) (m : Mload) (pitch slot : Nat) (ids : List Nat) : State :=
  let n := (s.pav p).seq.issued - 1
  let s := s.modME p (fun e => { e with loading := true, loadEntries := ids, loadIssue := n, loadStream := i })
  if !m.fc then s.fillIdle p m pitch (List.range m.kext) (List.range m.next) none
  else
    let r := s.fcRead p i m.record
    let h := r.1.1
    let s := r.2
    if h.dir && (m.spa || isMx m.wfmt) then (s.modME p (fun e => { e with loading := false })).release p ids
      |>.programFault p 8 slot 0x10
    else
      let d := if h.dir then (classOf m.wfmt).depth else 512
      let l := (r.1.2.2.drop (d * m.chunk)).take d
      let fc : FcTile := { slot := h.slot, dir := h.dir, span := h.span, phase := h.phase, list := l.map (·.1)
                           audited := l.map (·.2), dense := r.1.2.1 }
      if l.isEmpty then
        (s.modME p (fun e => { e with
          loading := false
          idle := some { wfmt := BitVec.ofNat 4 m.wfmt, spa := m.spa, part := m.part, kext := 0, next := 0, cols := [], ck := []
                         poison := false, fc := some fc, empty := true } })).release p ids
      else if h.dir then s.fillIdle p m pitch (l.map (·.1)) (List.range m.next) (some fc)
      else s.fillIdle p m pitch (List.range m.kext) (l.map (·.1)) (some fc)

/-- How an MLOAD issues. -/
def State.mloadIssue (s : State) (p i w : Nat) : Issue :=
  let m := mloadOf w
  let h := if m.fc then s.fcPeek p m.record else { slot := 0, dir := false, span := 1, phase := 0, reserved := 0 }
  let pitch := 64 * ((s.pav p).seq.stream i).wpitch.toNat
  let e := (s.pav p).me
  { unit := 0, cad := .load, ready := e.idle.isNone && !e.loading, refuse := m.refuse w h, rngs := m.rngs h pitch }

def State.runMload (s : State) (p i w : Nat) : State :=
  let t := (s.pav p).seq.stream i
  s.issue p i 0x10 (s.mloadIssue p i w) (fun ids s => s.mload p i (mloadOf w) (64 * t.wpitch.toNat) t.slot ids)

/-- R77, R170: the loader has shifted the tile into the idle bank; a load issued during a MACC starts after that MACC's
last K-step. -/
def execTileLoadDone (p : PavIx) (s : State) : Res :=
  let e := (s.pav p.val).me
  let busy := match e.running with
    | some r => r.macc && r.issued != 0
    | none => false
  onlyIf (e.loading && !busy) s
    (((s.modME p.val (fun e => { e with loading := false, loadEntries := [] })).release p.val e.loadEntries).settlePosts
      p.val)

end Sys2Proof.Machine
end

