-- ==== Sys2Proof/Machine/MatrixMath.lean ====
section
/-! DEFINITION. The arithmetic of the matrix engine: sums on each path with special values, the output stage, clip and
the pruning unit (R45, R46, R52, R53, R76, R84, R91, R108–R112, R122, R123, R125). -/

namespace Sys2Proof.Machine

/-! ### Running sums (R46, R52, R53) -/

def Acc.zero : Acc :=
  { run := .zero, w40 := .zero, n := 0, nan := false, pinf := false, ninf := false, hasProd := false, allNegZero := true }

/-- A sum whose value the manual leaves undefined (R85): 128 free bits as X96 or as W40. -/
def Acc.free (path : Path) (v w : BitVec 64) : Acc :=
  let x := FloatFmt.read Sys2Proof.Machine.w40 (v.toNat % 2 ^ 40)
  match path with
  | .exact => { Acc.zero with run := { m := toSigned 96 (v.toNat + 2 ^ 64 * w.toNat), e := -32 }, hasProd := true, allNegZero := false, n := 1 }
  | _ => { Acc.zero with
      w40 := if x.isFin then x else .zero
      nan := x.isNan, pinf := x.isInf && !x.sign, ninf := x.isInf && x.sign, hasProd := true, allNegZero := false, n := 1 }

/-- Products of the open X96 run, of n products in all: a run closes when a product beyond its 2^24th arrives (R46). -/
def openRun (n : Nat) : Nat := if n = 0 then 0 else (n - 1) % 2 ^ 24 + 1

def sumDy (l : List FV) : Dy := l.foldl (fun a x => a.add x.dy) .zero

/-- Adds finite products in X96, closing the run at 2^24 products into W40. -/
def Acc.addExact (a : Acc) (l : List FV) : Acc :=
  let room := 2 ^ 24 - openRun a.n
  if l.length ≤ room then { a with run := a.run.add (sumDy l), n := a.n + l.length }
  else
    { a with
      w40 := addW40 a.w40 (toW40 (a.run.add (sumDy (l.take room))).fv)
      run := sumDy (l.drop room), n := a.n + l.length }

/-- Consecutive groups of 32. -/
def groups32 {α : Type} : Nat → List α → List (List α)
  | 0, _ => []
  | n + 1, l => if l.isEmpty then [] else l.take 32 :: groups32 n (l.drop 32)

/-- Adds the products of one row to a sum (R45, R52): products in order of k, a position without a product left out.
On the block-exact path the products come in blocks of 32 logical positions. -/
def Acc.add (a : Acc) (path : Path) (blocks : List (List FV)) : Acc :=
  let l := blocks.flatten
  let a := { a with
    nan := a.nan || l.any FV.isNan
    pinf := a.pinf || l.any (fun x => x.isInf && !x.sign), ninf := a.ninf || l.any (fun x => x.isInf && x.sign)
    hasProd := a.hasProd || !l.isEmpty, allNegZero := a.allNegZero && l.all (fun x => x.isZero && x.sign) }
  match path with
  | .exact => a.addExact l
  | .block => { a with
      w40 := addW40 a.w40 (treeSum addW40 12 (blocks.map (fun b => toW40 (sumDy b).fv))), n := a.n + l.length }
  | _ => { a with
      w40 := addW40 a.w40 (treeSum addW40 12 (l.map (fun x => if x.isFin then toW40 x else .zero))), n := a.n + l.length }

/-- The sum of the finite products. -/
def Acc.finite (path : Path) (a : Acc) : FV :=
  match path with
  | .exact => if a.n ≤ 2 ^ 24 then a.run.fv else addW40 a.w40 (toW40 a.run.fv)
  | _ => a.w40

/-- The final sum (R52, R53): its value and INVALID when infinities of both signs were recorded. -/
def Acc.sum (path : Path) (a : Acc) : FV × Flags :=
  if a.pinf && a.ninf then (.qnan, fInvalid)
  else if a.nan then (.qnan, 0)
  else if a.pinf || a.ninf then (.inf a.ninf, 0)
  else
    let x := a.finite path
    (if x.isZero then .fin (a.hasProd && a.allNegZero) 0 0 else x, 0)

/-- The products of an input row with one tile column, in blocks of 32 logical positions, with their flags. -/
def products (xs : List FV) (col : List (Option FV)) : List (List (FV × Flags)) :=
  (groups32 64 (xs.zip col)).map (fun g => g.filterMap (fun e => e.2.map (fun w => e.1.mul w)))

/-- Σ |x·w| of a list of products: the magnitude lane of R88. -/
def magnitude (l : List (List (FV × Flags))) : Dy :=
  l.foldl (fun a b => b.foldl (fun a x => a.add x.1.dy.abs) a) .zero

/-- Adds one input row to a row of sums, column by column: the sums, the raw row of this pass alone, the row's magnitude and
its flags. -/
def rowProducts (path : Path) (xs : List FV) (cols : List (List (Option FV))) (accs : List Acc) :
    (List Acc × List FV) × Dy × Flags :=
  let ps := cols.map (products xs)
  let vs := ps.map (fun l => l.map (fun b => b.map (·.1)))
  ((List.zipWith (fun (a : Acc) l => a.add path l) accs vs, vs.map (fun l => (Acc.zero.add path l).finite path)),
    ps.foldl (fun a l => a.add (magnitude l)) .zero,
    orFlags (ps.map (fun l => orFlags (l.map (fun b => orFlags (b.map (·.2)))))))

/-! ### The sums of a verdict (R88, R89) -/

/-- Σ x[k]·c[k] over a checksum column, in the order of k (log 101: exact, since the manual gives the checksum columns' own sums
no width). -/
def ckDot (xs cs : List FV) : FV :=
  (xs.zip cs).foldl (fun a e => if e.1.isFin then (a.add (e.1.mul e.2).1).1 else a) .zero

/-- s1 and s2 of a raw row beside the sums t1 and t2 of the checksum columns (R88). -/
def rowSums (raw : List FV) (t : FV × FV) : RowSums :=
  let s := ckRow true raw
  { s1 := s.1, s2 := s.2, t1 := t.1, t2 := t.2 }

/-! ### The output stage (R84) -/

/-- m · 2^e in units of 2^q, rounded toward zero, and whether it changed. -/
def truncTo (m : Nat) (e q : Int) : Nat × Bool :=
  if q ≤ e then (m * 2 ^ (e - q).toNat, false) else (m / 2 ^ (q - e).toNat, m % 2 ^ (q - e).toNat != 0)

/-- The value of ofmt next to c in the given direction, among its finite values; beyond them, the largest finite value
with the sign of c. -/
def directed (ofmt : Nat) (up : Bool) (c : FV) : FV :=
  match c with
  | .nan _ => c
  | .inf n => match elemOf ofmt with
    | .int _ => FV.ofInt (if n then -128 else 127) 0
    | .flt f => f.largestFV n
    | .dw => fp32.largestFV n
  | .fin n m e =>
    let away := up != n
    match elemOf ofmt with
    | .int _ =>
      let r := truncTo m e 0
      let i := (if away && r.2 then r.1 + 1 else r.1 : Nat)
      let v : Int := if n then -(i : Int) else i
      FV.ofInt (max (-128) (min 127 v)) 0
    | x =>
      let f := match x with
        | .flt f => f
        | _ => fp32
      if m = 0 then .fin n 0 0
      else
        let q := max (e + Nat.log2 m - f.frac) f.step
        let r := truncTo m e q
        let i := if away && r.2 then r.1 + 1 else r.1
        let v := FV.fin n i q
        if FV.lt (.fin false f.largest.1 f.largest.2) (.fin false i q) then f.largestFV n else v

/-- The bits of a value that ofmt holds; a double-word result has lo = +0. -/
def exactBits (ofmt : Nat) (x : FV) : Nat :=
  match elemOf ofmt with
  | .flt f => f.encode x
  | .int sh => match x with
    | .fin n m e =>
      let i := (roundTo m (e + sh) 0 none).1
      if n then (256 - i % 256) % 256 else i % 256
    | _ => 0
  | .dw => fp32.encode x * 2 ^ 32

/-- What clip and pruning compare: the value, or hi of a double-word value. -/
def compareValue (ofmt v : Nat) : FV := if ofmt = 15 then fp32.read (bits v 63 32) else readElem ofmt v

/-- Clips rounded bits to [clo, chi] (R84 step 3). A bound that is a NaN, of which the manual says nothing, bounds nothing, as no
result compares with it (DESIGN CHOICE, log 48). -/
def clipBits (ofmt : Nat) (clo chi : FV) (v : Nat) : Nat :=
  let r := compareValue ofmt v
  if r.isNan || clo.isNan && chi.isNan then v
  else if !clo.isNan && r.lt clo then exactBits ofmt (directed ofmt true clo)
  else if !chi.isNan && chi.lt r then
    let g := directed ofmt false chi
    if !clo.isNan && g.lt clo then exactBits ofmt (directed ofmt true clo) else exactBits ofmt g
  else v

/-- The output of one column (R84 steps 2 and 3): bits and flags. -/
def OutCtx.output (c : OutCtx) (path : Path) (n : Nat) (r : Rnd) (a : Acc) : Nat × Flags :=
  let y := a.sum path
  let s0 := fp32.read c.scale.toNat
  let s := if c.scl then s0.mul (fp32.read (lget 0 c.svec n).toNat) else (s0, 0)
  let p := y.1.mul s.1
  let q := if c.bia then p.1.add (fp32.read (lget 0 c.bvec n).toNat) else (p.1, 0)
  let o := convert c.ofmt.toNat r q.1
  let v := if c.clp then clipBits c.ofmt.toNat (bf16.read c.clo.toNat) (bf16.read c.chi.toNat) o.1 else o.1
  (v, y.2 ||| s.2 ||| snanFlag [s0] ||| p.2 ||| q.2 ||| o.2)

/-- Rounding mode of a context for its n-th rounding: draw number k + n of the pavilion's generator (R47, R50). -/
def drawAt (on : Bool) (p epoch k n : Nat) : Rnd := if on then some (Config.random p epoch (k + n)).toNat else none

/-! ### The pruning unit (R108–R112) -/

/-- Rank of magnitudes: NaN above infinity above finite (R110). -/
def magLt (x y : FV) : Bool :=
  if x.isNan then false else if y.isNan then true else x.abs.lt y.abs

/-- The index of the largest of some positions, ties to the lower index. -/
def largestOf (v : Nat → FV) : List Nat → Option Nat
  | [] => none
  | i :: t => match largestOf v t with
    | none => some i
    | some j => if magLt (v i) (v j) then some j else some i

/-- CREATE and PACK keep the two largest of a group of four (R110). -/
def select2 (v : Nat → FV) : Nat × Nat :=
  let a := (largestOf v [0, 1, 2, 3]).getD 0
  let b := (largestOf v ([0, 1, 2, 3].filter (· != a))).getD 1
  (min a b, max a b)

/-- Inserts a position into an order of falling magnitude, ties by position. -/
def insertBy (v : Nat → FV) (i : Nat) : List Nat → List Nat
  | [] => [i]
  | j :: t => if magLt (v j) (v i) then i :: j :: t else j :: insertBy v i t

/-- The 90 patterns with two positions in every row and column of a 4 × 4 block, as bit sets with bit 4r + c. -/
def patterns : List Nat :=
  let rows := [3, 5, 6, 9, 10, 12]
  (rows.flatMap (fun a => rows.flatMap (fun b => rows.flatMap (fun c => rows.map (fun d =>
    a + 16 * b + 256 * c + 4096 * d))))).filter (fun p =>
      (List.range 4).all (fun c => ((List.range 4).filter (fun r => bit p (4 * r + c))).length == 2))

/-- Positions of a pattern. -/
def patternAt (p : Nat) : List Nat := below 16 (fun i => bit p i)

/-- Keys of the fallback of R112: NaN positions, infinite positions, and the exact finite sum that a pattern keeps. -/
def patternKey (v : Nat → FV) (p : Nat) : Nat × Nat × Dy :=
  let l := (patternAt p).map v
  ((l.filter FV.isNan).length, (l.filter FV.isInf).length, sumDy (l.map FV.abs))

/-- A pattern ranks below another; ties go to the smaller number. -/
def patternLt (v : Nat → FV) (p q : Nat) : Bool :=
  let a := patternKey v p
  let b := patternKey v q
  if a.1 ≠ b.1 then decide (a.1 < b.1)
  else if a.2.1 ≠ b.2.1 then decide (a.2.1 < b.2.1)
  else a.2.2.le b.2.2 && (!b.2.2.le a.2.2 || decide (q < p))

/-- The greedy selection of CREATE-T. -/
def greedyT : List Nat → List Nat → List Nat
  | [], keep => keep
  | i :: t, keep =>
    if (keep.filter (fun k => k / 4 == i / 4)).length < 2 ∧ (keep.filter (fun k => k % 4 == i % 4)).length < 2 then
      greedyT t (keep ++ [i])
    else greedyT t keep

/-- CREATE-T on a block (R112), position 4r + c: the kept positions, and whether the fallback was taken. -/
def selectT (v : Nat → FV) : List Nat × Bool :=
  let g := greedyT ((List.range 16).foldl (fun l i => insertBy v i l) []) []
  if g.length = 8 then (g, false)
  else (patternAt (patterns.foldl (fun m p => if patternLt v m p then p else m) (patterns.headD 0)), true)

/-- The pruning of a group of four rows: kept pairs per column, dropped non-zero values, and fallbacks; none where the
index plane of FIXED mode is faulty in a column. -/
def pruneGroup (mode ofmt : Nat) (rows : List (List Nat)) (plane : List Nat) :
    List (Option (Nat × Nat)) × Nat × Nat :=
  let at_ := fun c r => compareValue ofmt (lget 0 (lget [] rows r) c)
  match mode with
  | 2 =>
    let bs := (List.range 128).map (fun b => selectT (fun i => at_ (4 * b + i % 4) (i / 4)))
    (bs.flatMap (fun k => (List.range 4).map (fun c =>
      match (List.range 4).filter (fun r => k.1.contains (4 * r + c)) with
      | [a, b] => some (a, b)
      | _ => none)), 0, (bs.filter (·.2)).length)
  | 4 => (plane.map indexPair, 0, 0)
  | _ =>
    let ks := (List.range 512).map (fun c => select2 (at_ c))
    (ks.map some,
      sumBy ((List.range 512).zip ks) (fun e => ((List.range 4).filter (fun r =>
        r != e.2.1 && r != e.2.2 && !(at_ e.1 r).isZero)).length), 0)

end Sys2Proof.Machine
end

