-- ==== Sys2Proof/Machine/MatrixRun.lean ====
section
/-! DEFINITION. Tile passes: MRUN and MACC at issue, rows and K-steps, the drain, outputs, pruned outputs and the forecast
recorder (R72–R77, R80, R82–R87, R91, R92, R109–R116, R121–R126, R149, R232, R243, R244). -/

namespace Sys2Proof.Machine

/-! ### Fields -/

/-- The fields that MRUN and MACC share, with rows or K-steps, and MRUN's own (R72, R74). `base` is the operand through the
feed, x or A; `side` the input scale plane of MRUN or B of MACC. -/
structure Mop where
  macc : Bool
  xfmt : Nat
  bfmt : Nat
  octx : Nat
  skp : Bool
  acc : Bool
  fin : Bool
  swp : Bool
  rows : Nat
  dst : Nat
  part : Bool
  base : Nat
  side : Nat
  yaddr : Nat
  deriving DecidableEq, Repr

def mrunOf (w : Nat) : Mop :=
  { macc := false, xfmt := bits w 119 116, bfmt := 0, octx := bits w 115 114, skp := bit w 113, acc := bit w 112
    fin := bit w 111, swp := bit w 110, rows := if bits w 109 100 = 0 then 1024 else bits w 109 100, dst := bits w 99 98
    part := bit w 97, base := bits w 95 64, side := bits w 31 0, yaddr := bits w 63 32 }

def maccOf (w : Nat) : Mop :=
  { macc := true, xfmt := bits w 119 116, bfmt := bits w 115 112, octx := bits w 111 110, skp := bit w 109
    acc := bit w 108, fin := bit w 107, swp := false, rows := 32 * (if bits w 104 96 = 0 then 512 else bits w 104 96)
    dst := bits w 106 105, part := false, base := bits w 95 64, side := bits w 63 32, yaddr := bits w 31 0 }

def Pass.op (r : Pass) : Mop := if r.macc then maccOf r.w.toNat else mrunOf r.w.toNat

/-- An operand address of a square matrix: a known space and a multiple of 64 (R67). -/
def squareAddr (a : Nat) : Option (Bool × Nat) := (operandAddr a).filter (fun e => e.2 % 64 == 0)

/-- Space and address of a field that its issue has checked. -/
def operandOf (a : Nat) : Bool × Nat := (operandAddr a).getD (false, 0)

/-- dst and the destination address name the same space (R73, R75). -/
def Mop.dstOk (m : Mop) : Bool :=
  match m.dst with
  | 0 => squareAddr m.yaddr == some (false, (operandOf m.yaddr).2)
  | 1 => squareAddr m.yaddr == some (true, (operandOf m.yaddr).2)
  | 2 => true
  | _ => false

/-- Logical K of a row that a pair of classes passes, doubled under 2:4 (R63, R73). -/
def rowDepth (xfmt wfmt : Nat) (spa : Bool) : Nat := (pairClass xfmt wfmt).depth * if spa then 2 else 1

/-- Stride of the input scale plane (R80). -/
def scaleStride (t : Tile) : Nat := if t.spa && classOf t.wfmt.toNat == .n4 then 64 else 32

/-! ### Issue (R72–R75, R92, R109, R203) -/

/-- An MRUN that has been issued will still swap the banks. -/
def ME.swapDue (m : ME) : Bool :=
  (m.running.toList ++ m.waiting.toList).any (fun r => r.op.swp && !r.swapped)

/-- The banks as an MRUN issued now will find them: active and idle. -/
def ME.banks (m : ME) : Option Tile × Option Tile :=
  if m.swapDue then (m.idle, none) else (m.active, m.idle)

/-- The tile that an MRUN issued now will use. -/
def ME.tileFor (m : ME) (o : Mop) : Option Tile := if o.swp then m.banks.2 else m.banks.1

/-- R92: the FP32 sequence takes this MRUN as its next step. Its fourth step states no fin, and fin = 0 is asked there, since the
fifth adds to the array that it leaves (DESIGN CHOICE, log 100). -/
def fp32Ok (step : Nat) (o : Mop) (t : Tile) (ofmt : Nat) : Bool :=
  decide (14 ≤ ofmt) &&
  match step with
  | 0 => !o.part && o.swp && !o.acc && !o.fin && !t.part
  | 1 => o.part && !o.swp && o.acc && !o.fin && !t.part
  | _ => !o.part && o.swp && o.acc && o.fin && t.part

/-- Refusals of an MRUN (R65, R73, R92, R109). R73 compares acc = 1 with the MRUN that last left the array open: with none open,
after fin = 1 or a load of the program, any path and octx are taken (DESIGN CHOICE, log 100). -/
def ME.refuseMrun (m : ME) (o : Mop) (w : Nat) : Option Nat :=
  let c := m.ctx o.octx
  let ofmt := c.ofmt.toNat
  if bit w 96 || o.xfmt == 15 || (o.part && o.xfmt != 14) || (squareAddr o.base).isNone || !o.dstOk ||
      (isMx o.xfmt && (operandAddr o.side).isNone) then some 1
  else match m.tileFor o with
    | none => some 1
    | some t =>
      match pathOf o.xfmt t.wfmt.toNat with
      | none => some 1
      | some path =>
        let seqOk := if path = .fp32 then fp32Ok m.fp32Step o t ofmt else decide (m.fp32Step = 0)
        let accOk := !o.acc || m.accOpen.isNone || m.accOpen == some (path, o.octx)
        if decide (512 < o.rows) && (o.acc || !o.fin) || !accOk || (decide (o.dst = 2) && ofmt != 14 && ofmt != 12) ||
            decide (rowDepth o.xfmt t.wfmt.toNat t.spa < t.kext) || !seqOk ||
            (c.pmode != 0 && (o.rows % 4 != 0 || o.dst == 2)) then some 1
        else none

/-- Refusals of a MACC (R65, R74, R75; log 58). -/
def ME.refuseMacc (m : ME) (o : Mop) : Option Nat :=
  let c := m.ctx o.octx
  let ofmt := c.ofmt.toNat
  let odd := fun f => isMx f || decide (14 ≤ f)
  let b := squareAddr o.side
  match pathOf o.xfmt o.bfmt with
  | none => some 1
  | some path =>
    if odd o.xfmt || odd o.bfmt || (squareAddr o.base).isNone || b.isNone || (b.map (·.1)) == some false || !o.dstOk ||
        (o.acc && m.pePath.isSome && m.pePath != some path) ||
        (o.fin && decide (o.dst = 2) && ((ofmt != 14 && ofmt != 12) || c.pmode != 0)) then some 1
    else none

/-- Rows of the destination matrix: half under pruning (R109). -/
def outRows (c : OutCtx) (rows : Nat) : Nat := if c.pmode = 0 then rows else rows / 2

/-- The index plane of a context's pruning for so many rows (R99, R109). -/
def planeRng (c : OutCtx) (rows : Nat) (read : Bool) : Rng :=
  let a := operandOf c.iaddr.toNat
  Rng.of a.1 a.2 (512 * ((rows / 4 + 1) / 2)) read (!read)

/-- The ranges of the outputs of a pass (R203). -/
def Mop.outRngs (o : Mop) (c : OutCtx) (ypitch rows : Nat) : List Rng :=
  if !o.fin then []
  else
    let y := operandOf o.yaddr
    (if c.pmode = 4 then [planeRng c rows true] else []) ++
    (if o.dst = 2 then [] else [Rng.of y.1 y.2 (squareExtent c.ofmt.toNat ypitch (outRows c rows) 512) false true]) ++
    (if c.pmode = 0 ∨ c.pmode = 4 then [] else [planeRng c rows false])

def Mop.mrunRngs (o : Mop) (c : OutCtx) (t : Tile) (xpitch ypitch : Nat) : List Rng :=
  if t.empty then []
  else
    let x := operandOf o.base
    let xs := operandOf o.side
    let k := rowDepth o.xfmt t.wfmt.toNat t.spa
    [Rng.of x.1 x.2 (squareExtent o.xfmt xpitch o.rows k) true false] ++
    (if isMx o.xfmt then [Rng.of xs.1 xs.2 (scaleStride t * (o.rows - 1) + k / 32) true false] else []) ++
    o.outRngs c ypitch o.rows

def Mop.maccRngs (o : Mop) (c : OutCtx) (xpitch wpitch ypitch : Nat) : List Rng :=
  let a := operandOf o.base
  let b := operandOf o.side
  [Rng.of a.1 a.2 (squareExtent o.xfmt xpitch o.rows 512) true false,
    Rng.of b.1 b.2 (squareExtent o.bfmt wpitch o.rows 512) true false] ++ o.outRngs c ypitch 512

/-- The byte ranges of the rows of squares of a destination. -/
def Mop.outSpans (o : Mop) (c : OutCtx) (ypitch rows : Nat) : List (Nat × Nat) :=
  let y := (operandOf o.yaddr).2
  (List.range ((outRows c rows + 31) / 32)).map (fun r => (y + r * ypitch, 16 * squareBytes c.ofmt.toNat))

/-- A pass whose writes would reach a cell's monitor region (R210). -/
def Mop.monitor (o : Mop) (c : OutCtx) (ypitch rows : Nat) : Bool :=
  o.fin && ((o.dst == 0 && monitorWrite false (o.outSpans c ypitch rows)) ||
    (c.pmode != 0 && c.pmode != 4 &&
      monitorWrite (operandOf c.iaddr.toNat).1 [((operandOf c.iaddr.toNat).2, 512 * ((rows / 4 + 1) / 2))]))

/-- Swaps the banks (R77). -/
def ME.swap (m : ME) : ME := { m with active := m.idle, idle := none }

/-- Starts the waiting pass when none runs; a pass of an empty forecast chunk swaps and is over (R121). n bounds the
passes. -/
def ME.startPasses (m : ME) : Nat → ME
  | 0 => m
  | n + 1 =>
    match m.running with
    | some _ => m
    | none => match m.waiting with
      | none => m
      | some r =>
        if r.rows = 0 ∧ (r.op.swp = false ∨ m.loading = false) then
          ({ m with waiting := none, active := if r.op.swp then m.idle else m.active
                    idle := if r.op.swp then none else m.idle } : ME).startPasses n
        else { m with running := some r, waiting := none }

/-- Gives the ME a pass. -/
def State.addPass (s : State) (p : Nat) (r : Pass) : State :=
  s.modME p (fun m => ({ m with waiting := some r } : ME).startPasses 2)

/-- A pass as it stands at issue. -/
def passOf (s : State) (p i slot : Nat) (w : Body) (o : Mop) (path : Path) (rows : Nat) (rd wr : List Nat) : Pass :=
  let t := (s.pav p).seq.stream i
  { id := (s.pav p).seq.issued - 1, macc := o.macc, stream := i, slot := slot, w := w, ctx := (s.pav p).me.ctx o.octx
    octx := o.octx, path := path, rows := rows, issued := 0, swapped := false, xpitch := 64 * t.xpitch.toNat
    wpitch := 64 * t.wpitch.toNat, ypitch := 64 * t.ypitch.toNat, rd := rd, wr := wr, filled := []
    interval := t.interval }

/-- The accumulator array as an MRUN leaves it (R73, R92); a pass that issues no row leaves it as it was (R121). -/
def ME.openBy (m : ME) (o : Mop) (path : Path) (empty : Bool) : ME :=
  { m with
    accOpen := if empty then m.accOpen else if o.fin then none else some (path, o.octx)
    fp32Step := if path = .fp32 then (m.fp32Step + 1) % 3 else m.fp32Step }

/-- How an MRUN issues. -/
def State.mrunIssue (s : State) (p i w : Nat) : Issue :=
  let o := mrunOf w
  let m := (s.pav p).me
  let t := (s.pav p).seq.stream i
  let c := m.ctx o.octx
  let yp := 64 * t.ypitch.toNat
  { unit := 0, cad := .pass (some (!o.fin)), ready := m.waiting.isNone
    refuse := (m.refuseMrun o w).or (if o.monitor c yp o.rows then some 1 else none)
    rngs := match m.tileFor o with
      | some x => o.mrunRngs c x (64 * t.xpitch.toNat) yp
      | none => [] }

/-- The effect of an MRUN that its pavilion, as v, has issued: the pass of tile x starts or waits. -/
def mrunEff (p i w : Nat) (v : Pav) (rs : List Rng) (ids : List Nat) (s : State) : State :=
  let o := mrunOf w
  match v.me.tileFor o with
  | none => s
  | some x =>
    let path := (pathOf o.xfmt x.wfmt.toNat).getD .exact
    let r := passOf s p i (v.seq.stream i).slot (BitVec.ofNat 120 w) o path (if x.empty then 0 else o.rows)
      (readIds v.seq.tagged 0 rs ids) (writeIds v.seq.tagged 0 rs ids)
    (s.modME p (fun m => m.openBy o path x.empty)).addPass p r

def State.runMrun (s : State) (p i w : Nat) : State :=
  let x := s.mrunIssue p i w
  s.issue p i 0x20 x (mrunEff p i w (s.pav p) x.rngs)

/-- How an MACC issues. -/
def State.maccIssue (s : State) (p i w : Nat) : Issue :=
  let o := maccOf w
  let m := (s.pav p).me
  let t := (s.pav p).seq.stream i
  let c := m.ctx o.octx
  let yp := 64 * t.ypitch.toNat
  { unit := 0, cad := .pass none, ready := m.waiting.isNone
    refuse := (m.refuseMacc o).or (if o.monitor c yp 512 then some 1 else none)
    rngs := o.maccRngs c (64 * t.xpitch.toNat) (64 * t.wpitch.toNat) yp }

/-- The effect of an MACC that its pavilion, as v, has issued. -/
def maccEff (p i w : Nat) (v : Pav) (rs : List Rng) (ids : List Nat) (s : State) : State :=
  let o := maccOf w
  let path := (pathOf o.xfmt o.bfmt).getD .exact
  let r := passOf s p i (v.seq.stream i).slot (BitVec.ofNat 120 w) o path o.rows (readIds v.seq.tagged 0 rs ids)
    (writeIds v.seq.tagged 0 rs ids)
  (s.modME p (fun m => { m with pePath := if o.fin then none else some path })).addPass p r

def State.runMacc (s : State) (p i w : Nat) : State :=
  let x := s.maccIssue p i w
  s.issue p i 0x28 x (maccEff p i w (s.pav p) x.rngs)

/-! ### The forecast recorder (R125, R126) -/

/-- What one output row of a forecast pass records: the columns of the span that fired, the number of audited outputs, and which
of them are misses. `fired j` tells whether the result of loaded column j is non-zero. -/
def FcTile.seen (f : FcTile) (aud : Bool) (fired : Nat → Bool) : List Nat × Nat × List Nat :=
  let es := (List.range f.list.length).zip (f.list.zip f.audited)
  (es.filterMap (fun e => if fired e.1 && (!e.2.2 || aud) then some e.2.1 else none),
    if aud then (es.filter (fun e => e.2.2)).length else 0,
    if aud then (numbered (es.filter (fun e => e.2.2))).filterMap (fun e => if fired e.2.1 then some e.1 else none) else [])

/-- Records one output row of a pass of a forecast tile. Of a dir = 1 record, whose columns are not those of its span, only the
source is noted, and a pass of a tile without forecast records nothing (DESIGN CHOICE, log 51). A miss keeps its place among the
audited outputs, by which it belongs to its window (R126). -/
def State.recordRow (s : State) (p octx : Nat) (f : FcTile) (fired : Nat → Bool) : State :=
  match (s.pav p).me.recorder octx with
  | none => s
  | some r =>
    if f.dir then s.setRecorder p octx (some { r with source := some (f.slot, f.dir, f.span, f.phase) })
    else
      let x := f.seen r.aud fired
      let mask := x.1.foldl (fun m n => m ||| 2 ^ n) r.mask.toNat
      let s := s.setRecorder p octx (some { r with
        mask := BitVec.ofNat 8192 mask, source := some (f.slot, f.dir, f.span, f.phase) })
      if x.2.1 = 0 then s
      else s.modPav p (fun v => { v with
        forecast := tmod .cleared v.forecast f.slot (fun c =>
          { c with audited := c.audited + x.2.1, misses := c.misses ++ x.2.2.map (· + c.audited) }) })

/-- The forecast tile whose audited columns a pass writes as zero (R122, R123). -/
def Tile.audits (t : Tile) : List Bool :=
  match t.fc with
  | some f => if f.dir then [] else f.audited
  | none => []

/-! ### Writing outputs (R84, R86, R87, R108–R113) -/

/-- One converted output element: its bits and its poison. -/
abbrev OutElem := Nat × Bool

/-- Writes one row of 512 elements of a destination matrix. -/
def State.putOutRow (s : State) (p : Nat) (r : Pass) (row : Nat) (l : List OutElem) : State :=
  let o := r.op
  let y := operandOf o.yaddr
  let code := r.ctx.ofmt.toNat
  s.each (List.range 16) (fun s j =>
    s.putElems p y.1 { unit := 0, stream := r.stream, iv := r.interval } (elemBits code) (squareAt y.2 r.ypitch code row j)
      (((l.drop (32 * j)).take 32).map (fun e => { val := some e.1, poison := e.2 })) false)

/-- Destination rows, in 64-byte rows, of one row of a destination matrix. -/
def outRowRows (o : Mop) (code ypitch row : Nat) : List (Bool × Nat) :=
  let y := operandOf o.yaddr
  ((List.range 16).flatMap (fun j =>
    let a := squareAt y.2 ypitch code row j
    (List.range ((a + squareRow code + 63) / 64 - a / 64)).map (fun i => (y.1, a / 64 + i)))).eraseDups

/-- Rows of the index plane that a group of four writes. -/
def planeGroupRows (c : OutCtx) (g : Nat) : List (Bool × Nat) :=
  let a := operandOf c.iaddr.toNat
  let b := a.2 + 512 * (g / 2)
  (List.range ((b + 511) / 64 - b / 64 + 1)).map (fun i => (a.1, b / 64 + i))

/-- The rows that hold what output row m gives (R113: with pruning, its whole group's). -/
def Pass.destOf (r : Pass) (m : Nat) : List (Bool × Nat) :=
  let o := r.op
  let code := r.ctx.ofmt.toNat
  if !o.fin ∨ o.dst = 2 then []
  else if r.ctx.pmode = 0 then outRowRows o code r.ypitch m
  else outRowRows o code r.ypitch (2 * (m / 4)) ++ outRowRows o code r.ypitch (2 * (m / 4) + 1) ++
    (if r.ctx.pmode = 4 then [] else planeGroupRows r.ctx (m / 4))

/-- Writes the index entries of group g; the other nibble of each byte stays (R99). -/
def State.putIndices (s : State) (p : Nat) (r : Pass) (g : Nat) (es : List (Nat × Bool)) : State :=
  let a := operandOf r.ctx.iaddr.toNat
  let b := a.2 + 512 * (g / 2)
  let pairs := (List.range es.length).zip es
  s.putElems p a.1 { unit := 0, stream := r.stream, iv := r.interval } 8 b
    (pairs.map (fun e =>
      let old := (s.peek p a.1 (b + e.1)).toNat
      { val := some (if g % 2 = 0 then old / 16 * 16 + e.2.1 else old % 16 + 16 * e.2.1), poison := e.2.2 })) false

/-- Prunes and writes a group of four converted rows (R108–R113). -/
def State.putGroup (s : State) (p : Nat) (r : Pass) (g : Nat) (rows : List PruneRow) : State :=
  let c := r.ctx
  let mode := c.pmode.toNat
  let vs := rows.map (fun x => x.vals.map (·.toNat))
  let a := operandOf c.iaddr.toNat
  let pl := if mode = 4 then s.operandBytes p a.1 (a.2 + 512 * (g / 2)) 512 else (([], false), s)
  let s := pl.2
  let plane := pl.1.1.map (fun b => if g % 2 = 0 then b.toNat % 16 else b.toNat / 16)
  let x := pruneGroup mode c.ofmt.toNat vs plane
  let fault := x.1.any (·.isNone)
  let cols := (List.range 512).zip x.1
  let failed := rows.any (·.failed)
  let elem := fun (k : Nat) => cols.map (fun (e : Nat × Option (Nat × Nat)) =>
    match e.2 with
    | none => ((0, true) : OutElem)
    | some ij =>
      let i := if k = 0 then ij.1 else ij.2
      let bad := failed || if mode = 4 then
          lget false ((rows[i]?).map (·.poison) |>.getD []) e.1 || pl.1.2 || fault
        else rows.any (fun y => lget false y.poison e.1)
      (lget 0 (lget [] vs i) e.1, bad))
  let s := (s.putOutRow p r (2 * g) (elem 0)).putOutRow p r (2 * g + 1) (elem 1)
  let s := s.raise p .out (flagIf fault fIndex ||| flagIf (fault || pl.1.2) fPoison)
  let s := s.modPav p (fun v => { v with
    overfull := if mode = 3 then satAdd v.overfull x.2.1 else v.overfull
    fallbacks := satAdd v.fallbacks x.2.2 })
  if mode = 4 then s
  else s.putIndices p r g (cols.map (fun e => match e.2 with
    | some ij => (ij.1 + 4 * ij.2, failed || rows.any (fun y => lget false y.poison e.1))
    | none => (4, true)))

/-- The output stage delivers row m of a pass with fin = 1 (R84, R87, R110, R123, R149). -/
def State.outputRow (s : State) (p : Nat) (r : Pass) (m : Nat) (a : AccRow) (tile : Option Tile) : State :=
  let c := r.ctx
  let x := s.pav p
  let on := c.rnd && decide (c.ofmt.toNat < 14)
  let draws := (List.range 512).map (fun n => c.output r.path n (drawAt on p x.epoch x.draws n) (lget .zero a.cols n))
  let s := if on then s.modPav p (fun v => { v with draws := v.draws + 512 }) else s
  let audited := (tile.map Tile.audits).getD []
  let outs := (List.range 512).zip draws
  let l : List OutElem := outs.map (fun e =>
    (if lget false audited e.1 then 0 else e.2.1, a.poison || lget false c.vpoison e.1))
  let s := s.raise p .out (orFlags (draws.map (·.2)) ||| flagIf (l.any (·.2)) fPoison)
  let s := match tile.bind (·.fc) with
    | some f => if f.dense then s.recordRow p r.octx { f with audited := f.audited.map (fun _ => false) }
          (fun j => !(readElem c.ofmt.toNat (lget (0, 0) draws j).1).isZero)
        else s.recordRow p r.octx f (fun j => !(readElem c.ofmt.toNat (lget (0, 0) draws j).1).isZero)
    | none => s
  if r.op.dst = 2 then
    s.modME p (fun e => { e with streamBuf := e.streamBuf ++
      [{ fmt := c.ofmt, vals := l.map (fun y => BitVec.ofNat 64 y.1), poison := l.any (·.2), pass := r.id, row := m }] })
  else if c.pmode = 0 then s.putOutRow p r m l
  else
    let held := (s.pav p).me.prune ++
      [{ vals := l.map (fun y => BitVec.ofNat 64 y.1), poison := l.map (·.2), pass := r.id, row := m, failed := false }]
    if held.length < 4 then s.modME p (fun e => { e with prune := held })
    else (s.modME p (fun e => { e with prune := [] })).putGroup p r (m / 4) held

/-! ### Full/empty tags of a pass (R187, R243, R244) -/

/-- The byte range of x or A that a step of a pass reads in: its row of squares, with the gap up to the next one (R242). -/
def Pass.xSpan (r : Pass) (depth m : Nat) : Nat × Nat :=
  let n := (depth + 31) / 32 * squareBytes r.op.xfmt
  ((operandOf r.op.base).2 + m / 32 * r.xpitch, if m / 32 * 32 + 32 < r.rows then max n r.xpitch else n)

/-- Tags that a row of squares of the feed's operand touches, when that operand lies in the garden. -/
def Pass.readTags (r : Pass) (depth m : Nat) : List Nat :=
  if (operandOf r.op.base).1 then [] else let x := r.xSpan depth m; tagRange x.1 x.2

/-- Tags of an MRUN's input scale plane in the garden. -/
def Pass.scaleTags (r : Pass) (stride : Nat) : List Nat :=
  let xs := operandOf r.op.side
  if r.macc || !isMx r.op.xfmt || xs.1 then [] else tagRange xs.2 (stride * r.rows)

/-- Tags that are read for the last time with row m. -/
def Pass.lastReads (r : Pass) (depth stride m : Nat) : List Nat :=
  let fromRow := (m / 32 + 1) * 32
  let later := (List.range ((r.rows + 31) / 32)).flatMap (fun k => if fromRow ≤ 32 * k then r.readTags depth (32 * k) else [])
  (if m % 32 = 31 ∨ m + 1 = r.rows then (r.readTags depth m).filter (fun t => !later.contains t) else []) ++
  (if m + 1 = r.rows then r.scaleTags stride else [])

/-- Rows of a pass's destination matrix. -/
def Pass.outRows (r : Pass) : Nat :=
  let n := if r.macc then 512 else r.rows
  if r.ctx.pmode = 0 then n else n / 2

/-- Tags of the pitch gap that follows a row of squares of the destination, taken with its last row (R242). -/
def Pass.gapTags (r : Pass) (row : Nat) : List Nat :=
  let y := operandOf r.op.yaddr
  let n := 16 * squareBytes r.ctx.ofmt.toNat
  if y.1 || decide (row % 32 ≠ 31 ∨ r.outRows ≤ row + 1) then []
  else tagRange (y.2 + row / 32 * r.ypitch + n) (r.ypitch - n)

/-- Tags of the garden that output row m writes or passes over, its index entries included. -/
def Pass.writeTags (r : Pass) (m : Nat) : List Nat :=
  let own := (r.destOf m).filterMap (fun e => if e.1 then none else some (e.2 / 64))
  let gaps := if !r.op.fin || r.op.dst == 2 then [] else r.gapTags (if r.ctx.pmode = 0 then m else 2 * (m / 4) + 1)
  (own ++ gaps).eraseDups.filter (fun t => t % 64 != 63)

/-- The engine without a pass, whose instruction has failed; what waits behind it goes on. -/
def ME.dropPass (m : ME) (id : Nat) : ME :=
  ({ m with
      running := m.running.filter (fun r => r.id != id), drain := m.drain.filter (fun d => d.1.id != id)
      prune := m.prune.filter (fun x => x.pass != id), passes := m.passes + 1 } : ME).startPasses 2

/-- A pass fails on its tags (R245, R246): program fault 0x03, and its scoreboard entries go. -/
def State.failPass (s : State) (p : Nat) (r : Pass) : State :=
  ((s.modME p (fun m => m.dropPass r.id)).release p (r.rd ++ r.wr)).programFault p 3 r.slot (if r.macc then 0x28 else 0x20)

/-- Does a step of a pass when its tags allow it; otherwise the ME waits in place, or fails at a broken tag (R246). -/
def State.withTags (s : State) (p : Nat) (r : Pass) (reads writes : List Nat) (f : State → State) : State :=
  if !(s.pav p).seq.tagged then f s
  else match (s.pav p).passTags reads writes r.filled with
    | .broken t => (s.brokenTag p t).failPass p r
    | .wait t w => s.modPav p (fun x => x.addWaiter t w s.ns)
    | .go =>
      let new := writes.filter (fun t => !r.filled.contains t)
      f (s.modPav p (fun x => (((x.fillStart new).dropWaiter .feed).dropWaiter .drain)))

/-- Tag slots that a pass has now set to filling. -/
def Pass.fill (r : Pass) (tagged : Bool) (writes : List Nat) : Pass :=
  if tagged then { r with filled := (r.filled ++ writes).eraseDups } else r

/-! ### Rows of an MRUN (R76, R77, R84, R85) -/

/-- The values of an input row and the flags of the FP32 split (R91). -/
def rowValues (o : Mop) (vals : List Nat) (scale : Nat → Nat) : List FV × Flags :=
  if o.xfmt = 14 then
    let l := vals.map (fun v => if o.part then (split32 (fp32.read v)).2 else (split32 (fp32.read v)).1)
    (l.map (·.1), orFlags (l.map (·.2)))
  else if isMx o.xfmt then
    (((List.range vals.length).zip vals).map (fun e => mxValue o.xfmt e.2 (scale (e.1 / 32))), 0)
  else (vals.map (readElem o.xfmt), 0)

/-- Reads input row m of an MRUN: its values, its poison and the flags of the split. -/
def State.inputRow (s : State) (p : Nat) (o : Mop) (t : Tile) (xpitch m : Nat) : (List FV × Bool × Flags) × State :=
  let k := rowDepth o.xfmt t.wfmt.toNat t.spa
  let x := operandOf o.base
  let r := s.squareRowRead p x.1 x.2 xpitch o.xfmt m k
  let xs := operandOf o.side
  let sc := if isMx o.xfmt then r.2.operandBytes p xs.1 (xs.2 + scaleStride t * m) (k / 32) else (([], false), r.2)
  let v := rowValues o r.1.1 (fun i => (lget 0 sc.1.1 i).toNat)
  ((v.1, r.1.2 || sc.1.2, v.2), sc.2)

/-- A row of sums that no pass has started. -/
def AccRow.zero : AccRow := { cols := List.replicate 512 .zero, poison := false, mag := .zero }

/-- Row k of sums that the manual leaves undefined, of free value number n. -/
def freeRow (path : Path) (n k : Nat) : AccRow :=
  { AccRow.zero with cols := (List.range 512).map (fun i =>
      Acc.free path (Config.freeSum n (1024 * k + 2 * i)) (Config.freeSum n (1024 * k + 2 * i + 1))) }

/-- The sums that row m starts from: zero, the array's, or free values where the array's contents are undefined (R85). -/
def State.startRow (s : State) (p : Nat) (o : Mop) (path : Path) (m : Nat) : AccRow × State :=
  if !o.acc then (AccRow.zero, s)
  else match tget? (s.pav p).me.acc m with
    | some a => (a, s)
    | none =>
      let f := s.fresh
      (freeRow path f.1 0, f.2)

/-- After the last row of a pass: its read entries go, it waits for its last verdict, and the next pass starts. -/
def State.passIssued (s : State) (p : Nat) (r : Pass) : State :=
  (s.modME p (fun m => ({ m with running := none, finishing := m.finishing ++ [{ r with rd := [] }]
                                 passes := m.passes + 1 } : ME).startPasses 2)).release p r.rd

/-- Issues row m of an MRUN through the array and the output stage. Rows of the array that no pass of the sum has written, and
the array after a pass with fin = 1, hold nothing that the manual defines (log 61). -/
def State.mrunRow (s : State) (p : Nat) (r : Pass) (t : Tile) : State :=
  let o := r.op
  let m := r.issued
  let x := s.inputRow p o t r.xpitch m
  let a := x.2.startRow p o r.path m
  let y := rowProducts r.path x.1.1 t.cols a.1.cols
  let bad := x.1.2.1 || t.poison || a.1.poison
  let row : AccRow := { cols := y.1.1, poison := bad, mag := y.2.1 }
  let s := (a.2.raise p .idx x.1.2.2).raise p .out (y.2.2 ||| flagIf bad fPoison)
  let last := decide (m + 1 = r.rows)
  let s := s.modME p (fun e => { e with
    acc := if o.fin then (if last then [] else tdel e.acc m) else tset (if m = 0 ∧ o.acc = false then [] else e.acc) m row })
  let s := if o.fin then s.outputRow p r m row (some t) else s
  let s := s.modME p (fun e => { e with inFlight := e.inFlight ++
    [{ pass := r.id, row := m, macc := false, acc := o.acc, fin := o.fin, path := r.path, mag := y.2.1, ksteps := 0
       dest := r.destOf m, last := last, cross := none
       sums := rowSums y.1.2 (ckDot x.1.1 (t.ck.map (·.1)), ckDot x.1.1 (t.ck.map (·.2))) }] })
  let r := { r with issued := m + 1 }
  if last then s.passIssued p r else s.modME p (fun e => { e with running := some r })

/-- An MRUN's next row, when its tile is loaded and the stream buffer has room (R77, R149, R232). -/
def State.mrunStep (s : State) (p : Nat) (r : Pass) : State :=
  let o := r.op
  let e := (s.pav p).me
  let shifting := match e.drain with
    | some d => d.2.1
    | none => false
  if shifting || (o.swp && !r.swapped && e.loading) || (o.dst == 2 && o.fin && decide (32 ≤ e.streamBuf.length)) then s
  else
    let swap := o.swp && !r.swapped
    let tile := if swap then e.idle else e.active
    match tile with
    | none => s
    | some t =>
      let depth := rowDepth o.xfmt t.wfmt.toNat t.spa
      let stride := scaleStride t
      let tagged := (s.pav p).seq.tagged
      let writes := if o.fin then r.writeTags r.issued else []
      s.withTags p r (r.readTags depth r.issued ++ r.scaleTags stride) writes (fun s =>
        let s := if swap then s.modME p ME.swap else s
        let s := s.mrunRow p ({ r with swapped := true }.fill tagged writes) t
        if tagged then s.modPav p (fun x => x.readEnd (r.lastReads depth stride r.issued)) else s)

/-! ### K-steps of a MACC (R82, R83) -/

/-- Adds one product to every column of an accumulator row. -/
def addStep (path : Path) (a : FV) (bs : List FV) (r : AccRow) : AccRow × Flags :=
  let ps := bs.map (fun b => a.mul b)
  ({ r with
      cols := List.zipWith (fun (c : Acc) (x : FV × Flags) => c.add path [[x.1]]) r.cols ps
      mag := ps.foldl (fun m x => m.add x.1.dy.abs) r.mag },
    orFlags (ps.map (·.2)))

/-- The PE accumulators of row i before a MACC's first K-step: cleared, or as they stand, which is 0 after a reset (R43) and free
after a drain has shifted them out. -/
def ME.peStart (m : ME) (o : Mop) (path : Path) (free i : Nat) : AccRow :=
  if !o.acc then AccRow.zero
  else if m.peGone then freeRow path free i
  else tget AccRow.zero m.peAcc i

/-- What the PEs of the checksum columns hold of row i before a MACC's first K-step; beside free sums, what those sums give
(log 101). -/
def ME.ckStart (m : ME) (o : Mop) (path : Path) (a : AccRow) (i : Nat) : FV × FV :=
  if !o.acc then (.zero, .zero)
  else if m.peGone then ckRow true (a.cols.map (Acc.finite path))
  else tget (FV.zero, FV.zero) m.peCk i

/-- Adds A[k, m]·cb1[k] and A[k, m]·cb2[k] to what the checksum columns hold of row m (R89). -/
def ckStep (a : FV) (cb t : FV × FV) : FV × FV :=
  if a.isFin then ((t.1.add (a.mul cb.1).1).1, (t.2.add (a.mul cb.2).1).1) else t

/-- The total of checksum column c1 (R89). -/
def totalOf (l : List (FV × FV)) : FV := l.foldl (fun a x => (a.add x.1).1) .zero

/-- A K-step that exact input-skip drops (R114). -/
def stepDropped (skp : Bool) (a b : List FV) : Bool :=
  let zero := fun (l : List FV) => l.all FV.isZero
  let fin := fun (l : List FV) => l.all FV.isFin
  skp && ((zero a && fin b) || (zero b && fin a))

/-- A-cycles of accumulation that a K-step takes (R82, R83, R116). -/
def stepCycles (o : Mop) (a b : List FV) : Nat :=
  if stepDropped o.skp a b then 0 else if pairClass o.xfmt o.bfmt = .w16 then 2 else 1

/-- One K-step of a MACC. -/
def State.maccRow (s : State) (p : Nat) (r : Pass) : State :=
  let o := r.op
  let k := r.issued
  let xa := operandOf o.base
  let xb := operandOf o.side
  let a := s.squareRowRead p xa.1 xa.2 r.xpitch o.xfmt k 512
  let b := a.2.squareRowRead p xb.1 xb.2 r.wpitch o.bfmt k 512
  let av := a.1.1.map (readElem o.xfmt)
  let bv := b.1.1.map (readElem o.bfmt)
  let bad := a.1.2 || b.1.2
  let e := (b.2.pav p).me
  let free := b.2.free
  let s := if k = 0 ∧ o.acc = true ∧ e.peGone = true then b.2.fresh.2 else b.2
  let cb := ckRow (r.path == .exact) bv
  let rows := (List.range 512).map (fun i =>
    let base := if k = 0 then e.peStart o r.path free i else tget AccRow.zero e.peAcc i
    let ck := if k = 0 then e.ckStart o r.path base i else tget (FV.zero, FV.zero) e.peCk i
    let x := addStep r.path (lget .zero av i) bv base
    (({ x.1 with poison := x.1.poison || bad }, x.2), ckStep (lget .zero av i) cb ck))
  let t0 := if k ≠ 0 then e.peT else if !o.acc then FV.zero
    else if e.peGone then totalOf (rows.map (·.2)) else e.peT
  let t := if k = 0 && o.acc && e.peGone then t0 else (t0.add ((ckRow (r.path == .exact) av).1.mul cb.1).1).1
  let acc := numbered (rows.map (·.1.1))
  let cks := numbered (rows.map (·.2))
  let s := s.raise p .out (orFlags (rows.map (·.1.2)) ||| flagIf bad fPoison)
  let since := e.peSince + stepCycles o av bv
  let last := decide (k + 1 = r.rows)
  let r' := { r with issued := k + 1 }
  let steps := (if k = 0 ∧ o.acc = false then 0 else e.peSteps) + 1
  let s := s.modME p (fun e => { e with
    peAcc := acc, peCk := cks, peT := t, peGone := false, peSteps := steps
    peSince := if 512 ≤ since then since - 512 else since
    shadows := (if k = 0 ∧ o.acc = false then e.shadows.map (fun h => { h with live := false }) else e.shadows) ++
      (if last || decide (512 ≤ since) then
        [{ pass := r.id, path := r.path, ksteps := steps, rows := acc, ck := cks, t := t, last := last, live := true }]
      else [])
    running := some r' })
  if last then
    if o.fin then
      (s.modME p (fun e => ({ e with running := none, drain := some ({ r' with rd := [] }, false, 0)
                                     passes := e.passes + 1 } : ME).startPasses 2)).release p r.rd
    else s.passIssued p r'
  else s

/-- A MACC's next K-step: its first waits for a running load and for an earlier drain (R82, R170). -/
def State.maccStep (s : State) (p : Nat) (r : Pass) : State :=
  let e := (s.pav p).me
  if r.issued = 0 && (e.loading || e.drain.isSome) then s
  else
    let tagged := (s.pav p).seq.tagged
    s.withTags p r (r.readTags 512 r.issued) [] (fun s =>
      let s := s.maccRow p r
      if tagged then s.modPav p (fun x => x.readEnd (r.lastReads 512 0 r.issued)) else s)

/-! ### The drain (R82) -/

/-- The cross-check over the rows of the PE accumulators (R89). -/
def crossSums (acc : Tab AccRow) (ck : Tab (FV × FV)) (t : FV) : CrossSums :=
  { total := totalOf (ck.map (·.2)), t := t, mag := acc.foldl (fun a e => a.add e.2.mag) .zero }


/-- Shifts accumulator rows into the output stage from row k on, while the destination can take them: the stream buffer has room, or
the row's tag slots are empty or its own (R82, R243). n bounds the rows. -/
def State.drainRows (s : State) (p : Nat) (r : Pass) (k : Nat) : Nat → State
  | 0 => s
  | n + 1 =>
    let e := (s.pav p).me
    if 512 ≤ k then
      s.modME p (fun e => { e with
        drain := none, finishing := e.finishing ++ [r], peAcc := [], peCk := [], peT := .zero, peGone := true, peSteps := 0 })
    else
      let tagged := (s.pav p).seq.tagged
      let writes := r.writeTags k
      let free := !tagged || (s.pav p).passTags [] writes r.filled == .go
      let parked := s.modME p (fun e => { e with drain := some (r, true, k) })
      if r.op.dst == 2 && decide (32 ≤ e.streamBuf.length) then parked
      else if !free then parked.withTags p r [] writes (fun s => s)
      else
      let row := tget AccRow.zero e.peAcc k
      let s := s.withTags p r [] writes (fun s => s)
      let r := r.fill tagged writes
      let s := s.outputRow p r k row none
      let s := s.modME p (fun e => { e with inFlight := e.inFlight ++
        [{ pass := r.id, row := k, macc := true, acc := true, fin := true, path := r.path, mag := row.mag, ksteps := e.peSteps
           dest := r.destOf k, last := decide (k = 511)
           sums := rowSums (row.cols.map (Acc.finite r.path)) (tget (FV.zero, FV.zero) e.peCk k)
           cross := if k = 511 then some (crossSums e.peAcc e.peCk e.peT) else none }] })
      s.drainRows p r (k + 1) n

/-- R232: the ME issues its next row or K-step, or a drain that waited for the stream buffer or for tags goes on. -/
def execRowIssue (p : PavIx) (s : State) : Res :=
  let x := s.pav p.val
  match x.me.drain, x.me.running with
  | some (r, true, k), _ => onlyIf (s.plot (plotOf p.val)).e.on s (s.drainRows p.val r k 513)
  | _, some r => onlyIf (s.plot (plotOf p.val)).e.on s
      (if r.macc then s.maccStep p.val r else s.mrunStep p.val r)
  | _, none => .next s

/-- R82, R83, R170: a MACC with fin = 1 drains after its last K-step, once no shadow shift runs; MRUN rows may pass before
it, by whole groups of four where they are pruned. -/
def execDrainStart (p : PavIx) (s : State) : Res :=
  let x := s.pav p.val
  match x.me.drain with
  | some (r, false, k) => onlyIf ((s.plot (plotOf p.val)).e.on && x.me.shadows.isEmpty && x.me.prune.isEmpty) s (s.drainRows p.val r k 513)
  | _ => .next s

end Sys2Proof.Machine
end

