-- ==== Sys2Proof/Machine/MatrixCheck.lean ====
section
/-! DEFINITION. Verdicts of the matrix engine: rows, shadows, faults and their places, retired lines, and forecast slots
(R83, R86, R88–R90, R94, R113, R126, R193, R423). -/

namespace Sys2Proof.Machine

/-! ### Tolerances and places (R88, R90) -/

/-- |d| stays within the tolerance of *Checksum tolerances* for a row sum S: 2^-20·S, or 2^-29·(2k + 64)·S after k K-steps of
the output-stationary dataflow; nothing on the exact path. -/
def withinTol (path : Path) (os : Bool) (k : Nat) (d S : Dy) : Bool :=
  match path with
  | .exact => d.m == 0
  | _ =>
    let t : Dy := if os then { m := S.m * (2 * k + 64), e := S.e - 29 } else { S with e := S.e - 20 }
    d.abs.le t

/-- The logical column n with d2 = (n + 1)·d1. -/
def placeColumn (d1 d2 : Dy) : Option Nat :=
  if d1.m = 0 then none else (List.range 512).find? (fun n => (d1.mulInt (n + 1)).le d2 && d2.le (d1.mulInt (n + 1)))

/-- What a verdict finds: nothing, a fault in the array with its place, or a fault of the output stage by its detail. -/
inductive Finding where
  | clean
  | column (n : Nat)
  | stage (detail : Nat)
  deriving DecidableEq, Repr

/-- The code of an unplaced fault (R441). -/
def unplaced : Nat := 0x3FF

/-- What a comparison finds of two discrepancies (R90). A failure of the second pair alone is placed in c2 and one of the first
alone in c1, whatever d2/d1 − 1 is (DESIGN CHOICE, log 101). -/
def place (path : Path) (os : Bool) (k : Nat) (S d1 d2 : Dy) : Finding :=
  let a := withinTol path os k d1 S
  let b := withinTol path os k d2 S
  if a && b then .clean
  else if b then .column 512
  else if a then .column 513
  else .column ((placeColumn d1 d2).getD unplaced)

/-- The discrepancies s1 − t1 and s2 − t2 with what a fault has changed; none where a sum is not finite (log 101). -/
def RowSums.diffs (r : RowSums) (e1 e2 : Dy) : Option (Dy × Dy) :=
  if r.s1.isFin && r.s2.isFin && r.t1.isFin && r.t2.isFin then
    some ((((r.s1.add r.t1.neg).1.dy).add e1), (((r.s2.add r.t2.neg).1.dy).add e2))
  else none

/-- R88, R90: what the comparison of a row finds, a fault having done this. -/
def judge (path : Path) (os : Bool) (k : Nat) (S : Dy) (r : RowSums) (o : VerdictObs) : Finding :=
  let compare := fun e1 e2 => match r.diffs e1 e2 with
    | some d => place path os k S d.1 d.2
    | none => .clean
  match o with
  | .checksum e1 e2 => compare e1 e2
  | .outputStage => .stage 0
  | .pruning => .stage 1
  | .accumulator => .stage 2
  | _ => compare .zero .zero

/-- The cross-check of R89, to the tolerance of the total of the rows' sums (log 101). -/
def judgeCross (path : Path) (k : Nat) (x : CrossSums) (e : Dy) : Finding :=
  if x.total.isFin && x.t.isFin && !withinTol path true k (((x.total.add x.t.neg).1.dy).add e) x.mag then .column 512 else .clean

/-- What a fault adds to the total of the cross-check. -/
def crossError : VerdictObs → Dy
  | .cross e => e
  | _ => .zero

/-- What the verdict on a row in the output stage finds: the row's own comparison, or the cross-check that it completes. -/
def RowFlight.finding (f : RowFlight) (o : VerdictObs) : Finding :=
  match judge f.path f.macc f.ksteps f.mag f.sums o, f.cross with
  | .clean, some x => judgeCross f.path f.ksteps x (crossError o)
  | y, _ => y

/-! ### Faults (R90, R94) -/

/-- The physical line that a logical one is mapped to (R60). -/
def physLine (repair : List (BitVec 16)) (column : Bool) (n : Nat) : Nat :=
  lget 0 ((List.range (if column then 530 else 528)).filter (fun i => !repair.contains (repairEntry column i))) n

/-- Notes a fault placed in a column: the second one of the same physical column within 2^20 tile passes retires it (R90). -/
def Pav.noteColumn (x : Pav) (n : Nat) : Pav :=
  if n = unplaced then x
  else
    let line := physLine x.repair true n
    let again := match tget? x.me.colFault line with
      | some k => decide (x.me.passes ≤ 2 ^ 20 + k)
      | none => false
    { x with me := { x.me with
      colFault := tset x.me.colFault line x.me.passes
      retiring := if again && !x.me.retiring.contains (true, line) then x.me.retiring ++ [(true, line)] else x.me.retiring } }

/-- Sets the poison bit of a row of a local space. -/
def State.poisonLocal (s : State) (p : Nat) (e : Bool × Nat) : State :=
  if e.1 then s.modPav p (fun x => { x with stage := x.stage.poisonRow e.2 })
  else
    let k := s.gardenRow p (64 * e.2)
    s.modPav p (fun x => { x with garden := x.garden.poisonRow k })

/-- The rows behind a row of the accumulator array that carry its sum on, of those that follow it into the output stage, and
whether the array still holds it (R84). -/
def carriers (row : Nat) : List RowFlight → List RowFlight × Bool
  | [] => ([], true)
  | g :: t =>
    if g.macc || g.row != row then carriers row t
    else if !g.acc then ([], false)
    else if g.fin then ([g], false)
    else let c := carriers row t; (g :: c.1, c.2)

/-- What the ME still holds of a failed row: its rows in the pruning unit, whose whole group they fail (R113), and in the stream
buffer. -/
def ME.failRow (m : ME) (pass row : Nat) : ME :=
  { m with
    prune := m.prune.map (fun x => if x.pass = pass ∧ x.row = row then { x with failed := true } else x)
    streamBuf := m.streamBuf.map (fun x => if x.pass = pass ∧ x.row = row then { x with poison := true } else x) }

/-- The rows that VE instructions have written from a row of the stream (R86, R90). -/
def Pav.fedRows (x : Pav) (pass row : Nat) : List (Bool × Nat) :=
  (x.me.fed.filter (fun e => e.1 == pass && e.2.1 == row)).flatMap (fun e =>
    (x.seq.sb.filter (fun b => b.id == e.2.2)).flatMap (fun b =>
      (List.range (b.limit - b.base)).map (fun i => (b.stage, b.base + i))))

/-- Poisons the destination of one row in the output stage (R90, R113). -/
def State.poisonFlight (s : State) (p : Nat) (f : RowFlight) : State :=
  let s := s.each (f.dest ++ (s.pav p).fedRows f.pass f.row) (fun s e => s.poisonLocal p e)
  s.modME p (fun m => m.failRow f.pass f.row)

/-- Poisons what a failed row has given: its destination, or the sum that it left in the accumulator array and the rows that have
been formed from that since. -/
def State.poisonRow (s : State) (p : Nat) (f : RowFlight) (rest : List RowFlight) : State :=
  let s := s.poisonFlight p f
  if f.fin || f.macc then s
  else
    let c := carriers f.row rest
    let s := s.each c.1 (fun s g => s.poisonFlight p g)
    if c.2 then s.modME p (fun m => { m with acc := m.acc.map (fun (e : Nat × AccRow) =>
        if e.1 = f.row then (e.1, { e.2 with poison := true }) else e) })
    else s

/-- A fault of the ME, whose destination begins at row addr: a check fault is raised, and a placed column is noted (R90, R423). -/
def State.meFault (s : State) (p : Nat) (os : Bool) (addr : Nat) (f : Finding) : State :=
  match f with
  | .clean => s
  | .column n =>
    (s.modPav p (fun x => x.noteColumn n)).checkFault p
      { s.pavRec p 0x01 1 2 (n + if os then 1024 else 0) with address := BitVec.ofNat 64 addr }
  | .stage d => s.checkFault p { s.pavRec p 0x03 1 2 d with address := BitVec.ofNat 64 addr }

/-! ### Verdicts (R86, R88, R89) -/

/-- The last verdict of a pass is in: its write entries go, its tag slots become full, and what waited for it may run (R193,
R203, R243). -/
def State.passDone (s : State) (p : Nat) (r : Pass) : State :=
  let s := s.modME p (fun m => { m with
    finishing := m.finishing.filter (fun x => x.id != r.id), fed := m.fed.filter (fun e => e.1 != r.id) })
  ((s.modPav p (fun x => x.fillEnd r.filled)).release p r.wr).settlePosts p

/-- R76, R88: the oldest row in the output stage meets its verdict. -/
def execRowVerdict (p : PavIx) (o : VerdictObs) (s : State) : Res :=
  match (s.pav p.val).me.inFlight with
  | [] => .next s
  | f :: rest =>
    let s := s.modME p.val (fun m => { m with inFlight := rest })
    let s := match f.finding o with
      | .clean => s
      | x => (s.poisonRow p.val f rest).meFault p.val f.macc ((f.dest.head?.map (·.2)).getD 0) x
    .next (if f.last then
        match (s.pav p.val).me.finishing.find? (fun r => r.id == f.pass) with
        | some r => s.passDone p.val r
        | none => s
      else s)

/-- What the comparison of row i of a check shadow finds. -/
def Shadow.finding (h : Shadow) (o : VerdictObs) (i : Nat) : Finding :=
  let a := tget AccRow.zero h.rows i
  judge h.path true h.ksteps a.mag (rowSums (a.cols.map (Acc.finite h.path)) (tget (FV.zero, FV.zero) h.ck i)) o

/-- The findings of a check shadow by row, the cross-check of R89 in the place of row 512. `os` lists the rows that a fault has
struck. -/
def Shadow.findings (h : Shadow) (os : List (Fin 512 × VerdictObs)) : List (Nat × Finding) :=
  let at_ := fun i => ((os.find? (fun e => e.1.val == i)).map (·.2)).getD VerdictObs.pass
  let rows := (List.range 512).map (fun i => (i, h.finding (at_ i) i))
  let cross := if rows.all (fun e => e.2 == Finding.clean) then
      judgeCross h.path h.ksteps (crossSums h.rows h.ck h.t) (os.foldl (fun a e => a.add (crossError e.2)) .zero) else .clean
  (rows ++ [(512, cross)]).filter (fun e => e.2 != Finding.clean)

/-- R83: the oldest check shadow has shifted out and been compared row by row. A failed row poisons what the PEs go on from. The
shadow of its last K-step finishes a MACC that leaves its sums in the PEs. -/
def execShadowShift (p : PavIx) (os : List (Fin 512 × VerdictObs)) (s : State) : Res :=
  match (s.pav p.val).me.shadows with
  | [] => .next s
  | h :: rest =>
    let s := s.modME p.val (fun m => { m with shadows := rest })
    let bad := h.findings os
    let s := s.each bad (fun s e => (s.modME p.val (fun m => { m with peAcc := m.peAcc.map (fun (a : Nat × AccRow) =>
        if h.live = true ∧ (a.1 = e.1 ∨ e.1 = 512) then (a.1, { a.2 with poison := true }) else a) })).meFault p.val true 0 e.2)
    .next (if h.last then
        match (s.pav p.val).me.finishing.find? (fun r => r.id == h.pass && !r.op.fin) with
        | some r => s.passDone p.val r
        | none => s
      else s)

/-! ### Forecast slots (R126, R127) -/

/-- The misses among the first w audited outputs exceed θ·W (R126). -/
def State.tooMany (s : State) (p : Nat) (c : FcSlot) : Bool :=
  let w := 2 ^ (s.limits p).window.toNat
  decide (w < (c.misses.filter (fun k => decide (k < w))).length * 2 ^ (s.limits p).threshold.toNat)

/-- The slot in its next window of w audited outputs: outputs beyond the old one, with their misses, belong to the new. -/
def FcSlot.nextWindow (c : FcSlot) (w : Nat) : FcSlot :=
  { c with audited := c.audited - w, misses := (c.misses.filter (fun k => decide (w ≤ k))).map (· - w) }

/-- R126: misses beyond θ·W in a window disable the slot, with a record and an event. -/
def execForecastSlotDisabled (p : PavIx) (slot : Fin 64) (s : State) : Res :=
  let c := tget FcSlot.cleared (s.pav p.val).forecast slot.val
  if s.tooMany p.val c && !c.disabled then
    let s := s.modPav p.val (fun x => { x with forecast := tmod .cleared x.forecast slot.val (fun c => { c with disabled := true }) })
    let s := s.record (s.pavRec p.val 0x15 0 2 slot.val)
    .next (s.event 0x0002 (64 * p.val + slot.val) (0x2200 + p.val) 8 ((s.allotOfPav p.val).getD 0x1F))
  else .next s

/-- R126: a window of W audited outputs is full, and the next one begins. -/
def execForecastWindowEnd (p : PavIx) (slot : Fin 64) (s : State) : Res :=
  let c := tget FcSlot.cleared (s.pav p.val).forecast slot.val
  let w := 2 ^ (s.limits p.val).window.toNat
  onlyIf (decide (w ≤ c.audited) && (c.disabled || !s.tooMany p.val c)) s
    (s.modPav p.val (fun x => { x with forecast := tmod .cleared x.forecast slot.val (fun c => c.nextWindow w) }))

end Sys2Proof.Machine
end

