-- ==== Sys2Proof/Machine/VecForm.lean ====
section
/-! DEFINITION. The form of vector engine instructions: fields, formats, operands, ranges and refusals (R134–R141, R147–R151). -/

namespace Sys2Proof.Machine

/-- The fields of a VE instruction (R137), addresses in bytes. -/
structure Vop where
  op : Nat
  count : Nat
  sfmt : Nat
  dfmt : Nat
  rnd : Bool
  ms : Bool
  iin : Bool
  ctl : Nat
  pr : Nat
  pm : Bool
  a : Nat
  b : Nat
  d : Nat
  reserved : Nat
  imm : Nat
  deriving DecidableEq, Repr

def vopOf (op w : Nat) : Vop :=
  { op := op, count := if bits w 119 107 = 0 then 8192 else bits w 119 107, sfmt := bits w 106 103, dfmt := bits w 102 99
    rnd := bit w 98, ms := bit w 97, iin := bit w 96, ctl := bits w 95 92, pr := bits w 91 89, pm := bit w 88
    a := 64 * bits w 87 71, b := 64 * bits w 70 54, d := 64 * bits w 53 37, reserved := bits w 36 32, imm := bits w 31 0 }

/-- The groups of *VE rates and latencies*, from 0. -/
def veGroup (op : Nat) : Nat :=
  if op = 0x5B then 0 else if op < 0x58 then 0 else if op < 0x60 then 1 else if op < 0x68 then 2 else if op < 0x70 then 3
  else if op < 0x78 then 4 else 0

def isArith (c : Nat) : Bool := decide (12 ≤ c ∧ c ≤ 14)
def isFpBf (c : Nat) : Bool := c == 14 || c == 12
/-- Non-MX formats that VCVT takes. -/
def isPlain (c : Nat) : Bool := decide (c ≤ 5 ∨ 12 ≤ c)

/-- Opcodes on INT32 elements with both format fields 0. -/
def isIntOp (op : Nat) : Bool := [0x4C, 0x4D, 0x4E, 0x4F, 0x52].contains op

/-- The formats that *VE opcodes* allows, with unused and INT32 fields 0 (R141, R151). -/
def Vop.formatsOk (v : Vop) : Bool :=
  let s := v.sfmt
  let d := v.dfmt
  if v.op ≤ 0x48 || [0x60, 0x61, 0x62, 0x63, 0x64, 0x65].contains v.op then isArith s && isArith d
  else if v.op = 0x49 ∨ v.op = 0x4A then s == d && decide (s ≤ 4 ∨ 12 ≤ s)
  else if v.op = 0x4B then s == 0 && isArith d
  else if v.op = 0x50 ∨ v.op = 0x51 then isArith s && d == 0
  else if v.op = 0x53 then s == d
  else if v.op = 0x58 then isPlain s && isPlain d
  else if v.op = 0x59 then isFpBf s && isMx d
  else if v.op = 0x5A then isMx s && isFpBf d
  else if v.op = 0x5B then s == 14 && d == 0
  else if v.op = 0x5C then s == 0 && isFpBf d
  else if v.op = 0x5D then isFpBf s && d == 0
  else if v.op = 0x68 then isFpBf s &&
    (if v.ctl = 0 then isFpBf d || d == 15 else if v.ctl ≤ 2 then isFpBf d else d == 0)
  else if v.op = 0x69 then isFpBf s && isFpBf d
  else if v.op = 0x70 then s == d && [8, 16, 32].contains (elemBits s)
  else s == 0 && d == 0

/-- Largest ctl value of an opcode (R151). -/
def ctlMax (op : Nat) : Nat :=
  if op = 0x45 ∨ op = 0x4C ∨ op = 0x5D ∨ op = 0x78 then 1
  else if op = 0x4E then 3 else if op = 0x4F ∨ op = 0x69 then 2
  else if op = 0x50 ∨ op = 0x51 ∨ op = 0x52 then 15
  else if op = 0x68 then 4 else 0

def readsA (op : Nat) : Bool := !([0x4B, 0x54, 0x56, 0x78].contains op)
def readsB (op : Nat) : Bool :=
  [0x40, 0x41, 0x42, 0x43, 0x44, 0x47, 0x48, 0x4C, 0x4D, 0x4E, 0x50, 0x52, 0x53, 0x5A, 0x70].contains op
def readsImm (op : Nat) : Bool := [0x44, 0x45, 0x46, 0x4B, 0x4F, 0x51, 0x58, 0x62, 0x68, 0x69, 0x70].contains op

/-- A compare, which writes a predicate. -/
def isCompare (op : Nat) : Bool := op == 0x50 || op == 0x51 || op == 0x52

/-- Width of an element of source a. -/
def Vop.aBits (v : Vop) : Nat := if isIntOp v.op || v.op == 0x5C || v.op == 0x70 then 32 else elemBits v.sfmt

/-- Bytes of source a: whole predicate bytes for VPLD. -/
def Vop.aLen (v : Vop) : Nat := if v.op = 0x55 then (v.count + 7) / 8 else packedLen v.aBits v.count

/-- Width and number of the elements of source b: scales of VUPMX, the table of VGATH. -/
def Vop.bShape (v : Vop) (imm : Nat) : Nat × Nat :=
  if v.op = 0x70 then (elemBits v.sfmt, imm)
  else if v.op = 0x5A then (8, v.count / 32)
  else if isIntOp v.op then (32, v.count)
  else (elemBits v.sfmt, v.count)

def Vop.bLen (v : Vop) (imm : Nat) : Nat := packedLen (v.bShape imm).1 (v.bShape imm).2

/-- The destinations: address, element width and elements. -/
def Vop.dests (v : Vop) (imm : Nat) : List (Nat × Nat × Nat) :=
  if isCompare v.op || v.op == 0x55 then []
  else if v.op = 0x5B then [(v.d, 16, v.count), (v.b, 16, v.count)]
  else if v.op = 0x59 then [(v.d, elemBits v.dfmt, v.count), (v.b, 8, v.count / 32)]
  else if v.op = 0x68 then [(v.d, if v.ctl < 3 then elemBits v.dfmt else 32, v.count / imm)]
  else if v.op = 0x54 then [(v.d, 8, (v.count + 7) / 8)]
  else if v.op = 0x56 then [(v.d, 32, 1)]
  else if v.op = 0x78 then [(v.d, 8, 64)]
  else [(v.d, if isIntOp v.op || v.op == 0x5D then 32 else elemBits v.dfmt, v.count)]

/-- Source spans: address and bytes. -/
def Vop.reads (v : Vop) (imm : Nat) : List (Nat × Nat) :=
  (if readsA v.op && !v.ms then [(v.a, v.aLen)] else []) ++ (if readsB v.op then [(v.b, v.bLen imm)] else []) ++
    (if v.iin then [(bits v.imm 22 0, 4)] else [])

/-- Destination spans; VFMA's destination also covers what it reads there. -/
def Vop.writes (v : Vop) (imm : Nat) : List (Nat × Nat) :=
  (v.dests imm).map (fun e => (e.1, max (packedLen e.2.1 e.2.2) (if v.op = 0x43 then packedLen (elemBits v.sfmt) v.count else 0)))

def Vop.rngs (v : Vop) (imm : Nat) : List Rng :=
  (v.reads imm).map (fun e => Rng.of true e.1 e.2 true false) ++
    (v.writes imm).map (fun e => Rng.of true e.1 e.2 (v.op == 0x43) true)

/-- Two ranges of rows meet without being equal (R148). -/
def Rng.meets (r q : Rng) : Bool :=
  (r.base != q.base || r.limit != q.limit) && decide (r.base < q.limit ∧ q.base < r.limit)

/-- A destination overlaps a source other than exactly, or a VGATH destination its table (R148). -/
def Vop.overlaps (v : Vop) (imm : Nat) : Bool :=
  let rs := (v.reads imm).map (fun e => Rng.of true e.1 e.2 true false)
  let ws := (v.writes imm).map (fun e => Rng.of true e.1 e.2 false true)
  ws.any (fun w => rs.any w.meets) ||
    (v.op == 0x70 && ws.any (fun w =>
      let t := Rng.of true v.b (v.bLen imm) true false
      decide (w.base < t.limit ∧ t.base < w.limit)))

/-- The checks on the immediate's value (R151); a value not yet known passes. -/
def Vop.immOk (v : Vop) (imm : Nat) : Bool :=
  if v.op = 0x68 ∨ v.op = 0x69 then decide (0 < imm ∧ imm ≤ 8192) && v.count % imm == 0
  else if v.op = 0x70 then decide (0 < imm)
  else if v.op = 0x4F then decide (imm ≤ 31)
  else true

/-- Refusals that the instruction's own bits decide (R137, R140, R149, R151). -/
def Vop.refuseForm (v : Vop) : Bool :=
  v.reserved != 0 || !v.formatsOk || decide (ctlMax v.op < v.ctl) ||
  (v.pm && [0x54, 0x55, 0x56, 0x78].contains v.op) ||
  (v.iin && (!readsImm v.op || bits v.imm 31 23 != 0 || v.imm % 4 != 0)) ||
  (v.ms && (!readsA v.op || !isFpBf v.sfmt || v.count % 512 != 0)) ||
  ((v.op == 0x59 || v.op == 0x5A) && v.count % 32 != 0)

/-- A stand-in for an indirect immediate that an earlier instruction has still to write. -/
def Vop.standIn (v : Vop) : Nat := if v.op = 0x68 ∨ v.op = 0x69 then v.count else if v.op = 0x70 then 1 else 0

/-- The immediate as it reads now: none while a write to it is under a scoreboard entry (R140). -/
def State.immValue (s : State) (p : Nat) (v : Vop) : Option Nat :=
  if v.iin then
    let a := bits v.imm 22 0
    if (s.pav p).seq.sb.any (Rng.of true a 4 true false).clash then none
    else some (leNat (memRead (s.pav p).stage.bytes a 4))
  else some v.imm

/-- Why a VE instruction is refused. What depends on an indirect immediate is checked on the value read, once that can be read
(R140). -/
def State.refuseVe (s : State) (p : Nat) (v : Vop) : Option Nat :=
  if v.refuseForm then some 1
  else match s.immValue p v with
  | none => none
  | some n =>
    if !v.immOk n then some 1
    else if v.overlaps n then some 1
    else if v.ms && (((s.pav p).me.streamBuf.take (v.count / 512)).any (fun r => r.fmt.toNat != v.sfmt)) then some 1
    else none

/-- The VE can accept it: the stream's rows have come (log 59), and for VFLAGS every earlier VE instruction and tile pass
has its last verdict (R146). -/
def State.veReady (s : State) (p : Nat) (v : Vop) : Bool :=
  let m := (s.pav p).me
  (!v.ms || decide (v.count / 512 ≤ m.streamBuf.length) || v.refuseForm) &&
  (v.op != 0x78 || (m.running.isNone && m.waiting.isNone && m.finishing.isEmpty && m.drain.isNone && m.inFlight.isEmpty))

/-! ### Operands -/

/-- The elements of an operand with their poison. -/
abbrev VElems := List (Nat × Bool)

/-- Whether each element of w bits lies in a poisoned row of a row-aligned operand. -/
def elemPoison (w n : Nat) (rows : List Bool) : List Bool :=
  (List.range n).map (fun i =>
    (List.range ((w * i + w - 1) / 512 - w * i / 512 + 1)).any (fun k => lget false rows (w * i / 512 + k)))

/-- Rows of an operand that hold a part of a used element. -/
def usedRows (w : Nat) (used : List Bool) : List Nat :=
  (((List.range used.length).zip used).flatMap (fun e =>
    if e.2 then (List.range ((w * e.1 + w - 1) / 512 - w * e.1 / 512 + 1)).map (fun k => w * e.1 / 512 + k) else [])).eraseDups

/-- Reads an operand of n elements of w bits. `used` tells which of them arithmetic takes, whose poison is consumed (R437,
R438); an operation that only moves values consumes nothing (log 65). -/
def State.veOperand (s : State) (p a w n : Nat) (used : List Bool) : VElems × State :=
  let rows := (packedLen w n + 63) / 64
  let r := s.rowsRead p true (a / 64) rows
  let need := usedRows w used
  let bad := ((List.range rows).zip r.1).filterMap (fun e => if e.2.2 && need.contains e.1 then some (a / 64 + e.1) else none)
  let r := match bad with
    | [] => r
    | _ =>
      let c := r.2.consumeList p true 1 bad
      if c.1 then c.2.rowsRead p true (a / 64) rows else (r.1, c.2)
  ((unpackElems w n (RowBuf.bytes r.1)).zip (elemPoison w n (r.1.map (·.2))), r.2)

/-- Takes the rows of the ME output stream that an instruction with ms = 1 consumes (R149). -/
def State.takeStream (s : State) (p n : Nat) : VElems × State :=
  let rows := (s.pav p).me.streamBuf.take n
  (rows.flatMap (fun r => r.vals.map (fun x => (x.toNat, r.poison))), s.modME p (fun m => { m with streamBuf := m.streamBuf.drop n }))

/-- The destination elements that pm leaves to be computed (R138). -/
def Vop.active (v : Vop) (pred j : Nat) : Bool := !v.pm || bit pred j

/-- What an instruction works on: its sources, the value of its immediate and whether that is poisoned, and its
predicate. -/
structure VIn where
  a : VElems
  b : VElems
  d : VElems
  imm : Nat
  immBad : Bool
  pred : Nat
  predBad : Bool
  deriving DecidableEq, Repr

def VIn.aVal (x : VIn) (i : Nat) : Nat := (lget (0, false) x.a i).1
def VIn.bVal (x : VIn) (i : Nat) : Nat := (lget (0, false) x.b i).1
def VIn.dVal (x : VIn) (i : Nat) : Nat := (lget (0, false) x.d i).1
def VIn.aBad (x : VIn) (i : Nat) : Bool := (lget (0, false) x.a i).2
def VIn.bBad (x : VIn) (i : Nat) : Bool := (lget (0, false) x.b i).2
def VIn.dBad (x : VIn) (i : Nat) : Bool := (lget (0, false) x.d i).2

/-- A poisoned predicate is used (R437, R438): it has no second source, so the section replays once when the pavilion has
written anything since the older verified mark, and otherwise the job stops. -/
def State.consumePred (s : State) (p pr : Nat) : State :=
  match s.allotOfPav p with
  | none => s
  | some a =>
    let key := (4 * p + 3, pr)
    if s.failFast a then s.recover a .poison
    else if !(s.pav p).seq.taint.isEmpty && !((s.allot a).tried.contains key) then
      (s.modAllot a (fun x => { x with tried := key :: x.tried })).freeze a .poison
    else
      let r : ErrRec := { s.pavRec p 0x0E 2 3 3 with address := BitVec.ofNat 64 pr }
      (s.record r).stopJob a stPoisoned (s.recordNumber r)

/-- An instruction that uses its predicate's bits for its destination (R138, R154). -/
def Vop.usesPred (v : Vop) : Bool := v.pm || v.op == 0x53 || v.op == 0x54 || v.op == 0x56

/-- Reads what an instruction works on; `usedA` and `usedB` tell, from its predicate and immediate, which source elements
arithmetic takes. -/
def State.veRead (s : State) (p : Nat) (v : Vop) (usedA usedB : Nat → Nat → List Bool) : VIn × State :=
  let pred := (lget 0 (s.pav p).ve.preds v.pr).toNat
  let predBad := lget false (s.pav p).ve.ppoison v.pr
  let s := if predBad && v.usesPred then s.consumePred p v.pr else s
  let i := if v.iin then
      let r := if isCompare v.op || v.op == 0x4B then s.localGet p true (bits v.imm 22 0) 4
        else s.operandBytes p true (bits v.imm 22 0) 4
      ((leNat r.1.1, r.1.2), r.2)
    else ((v.imm, false), s)
  let imm := i.1.1
  let a := if v.ms then i.2.takeStream p (v.count / 512)
    else if readsA v.op then
      (if v.op = 0x55 then i.2.veOperand p v.a 8 ((v.count + 7) / 8) []
       else i.2.veOperand p v.a v.aBits v.count (usedA pred imm))
    else ([], i.2)
  let b := if readsB v.op then
      let w := v.bShape imm
      a.2.veOperand p v.b w.1 w.2 (usedB pred imm)
    else ([], a.2)
  let d := if v.op = 0x43 then b.2.veOperand p v.d (elemBits v.sfmt) v.count (usedA pred imm) else ([], b.2)
  ({ a := a.1, b := b.1, d := d.1, imm := imm, immBad := i.1.2, pred := pred, predBad := predBad }, d.2)

/-! ### Results -/

/-- One computed element: bits, flags and poison; none where the element is masked. -/
abbrev VRes := Option (Nat × Flags × Bool)

def putOf (r : VRes) : Put := { val := r.map (·.1), poison := (r.map (·.2.2)).getD false }

/-- The flags of computed elements, POISON among them. -/
def flagsOf (l : List VRes) : Flags := orFlags (l.map (fun r => match r with
  | some e => e.2.1 ||| flagIf e.2.2 fPoison
  | none => 0))

/-- Elements of a beat (R135). -/
def Vop.beat (v : Vop) : Nat := if (veGroup v.op = 0 ∨ veGroup v.op = 2) ∧ v.sfmt = 12 ∧ v.dfmt = 12 then 1024 else 512

/-- Destination bytes that beat k writes. -/
def Vop.beatSpans (v : Vop) (imm k : Nat) : List (Nat × Nat) :=
  (v.dests imm).map (fun e =>
    let lo := if v.op = 0x68 then k * v.beat / imm else k * v.beat * e.2.2 / v.count
    let hi := if v.op = 0x68 then (k + 1) * v.beat / imm else min e.2.2 ((k + 1) * v.beat * e.2.2 / v.count)
    (e.1 + e.2.1 * lo / 8, (e.2.1 * (hi - lo) + 7) / 8))

/-- A failed check of a beat (R155, R425): its destination rows, or its predicate, are poisoned and a check fault is
raised. -/
def State.veCheck (s : State) (p : Nat) (v : Vop) (imm : Nat) (c : Chk) : State :=
  match c with
  | none => s
  | some k =>
    if v.count ≤ k * v.beat then s
    else
      let spans := v.beatSpans imm k
      let s := s.each spans (fun s e => s.each (List.range ((e.1 + e.2 + 63) / 64 - e.1 / 64)) (fun s j =>
        s.poisonLocal p (true, e.1 / 64 + j)))
      let s := if isCompare v.op || v.op == 0x55 then
        s.modVE p (fun x => { x with ppoison := x.ppoison.set v.pr true }) else s
      s.checkFault p { s.pavRec p 0x02 1 3 (veGroup v.op) with
        opcode := BitVec.ofNat 8 v.op, address := BitVec.ofNat 64 (v.d / 64) }

/-- Writes the destinations of an instruction (R147, R154). -/
def State.vePut (s : State) (p i : Nat) (v : Vop) (x : VIn) (outs : List (List VRes)) : State :=
  let w : Writer := { unit := 2, stream := i, iv := ((s.pav p).seq.stream i).interval }
  let force := x.predBad && v.usesPred
  let s := s.each ((v.dests x.imm).zip outs) (fun s e =>
    s.putElems p true w e.1.2.1 e.1.1 (e.2.map putOf) force)
  s.veFlags p (orFlags (outs.map flagsOf) ||| flagIf force fPoison)

/-- The pass that feeds the stream rows an instruction has taken, when its last verdict is still due (R86). -/
def ME.holdFor (m : ME) (pass : Nat) (ids : List Nat) : Option ME :=
  let add := fun (r : Pass) => if r.id = pass then { r with wr := r.wr ++ ids } else r
  if (m.running.toList ++ m.finishing ++ (m.drain.map (·.1)).toList).any (fun r => r.id == pass) then
    some { m with running := m.running.map add, finishing := m.finishing.map add, drain := m.drain.map (fun d => (add d.1, d.2)) }
  else none

/-- The entries of a VE instruction go when it has written, or with the last verdict of the pass that fed it (R86, R203). -/
def State.veRelease (s : State) (p : Nat) (v : Vop) (pass : Option Nat) (imm : Nat) (ids : List Nat) : State :=
  let rs := v.rngs imm
  match pass with
  | some k => match (s.pav p).me.holdFor k (writeIds false 2 rs ids) with
    | some m => (s.modME p (fun _ => m)).release p (readIds false 2 rs ids)
    | none => s.release p ids
  | none => s.release p ids

/-- The immediate that decides the ranges of a VE instruction. -/
def State.veImm (s : State) (p : Nat) (v : Vop) : Nat := (s.immValue p v).getD v.standIn

/-- How a VE instruction issues. -/
def State.veIssue (s : State) (p : Nat) (v : Vop) : Issue :=
  { unit := 2, cad := .free, ready := s.veReady p v, refuse := s.refuseVe p v, rngs := v.rngs (s.veImm p v) }

/-- The pass that feeds the last row a VE instruction takes from the stream buffer. -/
def State.vePass (s : State) (p : Nat) (v : Vop) : Option Nat :=
  if v.ms then (((s.pav p).me.streamBuf.take (v.count / 512)).getLast?).map (·.pass) else none

/-- The rows that a VE instruction takes from the stream buffer: pass and row. -/
def State.veRows (s : State) (p : Nat) (v : Vop) : List (Nat × Nat) :=
  if v.ms then ((s.pav p).me.streamBuf.take (v.count / 512)).map (fun r => (r.pass, r.row)) else []

/-- The rows still without a verdict that a VE instruction has taken, with the entries of what it wrote (R86). -/
def State.noteFed (s : State) (p : Nat) (v : Vop) (rows : List (Nat × Nat)) (imm : Nat) (ids : List Nat) : State :=
  s.modME p (fun m => { m with fed := m.fed ++
    (rows.filter (fun r => m.inFlight.any (fun f => f.pass == r.1 && f.row == r.2))).flatMap (fun r =>
      (writeIds false 2 (v.rngs imm) ids).map (fun k => (r.1, r.2, k))) })

/-- What follows the effect of a VE instruction: its entries go, and its check is taken. -/
def State.veDone (s : State) (p : Nat) (v : Vop) (pass : Option Nat) (rows : List (Nat × Nat)) (imm : Nat) (c : Chk)
    (ids : List Nat) : State :=
  ((s.noteFed p v rows imm ids).veRelease p v pass imm ids).veCheck p v imm c

/-- Issues a VE instruction and runs its effect. -/
def State.runVe (s : State) (p i : Nat) (v : Vop) (c : Chk) (eff : State → State) : State :=
  s.issue p i v.op (s.veIssue p v) (fun ids t => (eff t).veDone p v (s.vePass p v) (s.veRows p v) (s.veImm p v) c ids)

end Sys2Proof.Machine
end

