-- ==== Sys2Proof/Machine/VecMath.lean ====
section
/-! DEFINITION. What the VE computes: maxima, comparisons, integer conversions, transcendental functions within the bounds of
R55, and the trees of reductions and scans (R55, R141–R143). -/

namespace Sys2Proof.Machine

/-! ### Maximum, minimum and comparison (R141, R142) -/

/-- The larger (or smaller) of two values, NaN if either is NaN, with −0 below +0. -/
def FV.pick (up : Bool) (x y : FV) : FV × Flags :=
  if x.isNan || y.isNan then (.qnan, snanFlag [x, y])
  else
    let less := x.lt y || (x.isZero && y.isZero && x.sign && !y.sign)
    (if less == up then y else x, 0)

/-- A compare by code, with INVALID as R142 states. -/
def compareFV (code : Nat) (x y : FV) : Bool × Flags :=
  let nan := x.isNan || y.isNan
  let inv := if 2 ≤ code ∧ code ≤ 5 then flagIf nan fInvalid else snanFlag [x, y]
  (match code with
    | 0 => !nan && x.same y
    | 1 => nan || !x.same y
    | 2 => !nan && x.lt y
    | 3 => !nan && x.le y
    | 4 => !nan && y.lt x
    | 5 => !nan && y.le x
    | 6 => nan
    | _ => !nan, inv)

/-- VICMP's compare of INT32 values; two integers are never unordered. -/
def compareInt (code : Nat) (x y : Int) : Bool :=
  match code with
  | 0 => x == y
  | 1 => x != y
  | 2 => decide (x < y)
  | 3 => decide (x ≤ y)
  | 4 => decide (y < x)
  | 5 => decide (y ≤ x)
  | 6 => false
  | _ => true

/-- VF2I: to INT32, to nearest even or toward zero, saturating with INVALID (R141). -/
def toInt32 (trunc : Bool) (x : FV) : Nat × Flags :=
  match x with
  | .nan _ => (0, fInvalid)
  | .inf n => (if n then 2 ^ 31 else 2 ^ 31 - 1, fInvalid)
  | .fin n m e =>
    let r := roundTo m e 0 (if trunc then some 0 else none)
    let r := if trunc then (if 0 ≤ e then m * 2 ^ e.toNat else m / 2 ^ (-e).toNat, r.2) else r
    if n then (if 2 ^ 31 < r.1 then (2 ^ 31, fInvalid) else ((2 ^ 32 - r.1) % 2 ^ 32, flagIf r.2 fInexact))
    else if 2 ^ 31 ≤ r.1 then (2 ^ 31 - 1, fInvalid) else (r.1, flagIf r.2 fInexact)

/-! ### Transcendental functions (R55)

Each function is evaluated in fixed point with 320 fraction bits, far inside the bounds; a candidate that the unit proposes is
delivered when it lies within the bound of that value, and the correctly rounded value otherwise (log 10). -/

def fixBits : Nat := 320
def fixOne : Int := 2 ^ 320

/-- A product of fixed-point values. -/
def fixMul (x y : Int) : Int := x * y / fixOne

/-- Σ t^(2i+1)/(2i+1) over n terms: the inverse hyperbolic tangent. -/
def fixAtanh (t2 : Int) : Nat → Nat → Int → Int
  | 0, _, _ => 0
  | n + 1, k, p => p / k + fixAtanh t2 n (k + 2) (fixMul p t2)

/-- ln 2. -/
def fixLn2 : Int :=
  let t := fixOne / 3
  2 * fixAtanh (fixMul t t) 110 1 t

/-- Σ r^i/i! over n terms. -/
def fixExp (r : Int) : Nat → Nat → Int → Int
  | 0, _, _ => 0
  | n + 1, k, p => p + fixExp r n (k + 1) (fixMul p r / k)

/-- A finite value in fixed point, rounded down. -/
def toFix (x : Dy) : Int :=
  let e := x.e + 320
  if 0 ≤ e then x.m * 2 ^ e.toNat else x.m / 2 ^ (-e).toNat

/-- 2^y for a fixed-point y: exact when y is an integer. -/
def exp2Fix (y : Int) : FV :=
  let k := y / fixOne
  let f := y % fixOne
  if f = 0 then .fin false 1 k
  else .fin false (fixExp (fixMul f fixLn2) 90 1 fixOne).natAbs (k - 320)

/-- A value just above or below 1. -/
def nearOne (up : Bool) : FV := if up then .fin false (2 ^ 200 + 1) (-200) else .fin false (2 ^ 200 - 1) (-200)

/-- 2^x of a finite value; beyond every format it stands for any value as far out. -/
def exp2Dy (x : Dy) : FV :=
  if x.m = 0 then .one
  else
    let top := x.e + Nat.log2 x.m.natAbs
    if 12 ≤ top then (if x.m < 0 then .fin false 1 (-3000) else .fin false 1 3000)
    else if top < -200 then nearOne (decide (0 < x.m))
    else exp2Fix (toFix x)

/-- e^x, as 2^(x / ln 2). -/
def expDy (x : Dy) : FV :=
  if x.m = 0 then .one
  else
    let top := x.e + Nat.log2 x.m.natAbs
    if 12 ≤ top then (if x.m < 0 then .fin false 1 (-3000) else .fin false 1 3000)
    else exp2Fix (toFix x * fixOne / fixLn2)

/-- log2 of a positive finite value. -/
def log2Dy (m : Nat) (e : Int) : FV :=
  let k := e + Nat.log2 m
  let f := toFix { m := m, e := -(Nat.log2 m : Int) } - fixOne
  if f = 0 then FV.ofInt k 0
  else
    let t := f * fixOne / (f + 2 * fixOne)
    FV.ofInt (k * fixOne + 2 * fixAtanh (fixMul t t) 110 1 t * fixOne / fixLn2) (-320)

/-- The quotient of two positive values, to many bits. -/
def ratio (x y : FV) : FV := (x.div y).1

/-- tanh of a finite non-zero value. -/
def tanhDy (x : Dy) : FV :=
  let top := x.e + Nat.log2 x.m.natAbs
  let n := decide (x.m < 0)
  if top < -100 then .fin n (2 ^ 150 * x.m.natAbs - 1) (x.e - 150)
  else if 8 ≤ top then .fin n (2 ^ 200 - 1) (-200)
  else
    let w := expDy { x.abs with e := x.e + 1 }
    let r := ratio (w.add FV.one.neg).1 (w.add FV.one).1
    if n then r.neg else r

/-- The sigmoid of a finite value. -/
def sigmDy (x : Dy) : FV :=
  if x.m = 0 then .fin false 1 (-1)
  else
    let top := x.e + Nat.log2 x.m.natAbs
    if top < -200 then .fin false (if x.m < 0 then 2 ^ 200 - 1 else 2 ^ 200 + 1) (-201)
    else if 9 ≤ top then (if x.m < 0 then .fin false 1 (-3000) else nearOne false)
    else
      let w := expDy x
      ratio w (w.add .one).1

/-- The distance |c − x| is at most k units in the last place of c, an FP32 value; infinity counts as 2^128. -/
def withinUlp (k : Nat) (c x : FV) : Bool :=
  let cd : FV := match c with
    | .inf n => .fin n 1 128
    | y => y
  match cd with
  | .fin _ m e =>
    let u : Int := if m = 0 then -149 else max (e + Nat.log2 m - 23) (-149)
    let ulp : FV := .fin false k (if c.isInf then 104 else u)
    ((cd.add x.neg).1.abs).le ulp
  | _ => false

/-- Delivers a candidate within k units in the last place of the value x, or the correctly rounded value: an FP32 value with
the flags of its rounding (R51). -/
def deliver (k : Nat) (cand : Word) (x : FV) : FV × Flags :=
  let r := fp32.round none x
  let c := fp32.read cand.toNat
  let y := if (c.isFin || c.isInf) && withinUlp k c x then c else r.1
  let inexact := !(y.isFin && y.same x)
  (y, flagIf inexact (fInexact ||| (r.2 &&& fUnderflow)) ||| flagIf y.isInf fOverflow)

/-- The transcendental operations on an FP32 operand: result in FP32 and flags (R141, R142; log 63). -/
def transcend (op : Nat) (x : FV) (imm : Nat) : FV × Flags :=
  let cand := Config.transcendental op (BitVec.ofNat 32 (fp32.encode x)) (BitVec.ofNat 32 (if op = 0x62 then imm else 0))
  if x.isNan then (.qnan, snanFlag [x] ||| (if op = 0x62 then snanFlag [fp32.read imm] else 0))
  else match op with
    | 0x60 => match x with
      | .fin n m _ => if m = 0 then (.inf n, fDivZero) else deliver 1 cand (FV.one.div x).1
      | _ => (.fin x.sign 0 0, 0)
    | 0x61 => match x with
      | .fin n m e =>
        if m = 0 then (.inf n, fDivZero) else if n then (.qnan, fInvalid) else deliver 1 cand (FV.one.div (root m e)).1
      | _ => if x.sign then (.qnan, fInvalid) else (.zero, 0)
    | 0x62 =>
      let p := x.mul (fp32.read imm)
      match p.1 with
      | .fin _ _ _ => deliver 2 cand (exp2Dy p.1.dy)
      | .inf n => (if n then .zero else .inf false, p.2)
      | .nan _ => (.qnan, p.2)
    | 0x63 => match x with
      | .fin n m e =>
        if m = 0 then (.inf true, fDivZero) else if n then (.qnan, fInvalid) else deliver 2 cand (log2Dy m e)
      | _ => if x.sign then (.qnan, fInvalid) else (.inf false, 0)
    | 0x64 => match x with
      | .fin n m _ => if m = 0 then (.fin n 0 0, 0) else deliver 4 cand (tanhDy x.dy)
      | _ => (.fin x.sign 1 0, 0)
    | _ => match x with
      | .fin _ _ _ => deliver 4 cand (sigmDy x.dy)
      | _ => (if x.sign then .zero else .one, 0)

/-! ### Reductions and scans (R143) -/

/-- A value with the flags that forming it has raised. -/
abbrev Fl := FV × Flags

/-- An FP32 addition. -/
def addFl (x y : Fl) : Fl :=
  let r := x.1.add y.1
  let f := fp32.round none r.1
  (f.1, x.2 ||| y.2 ||| r.2 ||| f.2)

def pickFl (up : Bool) (x y : Fl) : Fl :=
  let r := FV.pick up x.1 y.1
  (r.1, x.2 ||| y.2 ||| r.2)

/-- One level of the pairwise tree; an odd last element passes unchanged. -/
def pairLevel {α : Type} (f : α → α → α) : List α → List α
  | a :: b :: t => f a b :: pairLevel f t
  | l => l

/-- The pairwise tree over at most n levels. -/
def pairTree {α : Type} (f : α → α → α) : Nat → List α → List α
  | 0, l => l
  | n + 1, l => pairTree f n (pairLevel f l)

/-- The index of the first NaN, or of the largest (smallest) element, ties to the lower index. The manual does not say whether −0
and +0 tie here: they do (DESIGN CHOICE, log 102). -/
def argBest (up : Bool) (l : List FV) : Nat :=
  match l.findIdx? FV.isNan with
  | some i => i
  | none => (((List.range l.length).zip l).foldl (fun (m : Option (Nat × FV)) e => match m with
      | none => some e
      | some b => if (if up then b.2.lt e.2 else e.2.lt b.2) then some e else some b) none).elim 0 (·.1)

/-- One level of the scan tree: element i of the run takes its value with that of element i − d. -/
def scanLevel {α : Type} (f : α → α → α) (d : Nat) (l : List α) : List α :=
  l.take d ++ List.zipWith (fun y x => f x y) l (l.drop d)

/-- The prefixes of a run of elements within one beat and segment: 9 levels. -/
def scanRun {α : Type} (f : α → α → α) (l : List α) : List α :=
  (List.range 9).foldl (fun l k => scanLevel f (2 ^ k) l) l

/-- The prefixes of a segment that starts at element `at_` of the instruction, beat by beat with the carry (R143). n bounds
the beats. -/
def scanSegment {α : Type} (f : α → α → α) (at_ : Nat) (carry : Option α) (l : List α) : Nat → List α
  | 0 => []
  | n + 1 =>
    let k := 512 - at_ % 512
    let r := scanRun f (l.take k)
    let r := match carry with
      | some c => r.map (fun x => f c x)
      | none => r
    match r.getLast? with
    | none => []
    | some c => r ++ scanSegment f (at_ + k) (some c) (l.drop k) n

end Sys2Proof.Machine
end

