-- ==== Sys2Proof/Machine/Cells.lean ====
section
/-! DEFINITION. The cell cores (R206–R215, R220, R221): registers, traps, and the instructions other than movq. -/

namespace Sys2Proof.Machine

/-! ### Cores -/

/-- A register as it reads: g0 is zero (R206). -/
def Core.reg (c : Core) (g : RegIx) : Word := if g = 0 then 0 else lget 0 c.regs g.val

/-- A write to a register; one to g0 is discarded (R206). -/
def Core.set (c : Core) (g : RegIx) (v : Word) : Core := if g = 0 then c else { c with regs := c.regs.set g.val v }

/-- The core at the instruction that follows. -/
def Core.advance (c : Core) : Core := { c with pc := c.pc + 4 }

/-- A result written, and the next instruction. -/
def Core.result (c : Core) (g : RegIx) (v : Word) : Core := (c.set g v).advance

/-- Flags ORed into fflags (R206). -/
def Core.flagged (c : Core) (f : Flags) : Core := { c with fflags := c.fflags ||| BitVec.ofNat 5 f }

/-- The core of cell n of pavilion p can issue: its plot's garden domain is on, and the core is neither held in reset nor gated
nor suspended (R23, R213, R221, R519). -/
def State.coreRuns (s : State) (p n : Nat) : Bool :=
  let c := (s.pav p).core n
  (s.plot (plotOf p)).g.on && !c.held && !c.suspended && !(s.pav p).gated n

/-- An instruction of the core at a presented position, when that core can issue; elsewhere nothing happens (log 2). -/
def State.onCore (s : State) (c : CellXY) (f : Nat → Nat → Core → State) : Res :=
  match cellNo c with
  | some (p, n) => onlyIf (s.coreRuns p n) s (f p n ((s.pav p).core n))
  | none => .next s

/-! ### Traps (R214) -/

/-- A trap saves the program counter and the cause, and enters the monitor (R214; log 77). -/
def Core.trapped (c : Core) (cause : Nat) : Core :=
  { c with cause := BitVec.ofNat 32 cause, epc := c.pc, monitor := true, pc := 0x3F000, suspended := false }

/-- The global coordinates of cell n of pavilion p. -/
def cellXY (p n : Nat) : Nat × Nat :=
  let l := cellLocal (p % 4) n
  (64 * (plotOf p % 8) + l.1, 68 * (plotOf p / 8) + l.2)

/-- The record of a trap that stops the job (R441, type 0x0D). -/
def State.trapRec (s : State) (p n cause : Nat) (c : Core) : ErrRec :=
  { s.pavRec p 0x0D 2 1 cause with
    x := BitVec.ofNat 9 (cellXY p n).1, y := BitVec.ofNat 9 (cellXY p n).2, paddr := c.pc.setWidth 18
    address := c.pc.setWidth 64 }

/-- A trap after which the monitor has a record written and the job stopped (R214). -/
def State.trapStop (s : State) (p n cause : Nat) : State :=
  let c := (s.pav p).core n
  let r := s.trapRec p n cause c
  ((s.setCore p n (c.trapped cause)).record r).stopJobOf p stOutOfRange (s.recordNumber r)

def causeUndefined : Nat := 1
def causeMisaligned : Nat := 2
def causeMonitor : Nat := 3
def causePoison : Nat := 4
def causeMove : Nat := 5
def causeService : Nat := 6

/-! ### Integer instructions (R208, R209) -/

/-- The second operand: a register, or a 16-bit immediate in two's complement (R209). -/
def Core.src (c : Core) : Src → Word
  | .reg g => c.reg g
  | .imm v => v.signExtend 32

/-- An instruction that writes what f makes of the core to gd. -/
def State.alu (s : State) (c : CellXY) (gd : RegIx) (f : Core → Word) : Res :=
  s.onCore c (fun p n k => s.setCore p n (k.result gd (f k)))

/-- The same where the manual may not state the result: then it is a free value (log 16). -/
def State.aluOpen (s : State) (c : CellXY) (gd : RegIx) (op : Nat) (a b : Core → Word) (f : Core → Option Word) : Res :=
  s.onCore c (fun p n k =>
    match f k with
    | some v => s.setCore p n (k.result gd v)
    | none => s.fresh.2.setCore p n (k.result gd (Config.coreOpen op (a k) (b k) s.fresh.1)))

/-- R208: gd := ga + b. -/
def execAdd (c : CellXY) (gd ga : RegIx) (b : Src) (s : State) : Res := s.alu c gd (fun k => k.reg ga + k.src b)

/-- R208: gd := ga − b. -/
def execSub (c : CellXY) (gd ga : RegIx) (b : Src) (s : State) : Res := s.alu c gd (fun k => k.reg ga - k.src b)

/-- R208: bitwise AND. -/
def execAnd (c : CellXY) (gd ga : RegIx) (b : Src) (s : State) : Res := s.alu c gd (fun k => k.reg ga &&& k.src b)

/-- R208: bitwise OR. -/
def execOr (c : CellXY) (gd ga : RegIx) (b : Src) (s : State) : Res := s.alu c gd (fun k => k.reg ga ||| k.src b)

/-- R208: bitwise exclusive OR. -/
def execXor (c : CellXY) (gd ga : RegIx) (b : Src) (s : State) : Res := s.alu c gd (fun k => k.reg ga ^^^ k.src b)

/-- A shift by less than the width. -/
def shiftBy : ShiftKind → Word → Nat → Word
  | .left, a, n => a <<< n
  | .rightLogical, a, n => a >>> n
  | .rightArith, a, n => a.sshiftRight n
  | .undefined, a, _ => a

/-- A shift; by 32 or more the manual states no result. -/
def shiftResult (k : ShiftKind) (a b : Word) : Option Word := if b.toNat < 32 then some (shiftBy k a b.toNat) else none

/-- R208, R209: shifts; a word whose function no instruction defines traps (log 107). -/
def execShifts (c : CellXY) (k : ShiftKind) (gd ga : RegIx) (b : Src) (s : State) : Res :=
  match k with
  | .undefined => s.onCore c (fun p n _ => s.trapStop p n causeUndefined)
  | .left => s.aluOpen c gd 1 (fun x => x.reg ga) (fun x => x.src b) (fun x => shiftResult .left (x.reg ga) (x.src b))
  | .rightLogical =>
    s.aluOpen c gd 2 (fun x => x.reg ga) (fun x => x.src b) (fun x => shiftResult .rightLogical (x.reg ga) (x.src b))
  | .rightArith =>
    s.aluOpen c gd 3 (fun x => x.reg ga) (fun x => x.src b) (fun x => shiftResult .rightArith (x.reg ga) (x.src b))

/-- R208: 1 when ga is less than b, otherwise 0 (log 82). -/
def execSetLessThan (c : CellXY) (unsigned : Bool) (gd ga : RegIx) (b : Src) (s : State) : Res :=
  s.alu c gd (fun k => if (if unsigned then (k.reg ga).ult (k.src b) else (k.reg ga).slt (k.src b)) then 1 else 0)

/-- R208: the smaller of two signed integers (log 82). -/
def execMin (c : CellXY) (gd ga : RegIx) (b : Src) (s : State) : Res :=
  s.alu c gd (fun k => if (k.reg ga).slt (k.src b) then k.reg ga else k.src b)

/-- R208: the larger of two signed integers (log 82). -/
def execMax (c : CellXY) (gd ga : RegIx) (b : Src) (s : State) : Res :=
  s.alu c gd (fun k => if (k.reg ga).slt (k.src b) then k.src b else k.reg ga)

/-- R209: imm21 in bits [31:11] of gd. -/
def execLoadUpperImmediate (c : CellXY) (gd : RegIx) (imm : BitVec 21) (s : State) : Res :=
  s.alu c gd (fun _ => imm ++ (0 : BitVec 11))

/-- R208: the low 32 bits of a product. -/
def execMul (c : CellXY) (gd ga gb : RegIx) (s : State) : Res := s.alu c gd (fun k => k.reg ga * k.reg gb)

/-- The high 32 bits of a signed product. -/
def mulHigh (a b : Word) : Word := BitVec.ofInt 32 (a.toInt * b.toInt / 2 ^ 32)

/-- R208: the high 32 bits of the signed product. -/
def execMulh (c : CellXY) (gd ga gb : RegIx) (s : State) : Res := s.alu c gd (fun k => mulHigh (k.reg ga) (k.reg gb))

/-- R208: the high 32 bits of the unsigned product. -/
def execMulhu (c : CellXY) (gd ga gb : RegIx) (s : State) : Res :=
  s.alu c gd (fun k => BitVec.ofNat 32 ((k.reg ga).toNat * (k.reg gb).toNat / 2 ^ 32))

/-- A signed quotient and remainder where the manual fixes them: an exact division or one of non-negative operands, whose
quotient fits. It states neither the rounding of an inexact negative quotient nor a division by zero. -/
def divResult (a b : Word) : Option (Word × Word) :=
  let x := a.toInt
  let y := b.toInt
  if y = 0 then none
  else if x % y = 0 then (if x / y = 2 ^ 31 then none else some (BitVec.ofInt 32 (x / y), 0))
  else if 0 ≤ x ∧ 0 ≤ y then some (BitVec.ofInt 32 (x / y), BitVec.ofInt 32 (x % y))
  else none

/-- R208: signed division. -/
def execDiv (c : CellXY) (gd ga gb : RegIx) (s : State) : Res :=
  s.aluOpen c gd 4 (fun k => k.reg ga) (fun k => k.reg gb) (fun k => (divResult (k.reg ga) (k.reg gb)).map (·.1))

/-- R208: signed remainder. -/
def execRem (c : CellXY) (gd ga gb : RegIx) (s : State) : Res :=
  s.aluOpen c gd 5 (fun k => k.reg ga) (fun k => k.reg gb) (fun k => (divResult (k.reg ga) (k.reg gb)).map (·.2))

/-- R208: unsigned division; by zero the manual states no result. -/
def execDivu (c : CellXY) (gd ga gb : RegIx) (s : State) : Res :=
  s.aluOpen c gd 6 (fun k => k.reg ga) (fun k => k.reg gb)
    (fun k => if k.reg gb = 0 then none else some (k.reg ga / k.reg gb))

/-- R208: unsigned remainder. -/
def execRemu (c : CellXY) (gd ga gb : RegIx) (s : State) : Res :=
  s.aluOpen c gd 7 (fun k => k.reg ga) (fun k => k.reg gb)
    (fun k => if k.reg gb = 0 then none else some (k.reg ga % k.reg gb))

/-! ### FP32 instructions (R206, R208) -/

/-- A register's FP32 value. -/
def Core.fp (c : Core) (g : RegIx) : FV := fp32.read (c.reg g).toNat

/-- An exact result rounded once to nearest even, with its flags (R206). -/
def fpRound (r : FV × Flags) : Word × Flags :=
  let x := fp32.round none r.1
  (BitVec.ofNat 32 (fp32.encode x.1), r.2 ||| x.2)

/-- An FP32 instruction: its result and its flags. -/
def State.fpu (s : State) (c : CellXY) (gd : RegIx) (f : Core → Word × Flags) : Res :=
  s.onCore c (fun p n k => s.setCore p n ((k.result gd (f k).1).flagged (f k).2))

/-- The same where the manual may not state the value. -/
def State.fpuOpen (s : State) (c : CellXY) (gd : RegIx) (op : Nat) (a b : Core → Word) (f : Core → Option Word × Flags) : Res :=
  s.onCore c (fun p n k =>
    match (f k).1 with
    | some v => s.setCore p n ((k.result gd v).flagged (f k).2)
    | none => s.fresh.2.setCore p n ((k.result gd (Config.coreOpen op (a k) (b k) s.fresh.1)).flagged (f k).2))

/-- R206: FP32 sum. -/
def execFadd (c : CellXY) (gd ga gb : RegIx) (s : State) : Res := s.fpu c gd (fun k => fpRound ((k.fp ga).add (k.fp gb)))

/-- R206: FP32 difference. -/
def execFsub (c : CellXY) (gd ga gb : RegIx) (s : State) : Res :=
  s.fpu c gd (fun k => fpRound ((k.fp ga).add (k.fp gb).neg))

/-- R206: FP32 product. -/
def execFmul (c : CellXY) (gd ga gb : RegIx) (s : State) : Res := s.fpu c gd (fun k => fpRound ((k.fp ga).mul (k.fp gb)))

/-- R208: ga · gb + gd, rounded once; class T gives the sum no register but gd (log 82). -/
def execFfma (c : CellXY) (gd ga gb : RegIx) (s : State) : Res :=
  s.fpu c gd (fun k => fpRound ((k.fp ga).fma (k.fp gb) (k.fp gd)))

/-- The smaller or larger of two values; of a NaN or two zeros of different signs the manual states no result. -/
def fpPick (up : Bool) (x y : FV) (a b : Word) : Option Word × Flags :=
  if x.isNan || y.isNan then (none, snanFlag [x, y])
  else if x.isZero && y.isZero && x.sign != y.sign then (none, 0)
  else (some (if x.lt y == up then b else a), 0)

/-- R208: FP32 minimum. -/
def execFmin (c : CellXY) (gd ga gb : RegIx) (s : State) : Res :=
  s.fpuOpen c gd 8 (fun k => k.reg ga) (fun k => k.reg gb) (fun k => fpPick false (k.fp ga) (k.fp gb) (k.reg ga) (k.reg gb))

/-- R208: FP32 maximum. -/
def execFmax (c : CellXY) (gd ga gb : RegIx) (s : State) : Res :=
  s.fpuOpen c gd 9 (fun k => k.reg ga) (fun k => k.reg gb) (fun k => fpPick true (k.fp ga) (k.fp gb) (k.reg ga) (k.reg gb))

/-- The compare code of *VCMP* that a relation has. -/
def FRel.code : FRel → Nat
  | .eq => 0 | .lt => 2 | .le => 3

/-- R208: FP32 compare, 1 when the relation holds and otherwise 0 (log 82). -/
def execFcmp (c : CellXY) (r : FRel) (gd ga gb : RegIx) (s : State) : Res :=
  s.fpu c gd (fun k =>
    let x := compareFV (FRel.code r) (k.fp ga) (k.fp gb)
    (if x.1 then 1 else 0, x.2))

/-- An FP32 value as INT32, rounded to nearest even; out of range the manual states no result. -/
def fpToInt (x : FV) : Option Word × Flags :=
  let r := toInt32 false x
  (if r.2 % 2 = 1 then none else some (BitVec.ofNat 32 r.1), r.2)

/-- R208: conversion between INT32 and FP32. -/
def execFcvt (c : CellXY) (d : FCvtDir) (gd ga : RegIx) (s : State) : Res :=
  s.fpuOpen c gd 10 (fun k => k.reg ga) (fun _ => 0) (fun k => match d with
    | .intToFp => let r := fpRound (FV.ofInt (k.reg ga).toInt 0, 0); (some r.1, r.2)
    | .fpToInt => fpToInt (k.fp ga))

/-- R208: correctly rounded quotient. -/
def execFdiv (c : CellXY) (gd ga gb : RegIx) (s : State) : Res := s.fpu c gd (fun k => fpRound ((k.fp ga).div (k.fp gb)))

/-- R208: correctly rounded square root. -/
def execFsqrt (c : CellXY) (gd ga : RegIx) (s : State) : Res := s.fpu c gd (fun k => fpRound (k.fp ga).sqrt)

/-! ### Memory (R210, R221) -/

def MemSize.bytes : MemSize → Nat
  | .b8 => 1 | .b16 => 2 | .b32 => 4

/-- Where a core address leads: a pavilion-local address, or the cause of the trap. A core owns its own cell; the lead of a
pooled block reaches its whole block. An access must be aligned, lie in the address space, and, in task mode, stay out of the
monitor region (R210, R221; log 78). -/
def Pav.coreAddr (x : Pav) (n : Nat) (monitor : Bool) (addr size : Nat) : Nat ⊕ Nat :=
  let pooled := x.pool.getLsbD (poolBlock n)
  let o := addr % 0x40000
  if addr % size ≠ 0 then .inr causeMisaligned
  else if (if pooled then 0x400000 else 0x40000) ≤ addr ∨ (!monitor ∧ 0x3F000 ≤ o) then .inr causeMonitor
  else .inl (0x40000 * (n + 32 * (addr / 0x40000 / 4) + addr / 0x40000 % 4) + o)

/-- The address of a memory access: ga plus a byte offset in two's complement (R209). -/
def Core.address (c : Core) (ga : RegIx) (off : BitVec 16) : Nat := (c.reg ga + off.signExtend 32).toNat

/-- An access at a core's address, or the trap that it meets. -/
def State.access (s : State) (p n : Nat) (k : Core) (addr size : Nat) (f : Nat → State) : State :=
  match (s.pav p).coreAddr n k.monitor addr size with
  | .inr t => s.trapStop p n t
  | .inl a => f a

/-- A load: a poisoned row traps, with a cause, before any register is written (R214, R438); otherwise f gives the core from the
bytes. -/
def State.coreLoad (s : State) (p n a size cause : Nat) (f : Nat → Core → Core) : State :=
  let r := s.gardenRead p (a / 64)
  let s := r.2
  let k := (s.pav p).core n
  if r.1.2 then ((s.setCore p n (k.trapped cause)).consume p false (a / 64) 0).2
  else s.setCore p n (f (leNat (bslice r.1.1 (a % 64) size)) k)

/-- The bit of the dirty map for a local address (R431). -/
def Pav.markDirty (x : Pav) (a : Nat) : Pav :=
  { x with dirty := tmod 0 x.dirty (a / 0x40000) (fun b => b ||| BitVec.ofNat 64 (2 ^ (a / 4096 % 64))) }

/-- A store: the row merged and written, the dirty map, the copy map, and the cores that watch the row (R213, R237, R431, R438,
R450). -/
def State.coreStore (s : State) (p a size v : Nat) : State :=
  let m := s.mergeRow p false (a / 64) (a % 64) (natLE size v) false
  let s := m.2.rowPut p false 0 (a / 64) m.1.2.1 m.1.2.2
  let s := s.modPav p (fun x => x.markDirty a)
  (s.modSeq p (fun q => { q with copyMap := dropCopies q.copyMap false (a / 64) (a / 64 + 1) })).touchWatch p (a / 64)

/-- What a load of 8, 16 or 32 bits leaves in the register; the manual states neither zeros nor the sign above a short one, so
those bits are free. -/
def loaded (z : MemSize) (v : Nat) (free : Word) : Word :=
  match z with
  | .b8 => free.extractLsb' 8 24 ++ BitVec.ofNat 8 v
  | .b16 => free.extractLsb' 16 16 ++ BitVec.ofNat 16 v
  | .b32 => BitVec.ofNat 32 v

/-- R208, R210, R214: a load of 8, 16 or 32 bits. -/
def execLd (c : CellXY) (z : MemSize) (gd ga : RegIx) (off : BitVec 16) (s : State) : Res :=
  s.onCore c (fun p n k => s.access p n k (k.address ga off) (MemSize.bytes z) (fun a =>
    let free := Config.free32 s.fresh.1
    s.fresh.2.coreLoad p n a (MemSize.bytes z) causePoison (fun v k => k.result gd (loaded z v free))))

/-- R208, R210: a store of 8, 16 or 32 bits. -/
def execSt (c : CellXY) (z : MemSize) (gd ga : RegIx) (off : BitVec 16) (s : State) : Res :=
  s.onCore c (fun p n k => s.access p n k (k.address ga off) (MemSize.bytes z) (fun a =>
    (s.setCore p n k.advance).coreStore p a (MemSize.bytes z) (k.reg gd).toNat))

/-- The odd register of a pair. -/
def pairHigh (g : RegIx) : RegIx := Fin.ofNat 32 (g.val + 1)

/-- R208, R210: a 64-bit load into an even–odd register pair, its low word into the even one; a pair that begins at an odd
register is undefined (log 79). -/
def execLdp (c : CellXY) (gd ga : RegIx) (off : BitVec 16) (s : State) : Res :=
  s.onCore c (fun p n k =>
    if gd.val % 2 = 1 then s.trapStop p n causeUndefined
    else s.access p n k (k.address ga off) 8 (fun a =>
      s.coreLoad p n a 8 causePoison (fun v k => (k.set gd (BitVec.ofNat 32 v)).result (pairHigh gd) (BitVec.ofNat 32 (v / 2 ^ 32)))))

/-- R208, R210: a 64-bit store from an even–odd register pair. -/
def execStp (c : CellXY) (gd ga : RegIx) (off : BitVec 16) (s : State) : Res :=
  s.onCore c (fun p n k =>
    if gd.val % 2 = 1 then s.trapStop p n causeUndefined
    else s.access p n k (k.address ga off) 8 (fun a =>
      (s.setCore p n k.advance).coreStore p a 8 ((k.reg gd).toNat + 2 ^ 32 * (k.reg (pairHigh gd)).toNat)))

/-! ### Branches and jumps (R208, R209) -/

/-- The conditions of compare-and-branch. -/
def branchTaken (k : BranchCond) (a b : Word) : Bool :=
  match k with
  | .eq => a == b
  | .ne => a != b
  | .lt => a.slt b
  | .ge => !a.slt b
  | .ltu => a.ult b
  | .geu => !a.ult b

/-- The core at an offset of so many instructions from this one. -/
def Core.goto (c : Core) (off : Word) : Core := { c with pc := c.pc + 4 * off }

/-- R208, R209: compare and branch. -/
def execCompareAndBranch (c : CellXY) (k : BranchCond) (ga gb : RegIx) (off : BitVec 16) (s : State) : Res :=
  s.onCore c (fun p n x => s.setCore p n
    (if branchTaken k (x.reg ga) (x.reg gb) then x.goto (off.signExtend 32) else x.advance))

/-- R209: jump. -/
def execJump (c : CellXY) (off : BitVec 26) (s : State) : Res :=
  s.onCore c (fun p n k => s.setCore p n (k.goto (off.signExtend 32)))

/-- R208, R209: jump and link; the register that takes the return address is open (log 16). -/
def execJumpAndLink (c : CellXY) (off : BitVec 26) (s : State) : Res :=
  s.onCore c (fun p n k => s.setCore p n ((k.goto (off.signExtend 32)).set Config.linkReg (k.pc + 4)))

/-! ### Signals (R213) -/

/-- The SIGNAL packet of a cell to the port cell of its pavilion (R194, R286). -/
def signalPacket (p n ctr value : Nat) : Packet :=
  let src := cellXY p n
  let l := portCell (p % 4)
  mkPacket 5 (BitVec.ofNat 9 src.1, BitVec.ofNat 9 src.2)
    (BitVec.ofNat 9 (64 * (plotOf p % 8) + l.1), BitVec.ofNat 9 (68 * (plotOf p / 8) + l.2)) 0 8
    (2 ^ 380 * ctr + 2 ^ 348 * value)

/-- R213: sigc sends the addition of gb to sync counter ga[3:0] as a packet. -/
def execSigc (c : CellXY) (ga gb : RegIx) (s : State) : Res :=
  s.onCore c (fun p n k => (s.setCore p n k.advance).emit
    (.packet (signalPacket p n ((k.reg ga).toNat % 16) (k.reg gb).toNat)))

/-- R213: rdctr reads sync counter ga[3:0] as it stands. -/
def execRdctr (c : CellXY) (gd ga : RegIx) (s : State) : Res :=
  s.onCore c (fun p n k => s.setCore p n (k.result gd (lget 0 (s.pav p).seq.ctrs ((k.reg ga).toNat % 16))))

/-- R213: wfe suspends the core, unless the watched row has been written since the watch was set. -/
def execWfe (c : CellXY) (s : State) : Res :=
  s.onCore c (fun p n k => s.setCore p n
    (if k.watchHit then { k.advance with watchHit := false } else { k.advance with suspended := true }))

/-- R213: a write has landed in the watched row, and the suspended core goes on. -/
def execWfeWake (c : CellXY) (s : State) : Res :=
  match cellNo c with
  | some (p, n) =>
    let k := (s.pav p).core n
    onlyIf (k.suspended && k.watchHit && !k.held && !(s.pav p).gated n) s (s.setCore p n { k with suspended := false, watchHit := false })
  | none => .next s

/-! ### System instructions (R214, R215) -/

/-- C-cycles since the pavilion's run began, at 1.05 GHz (R8, R215). -/
def State.coreCycles (s : State) (p : Nat) : Nat := (s.ns - (s.pav p).seq.runNs) * 21 / 20

/-- A control register as csrr reads it (R215; log 81); none for a number that is not listed. -/
def State.csr (s : State) (p n : Nat) (k : Core) (r : Nat) : Option Word :=
  match r with
  | 0 => some k.cause
  | 1 => some k.epc
  | 2 => some (k.fflags.setWidth 32)
  | 3 => some (k.watch.setWidth 32 <<< 6)
  | 4 => some (BitVec.ofNat 32 (s.coreCycles p))
  | 5 => some (BitVec.ofNat 32 (s.coreCycles p / 2 ^ 32))
  | 6 => some (BitVec.ofNat 32 ((cellXY p n).1 * 65536 + (cellXY p n).2))
  | _ => none

/-- Registers that task code may read, and those that it may write (R215). -/
def csrTaskReads (r : Nat) : Bool := decide (2 ≤ r ∧ r ≤ 6)
def csrTaskWrites (r : Nat) : Bool := decide (2 ≤ r ∧ r ≤ 3)

/-- A write of a control register; cyc, cych and where are not written (R215; log 80). Setting the watch forgets earlier
writes to the row. -/
def Core.csrWrite (k : Core) (r : Nat) (v : Word) : Core :=
  match r with
  | 0 => { k with cause := v }
  | 1 => { k with epc := v }
  | 2 => { k with fflags := v.setWidth 5 }
  | 3 => { k with watch := v.extractLsb' 6 12, watchHit := false }
  | _ => k

/-- R215: csrr reads a control register; in task mode only one that it may read. -/
def execCsrr (c : CellXY) (gd : RegIx) (r : BitVec 12) (s : State) : Res :=
  s.onCore c (fun p n k =>
    match s.csr p n k r.toNat with
    | some v => if k.monitor || csrTaskReads r.toNat then s.setCore p n (k.result gd v) else s.trapStop p n causeUndefined
    | none => s.trapStop p n causeUndefined)

/-- R215: csrw writes a control register; in task mode only one that it may write. -/
def execCsrw (c : CellXY) (ga : RegIx) (r : BitVec 12) (s : State) : Res :=
  s.onCore c (fun p n k =>
    if 6 < r.toNat ∨ !(k.monitor || csrTaskWrites r.toNat) then s.trapStop p n causeUndefined
    else s.setCore p n (k.csrWrite r.toNat (k.reg ga)).advance)

/-- R214: the trap instruction enters the monitor with cause 0x06. -/
def execTrap (c : CellXY) (s : State) : Res := s.onCore c (fun p n k => s.setCore p n (k.trapped causeService))

/-- R214: tret returns to task mode at epc; it is undefined in task mode (log 80). -/
def execTret (c : CellXY) (s : State) : Res :=
  s.onCore c (fun p n k =>
    if k.monitor then s.setCore p n { k with monitor := false, pc := k.epc } else s.trapStop p n causeUndefined)

/-- R208: fence waits for all outstanding memory. Loads and stores complete at once here (log 8). -/
def execCoreFence (c : CellXY) (s : State) : Res := s.onCore c (fun p n k => s.setCore p n k.advance)

end Sys2Proof.Machine
end

