-- ==== Sys2Proof/Machine/Sessions.lean ====
section
/-! DEFINITION. Ring frames, sessions, reports, and unlocks (R338, R521–R541). -/

namespace Sys2Proof

/-- The Holcel header as 16 bytes, most significant first (R338). -/
def HFrame.header (f : HFrame) : List Byte :=
  Machine.natBE 16 (2 ^ 124 * f.version.toNat + (if f.rsp then 2 ^ 123 else 0) + 2 ^ 119 * f.service.toNat +
    2 ^ 112 * f.dst.toNat + 2 ^ 105 * f.src.toNat + 2 ^ 99 * f.hops.toNat + 2 ^ 83 * f.seq.toNat + 2 ^ 67 * f.index.toNat +
    2 ^ 59 * f.sub.toNat + 2 ^ 43 * f.code.toNat + 2 ^ 32 * f.length.toNat + 2 ^ 16 * f.session.toNat + f.param.toNat)

/-- The tag of R531; the header is as sent, with 63 hops. -/
def HFrame.mac (f : HFrame) (ka : List Byte) : List Byte :=
  Machine.kmac256 ka (({ f with hops := 63 } : HFrame).header ++ f.payload) 16 (Machine.ascii "Holcel session")

end Sys2Proof

namespace Sys2Proof.Machine

/-! ### Sending frames -/

/-- Tags a frame of a session and counts it (R531, R532). -/
def State.tagged (s : State) (f : HFrame) : HFrame × State :=
  match s.lodge.sessions.find? (fun x => x.number == f.session && f.session != 0) with
  | some x => ({ f with tag := f.mac x.ka }, s.modLodge (fun l => { l with
      sessions := l.sessions.map (fun y => if y.number = x.number then { y with framesOut := y.framesOut + 1 } else y) }))
  | none => (f, s)

/-- Sends a frame on both ports (R339). -/
def State.sendRing (s : State) (f : HFrame) : State :=
  let g := s.tagged f
  g.2.ringOut g.1

/-- A frame of the module's own. -/
def State.ringFrame (s : State) (rsp : Bool) (service dst session param : Nat) (seq : BitVec 16) (code : Nat)
    (payload : List Byte) : HFrame :=
  { onB := false, fcsOk := true, macDst := 0xFFFFFFFFFFFF, macSrc := 0, vlan := false, ethertype := 0x88B6, version := 1, rsp := rsp
    service := BitVec.ofNat 4 service, dst := BitVec.ofNat 7 dst,
    src := s.lodge.set.station.setWidth 7, hops := 63, seq := seq, index := 0, sub := 0, code := BitVec.ofNat 16 code,
    length := BitVec.ofNat 11 payload.length, session := BitVec.ofNat 16 session, param := BitVec.ofNat 16 param,
    payload := payload, tag := [] }

/-- The next frame number of the module. -/
def State.nextSeq (s : State) : BitVec 16 × State := (s.lodge.nextSeq, s.modLodge (fun l => { l with nextSeq := l.nextSeq + 1 }))

def ringFrom (f : HFrame) : Requester := .ring f.src f.session

/-- A frame carries a session that is open (R347). -/
def State.authentic (s : State) (f : HFrame) : Bool := (s.sessionOf (ringFrom f)).isSome

/-- Answers a request (R338): a response copies the request's seq, index, sub and param, and its session where that is open, since
no other frame could carry a tag. -/
def State.respond (s : State) (f : HFrame) (code : Nat) (d : List Byte) : State :=
  let n := if s.authentic f then f.session.toNat else 0
  s.sendRing { s.ringFrame true f.service.toNat f.src.toNat n f.param.toNat f.seq code d with index := f.index, sub := f.sub }

/-- Sends the data of a session step in fragments of 1,024 bytes (*Session steps*). -/
def State.sendStep (s : State) (step dst session : Nat) (d : List Byte) : State :=
  s.each (List.range (d.length / 1024 + 1)) (fun s i =>
    let q := s.nextSeq
    q.2.sendRing (q.2.ringFrame false 7 dst session (256 * step + i) q.1 0 ((d.drop (1024 * i)).take 1024)))

/-! ### Handshakes (R530–R533) -/

def State.sessionBusy (s : State) (n : Nat) : Bool :=
  n == 0 || s.lodge.sessions.any (fun x => x.number.toNat == n) || s.lodge.handshakes.any (fun x => x.number.toNat == n)

/-- The next session number, 1–0xFFFF, that is not in use. -/
def State.freeSession (s : State) : Nat :=
  ((List.range 16).map (fun k => (s.lodge.nextSession + k) % 65535 + 1)).find? (fun n => !s.sessionBusy n) |>.getD 1

/-- Why a HELLO with this owner key index is refused, or 0 (R532, R533, R541). -/
def State.helloRefused (s : State) (station : BitVec 7) (key : Nat) (len : Nat) : Nat :=
  let l := s.lodge
  if len ≠ 33 then 0x0A02
  else if !s.hasIdentity then 0x0A04
  else if 8 ≤ l.sessions.length + (l.handshakes.filter (fun h => h.station != station)).length then 0x0A04
  else if (if key = 0xFF then l.sec.owners.isEmpty else decide (key < l.sec.owners.length)) then 0 else 0x0A07

/-- R530, R532, R533, R541: a HELLO, the owner key index and a nonce, is answered with a signed CHALLENGE. -/
def State.hello (s : State) (f : HFrame) (d : List Byte) : State :=
  let station := f.src
  let key := ((d.head?).getD 0).toNat
  let nonce := d.drop 1
  let c := s.helloRefused station key d.length
  if c ≠ 0 then s.respond f c []
  else
    let e := s.fresh
    let g := e.2.fresh
    let s := g.2
    let n := s.freeSession
    let nm := Config.drbg e.1 32
    let ek := Config.mlKemKey g.1
    let part := natLE 2 n ++ nm ++ ek
    let transcript := d ++ part
    let s := s.modLodge (fun l => { l with
      nextSession := n
      handshakes := l.handshakes.filter (fun h => h.station != station) ++
        [{ station := station, key := BitVec.ofNat 8 key, pub := lget [] l.sec.owners key, draw := g.1, nr := nonce
           number := BitVec.ofNat 16 n, nm := nm, ek := ek, transcript := transcript, since := s.ns }] })
    (s.respond f 0 []).sendStep 2 station.toNat 0 (part ++ Config.mlDsaSign (roleContext 5) transcript)

/-- R531–R533: the ACCEPT, a ciphertext and a signature, completes the handshake, or a failed signature ends it. -/
def State.accept (s : State) (f : HFrame) (d : List Byte) : State :=
  let station := f.src
  let ciphertext := d.take 1088
  let sig := d.drop 1088
  match s.lodge.handshakes.find? (fun h => h.station == station) with
  | none => s.respond f 0x0A07 []
  | some h =>
    if d.length ≠ 4397 then s.respond f 0x0A02 []
    else
      let transcript := h.transcript ++ ciphertext
      let claim := h.key == 0xFF
      let ok := if claim then sig.all (fun b => b == 0) else Config.mlDsaVerify (roleContext 5) h.pub transcript sig
      let s := s.modLodge (fun l => { l with handshakes := l.handshakes.filter (fun x => x.station != station) })
      if !ok then s.respond f 0x0A07 []
      else
        let ss := Config.mlKemDecaps h.draw ciphertext
        let t := shake256 transcript 32
        let k := shake256 (ss ++ t ++ ascii "Holcel session") 64
        let s := s.modLodge (fun l => { l with sessions := l.sessions ++
          [{ number := h.number, station := station, ka := k.take 32, kw := k.drop 32, framesIn := 0, framesOut := 0,
             last := s.ns, claim := claim, unlock := none }] })
        (s.respond f 0 []).sendStep 4 station.toNat h.number.toNat []

def State.session (s : State) (n : BitVec 16) : Option Session := s.lodge.sessions.find? (fun x => x.number == n)

/-- Ends a session, and with it the vendor unlock it held (R532, R539). -/
def State.endSession (s : State) (n : BitVec 16) : State :=
  s.modLodge (fun l => { l with
    sessions := l.sessions.filter (fun x => x.number != n), stepsIn := l.stepsIn.filter (fun x => x.session != n) })

/-- A session goes on: within 600 s of its last tagged frame, and with fewer than 65,536 frames sent by either side (R532). -/
def Session.live (x : Session) (ns : Nat) : Bool :=
  decide (ns < 600 * 10 ^ 9 + x.last ∧ x.framesIn < 65536 ∧ x.framesOut < 65536)

/-- R532: CLOSE ends a session. -/
def State.closeSession (s : State) (f : HFrame) (d : List Byte) : State :=
  if !d.isEmpty then s.respond f 0x0A02 [] else (s.respond f 0 []).endSession f.session

/-- R535: a window key is unwrapped with Kw and installed. -/
def State.wkeySet (s : State) (x : Session) (f : HFrame) (d : List Byte) : State :=
  let a := leNat (d.take 1)
  let id : BitVec 32 := BitVec.ofNat 32 (leNat (bslice d 1 4))
  let y := s.allot a
  if d.length ≠ 45 then s.respond f 0x0A02 []
  else if id = 0 ∨ 16 ≤ a then s.respond f 0x0A03 []
  else if y.enable ≠ .open_ ∨ 64 ≤ y.wkeys.length ∨ y.wkeys.any (fun k => k.1 == id) then s.respond f 0x0A04 []
  else match Config.aesUnwrap x.kw (d.drop 5) with
    | some k => (s.modAllot a (fun y => { y with wkeys := y.wkeys ++ [(id, k)] })).respond f 0 []
    | none => s.respond f 0x0A03 []

/-- R535: a window key that no window uses is deleted. -/
def State.wkeyDel (s : State) (f : HFrame) (d : List Byte) : State :=
  let a := leNat (d.take 1)
  let id : BitVec 32 := BitVec.ofNat 32 (leNat (bslice d 1 4))
  let used := (List.range 16).any (fun n => (s.srv n).windows.any (fun e =>
    e.2.allotment.val == a && e.2.auth && e.2.key == id))
  if d.length ≠ 5 then s.respond f 0x0A02 []
  else if 16 ≤ a ∨ !((s.allot a).wkeys.any (fun k => k.1 == id)) then s.respond f 0x0A03 []
  else if used then s.respond f 0x0A04 []
  else (s.modAllot a (fun y => { y with wkeys := y.wkeys.filter (fun k => k.1 != id) })).respond f 0 []

/-- R527, R533: the owner key list is replaced under a signature of a current owner, or, without one, in a claim session. -/
def State.ownersSet (s : State) (x : Session) (f : HFrame) (d : List Byte) : State :=
  let n := if x.claim then d.length else d.length - 3309
  let list := d.take n
  let sig := d.drop n
  let keys := (List.range (n / 1952)).map (fun i => bslice list (1952 * i) 1952)
  let shape := (x.claim || decide (3309 ≤ d.length)) && n % 1952 == 0 && decide (n / 1952 ≤ 4)
  let ok := x.claim || s.lodge.sec.owners.any (fun k => Config.mlDsaVerify (roleContext 2) k list sig)
  if !shape then s.respond f 0x0A02 []
  else if !ok then s.respond f 0x0A07 []
  else if s.holdupLow then s.respond f 0x0A05 []
  else ((s.modLodge (fun l => { l with sec := { l.sec with owners := keys } })).flashWrite .security 0 1).respond f 0 []

/-- What a whole session step does. Window keys are not a claim session's to set (R533). -/
def State.runStep (s : State) (step : Nat) (f : HFrame) (d : List Byte) : State :=
  match s.sessionOf (ringFrom f) with
  | some x => match step with
    | 0x10 => s.closeSession f d
    | 0x20 => if x.claim then s.respond f 0x0A01 [] else s.wkeySet x f d
    | 0x21 => if x.claim then s.respond f 0x0A01 [] else s.wkeyDel f d
    | _ => s.ownersSet x f d
  | none => if step = 1 then s.hello f d else s.accept f d

/-- A fragment of a session step (*Session steps*): steps 0x01 and 0x03 come with session 0, the others in a session. A step ends at
its first fragment shorter than 1,024 bytes; every fragment is acknowledged, one that is sent again too, and one out of order aborts
(log 124). -/
def State.stepFragment (s : State) (f : HFrame) : State :=
  let step := bits f.param.toNat 15 8
  let k := bits f.param.toNat 7 0
  let is := fun (x : StepIn) => x.station == f.src && x.session == f.session
  let c :=
    if step = 1 ∨ step = 3 then (if f.session = 0 then 0 else 0x0A04)
    else if [0x10, 0x20, 0x21, 0x30].contains step then (if s.authentic f then 0 else 0x0A07) else 0x0A03
  let x := match s.lodge.stepsIn.find? (fun x => is x && x.step == step) with
    | some x => if k = 0 then { x with next := 0, data := [], since := s.ns } else x
    | none => { station := f.src, session := f.session, step := step, next := 0, data := [], since := s.ns }
  if c ≠ 0 then s.respond f c []
  else if x.next < k then s.respond f 0x0A04 []
  else if k < x.next then s.respond f 0 []
  else
    let d := x.data ++ f.payload
    let s := s.modLodge (fun l => { l with stepsIn := l.stepsIn.filter (fun x => !is x) })
    if f.payload.length < 1024 then s.runStep step f d
    else (s.modLodge (fun l => { l with stepsIn := l.stepsIn ++ [{ x with next := k + 1, data := d }] })).respond f 0 []

/-- R532: a session without a tagged frame for 600 s, or with 65,536 frames sent by a side, ends. -/
def execSessionTimeout (session : BitVec 16) (s : State) : Res :=
  match s.session session with
  | some x => onlyIf (!x.live s.ns) s (s.endSession session)
  | none => .next s

/-- R532: a handshake left incomplete for 10 s is forgotten. -/
def execHandshakeTimeout (station : BitVec 7) (s : State) : Res :=
  .next (s.modLodge (fun l => { l with
    handshakes := l.handshakes.filter (fun h => !(h.station == station && decide (10 ^ 10 + h.since ≤ s.ns)))
    stepsIn := l.stepsIn.filter (fun x => !(x.station == station && x.session == 0 && decide (10 ^ 10 + x.since ≤ s.ns))) }))

/-! ### Reports (R536, R537) -/

/-- One report entry: kind, subject, version, digest. -/
def reportEntry (kind subject version : Nat) (digest : Nat) : BitVec 384 :=
  BitVec.ofNat 384 (2 ^ 376 * kind + 2 ^ 352 * subject + 2 ^ 320 * version + digest % 2 ^ 256)

def digestOf (d : List Byte) : Nat := leNat (shake256 d 32)

/-- The base image slots in use (R366). -/
def State.basesInUse (s : State) : List Nat :=
  below 64 (fun n => n != 0 && (s.lodge.set.activeBase.toNat == n ||
    (List.range 16).any (fun a => (s.allot a).enable == .open_ && ((s.allot a).parcel.map (·.1)) == some n)))

/-- The entries of a report, module-wide or for one allotment, in kind and then subject order. -/
def State.reportEntries (s : State) (scope : Option Nat) : List (BitVec 384) :=
  let l := s.lodge
  let as := match scope with
    | none => List.range 16
    | some a => [a]
  [reportEntry 1 0 0 (Config.measured 1).toNat, reportEntry 2 0 l.fw.version.toNat (digestOf l.fw.image),
    reportEntry 3 0 0 (digestOf ((Config.startDeck l.fw.image).map (fun c => c.2.2.2)).flatten),
    reportEntry 4 0 0 (Config.measured (4 + 256 * (l.secFuse + 65 * l.opened.toNat))).toNat, reportEntry 5 0 0 (digestOf l.sec.owners.flatten)] ++
  s.basesInUse.map (fun n => reportEntry 6 n 0 (digestOf (s.image n).content)) ++
  (as.filter (fun a => (s.allot a).overlay != 0)).map (fun a =>
    reportEntry 7 a 0 (digestOf (s.image (s.allot a).overlay.toNat).content)) ++
  (as.filter (fun a => (s.allot a).parcel.isSome)).map (fun a =>
    reportEntry 8 a 0 (digestOf ((s.allot a).chunks.map (·.data)).flatten)) ++
  (match l.drill with
    | some d => [reportEntry 9 0 d.serial.toNat (digestOf d.content)]
    | none => [])

/-- The report for a nonce: header, entries and signature. -/
def State.report (s : State) (scope : Option Nat) (nonce : List Byte) : List Byte :=
  let l := s.lodge
  let es := s.reportEntries scope
  let st := (if l.sec.debugOpened then 1 else 0) + (if l.sessions.any (fun x => match x.unlock with
      | some t => decide (s.ns < t)
      | none => false) then 2 else 0) + (if s.hasIdentity then 0 else 4) + (if l.sec.owners.isEmpty then 8 else 0)
  let header := natLE 64 (0x1C5B * 2 ^ 496 + 2 ^ 488 + (if scope.isSome then 2 ^ 480 else 0) +
    (scope.getD 0) * 2 ^ 476 + 2 ^ 464 * es.length + 2 ^ 400 * l.serial.toNat + s.ns % 2 ^ 64 * 2 ^ 336 +
    leNat nonce % 2 ^ 256 * 2 ^ 80 + 2 ^ 48 * l.opened.toNat + 2 ^ 16 * l.secFuse + st)
  let body := header ++ (es.map (fun e => natLE 48 e.toNat)).flatten
  body ++ (if s.hasIdentity then Config.mlDsaSign (roleContext 4) body else List.replicate 3309 0)

/-- A read of 0x6000:02: the report for the reader's nonce, which is spent. -/
def State.reportRead (s : State) (r : Requester) : Nat × List Byte × State :=
  let d := s.readerOf r
  match s.lodge.nonces.find? (fun e => e.1 == d) with
  | none => (0x0A04, [], s)
  | some e =>
    (0, s.report (s.mailAllot r) e.2, s.modLodge (fun l => { l with nonces := l.nonces.filter (fun x => x.1 != d) }))

/-- R537: the measurement blocks of a function's allotment scope over DOE. -/
def execGetMeasurements (h : PortIx) (f : FnIx) (mlDsa : Bool) (s : State) : Res :=
  .next (s.emit (.measurements h f (s.reportEntries (some ((s.allotOfFn h.val f.val).getD 16)))
    (mlDsa && s.hasIdentity)))

/-! ### Unlock tokens (R538–R541) -/

/-- Every allotment closes at once, as step 1 of the debug opening has it. -/
def State.closeAll (s : State) : State :=
  s.each (List.range 16) (fun s a =>
    if (s.allot a).live then
      let s := (s.modAllot a (fun x => { x with enable := .closing, claims := 0, frozen := none, frozenNext := [] })).closeSteps a
      let s := s.each (List.range 16) (fun s n =>
        s.each ((s.srv n).windows.filter (fun e => e.2.allotment.val == a)) (fun s e => s.windowEnd n e.1))
      let s := s.idleFn (s.allot a).hostPort.toNat (s.allot a).pf.toNat
      s.modAllot a (fun x => { Allot.built with
        plots := x.plots, hostPort := x.hostPort, pf := x.pf, ranges := x.ranges, weight := x.weight, attach := x.attach,
        queuePairs := x.queuePairs, failFast := x.failFast, serverPorts := x.serverPorts, bar4 := x.bar4, msix := x.msix,
        overlay := x.overlay, records := x.records })
    else s)

/-- Keys erased in the Lodge, the controllers and both flash copies (R540 step 2). -/
def SecStore.erase (x : SecStore) : SecStore := { x with identity := false }

/-- Steps 2–5 of R540. -/
def State.debugErase (s : State) : State :=
  let s := s.modLodge (fun l => { l with
    sec := { l.sec.erase with openingMark := false, debugOpened := true }, moduleKey := 0
    flashA := { l.flashA with security := { l.flashA.security.erase with debugOpened := true } }
    flashB := { l.flashB with security := { l.flashB.security.erase with debugOpened := true } } })
  let s := s.each (List.range 224) (fun s p => s.modPav p Pav.scrub)
  let s := s.each (List.range 56) (fun s p => s.modPlot p (fun x => { x with owner := none, scrubbing := false }))
  let s : State := { s with hbm := Store.empty }
  let s := (s.progressTo 0x51 1 0 1 0x6000).progressEnd 0x51 2
  let s := s.modLodge (fun l => { l with opened := satInc l.opened, jtag := true })
  (s.event 0x000C s.lodge.opened.toNat 0x6000 4 0x1F).emit .jtag

/-- R540: the debug opening, all five steps. -/
def State.debugOpening (s : State) : State :=
  let s := (s.closeAll).modLodge (fun l => { l with deal := none, dealQueue := [] })
  (if s.lodge.moduleState = 1 then s
    else (s.modLodge (fun l => { l with moduleState := 1 })).event 0x000A 1 0x2000 1 0x1F).debugErase

/-- A write of 0x6000:05: the token's checks, and its effect. Its nonce is spent by the write. -/
def State.unlockWrite (s : State) (r : Requester) (token : List Byte) : Nat × State :=
  let v := leNat (token.take 64)
  let kind := bits v 495 488
  let d := s.readerOf r
  let nonce := s.lodge.nonces.find? (fun e => e.1 == d)
  let spent := s.modLodge (fun l => { l with nonces := l.nonces.filter (fun x => x.1 != d) })
  let ok := token.length == 4160 && bits v 511 496 == 0x1C55 && (kind == 1 || kind == 2) && bits v 487 480 == 0 &&
    bits v 479 416 == s.lodge.serial.toNat && (nonce.map (fun e => leNat e.2)) == some (bits v 415 160) &&
    bits v 159 128 == s.lodge.opened.toNat && bits v 127 0 == 0 && trailerOk 3 [] token
  if !ok then (0x0A03, spent)
  else if kind = 1 then
    match s.sessionOf r with
    | some x => (0, spent.modLodge (fun l => { l with sessions := l.sessions.map (fun y =>
        if y.number = x.number then { y with unlock := some (3600 * 10 ^ 9 + s.ns) } else y) }))
    | none => (0x0A03, spent)
  else if s.holdupLow then (0x0A05, spent)
  else (0, spent.debugOpening)

end Sys2Proof.Machine
end

