-- ==== Sys2Proof/Machine/DictWrite.lean ====
section
/-! DEFINITION. What writes and reads of dictionary objects do (R126, R312, R341–R359, R364–R372, R379, R417, R444,
R473, R488, R503–R511, R524–R540), and the commands that make them. -/

namespace Sys2Proof.Machine

/-- The answer of a dictionary access. -/
def State.answer (s : State) (r : Requester) (code : Nat) (data : List Byte) : State :=
  s.emit (.answer r (BitVec.ofNat 16 code) data)

/-- A value inside its range takes effect; one outside aborts with 0x0A03. -/
def ranged (ok : Bool) (s t : State) : Nat × State := if ok then (0, t) else (0x0A03, s)

/-- A setting kept in flash (R355, R493). -/
def State.keepSet (s : State) (f : Settings → Settings) : State :=
  (s.modLodge (fun l => { l with set := f l.set })).flashWrite .settings 0 1

def listSet {α : Type} (l : List α) (i : Nat) (v : α) : List α := l.set i v

/-! ### Module-wide objects -/

def State.anyLive (s : State) : Bool := (List.range 16).any (fun a => (s.allot a).live)

def State.toState (s : State) (n : Nat) : State :=
  (s.modLodge (fun l => { l with moduleState := BitVec.ofNat 8 n })).event 0x000A n 0x2000 1 0x1F

/-- A write of 0x2000:01 (R355, R509). -/
def State.moduleWrite (s : State) (n : Nat) : Nat × State :=
  let st := s.lodge.moduleState.toNat
  if n ≠ 1 ∧ n ≠ 3 then (0x0A03, s)
  else if st = 0 then (0x0A04, s)
  else if n = 1 then
    if st = 1 then (0, s)
    else if st = 2 then (0x0A06, s)
    else if (List.range 16).all (fun a => (s.allot a).jobs.isEmpty) then (0, s.toState 1)
    else (0x0A06, s.toState 2)
  else if st = 3 then (0, s)
  else if st = 1 ∧ !s.anyLive then (0, s.computeReset)
  else (0, s.toState 3)

/-- A station number takes effect and is stored (R337). -/
def State.setStation (s : State) (n : Nat) : State := s.keepSet (fun x => { x with station := BitVec.ofNat 8 n })

/-- An assignment of 9 bytes, serial number and station (R337): only an unassigned module with that serial takes it. -/
def State.assigned (s : State) (v : List Byte) : Bool :=
  s.lodge.set.station == 0x7E && v.length == 9 && leNat (v.take 8) == s.lodge.serial.toNat && decide (leNat (v.drop 8) ≤ 63)

def State.ringWrite (s : State) (sub n : Nat) (v : List Byte) : Nat × State :=
  match sub with
  | 1 => ranged (decide (n ≤ 63) || n == 0x7E) s (s.setStation n)
  | 2 => (0, if s.assigned v then s.setStation (leNat (v.drop 8)) else s)
  | 5 => ranged (decide (100 ≤ n ∧ n ≤ 10000)) s (s.keepSet (fun x => { x with watchdog := BitVec.ofNat 16 n }))
  | 6 => ranged (decide (n ≤ 63)) s (s.modLodge (fun l => { l with timeMaster := BitVec.ofNat 8 n }))
  | _ => ranged (decide (31 ≤ n ∧ n ≤ 1000)) s (s.modLodge (fun l => { l with syncInterval := BitVec.ofNat 16 n }))

def State.settingWrite (s : State) (sub n : Nat) : Nat × State :=
  let b := BitVec.ofNat 8 n
  match sub with
  | 1 => s.moduleWrite n
  | 2 => ranged (decide (n ≤ 1)) s (s.keepSet (fun x => { x with autoStart := b }))
  | 3 => ranged (decide (12 ≤ n ∧ n ≤ 24)) s (s.modLodge (fun l => { l with forecastWindow := b }))
  | 4 => ranged (decide (6 ≤ n ∧ n ≤ 16)) s (s.modLodge (fun l => { l with forecastThreshold := b }))
  | 5 => ranged (decide (16 ≤ n ∧ n ≤ 30)) s (s.modLodge (fun l => { l with stallLimit := b }))
  | 6 => ranged (decide (12 ≤ n ∧ n ≤ 28)) s (s.modLodge (fun l => { l with tagTimeout := b }))
  | 7 => ranged (decide (16 ≤ n ∧ n ≤ 28)) s (s.modLodge (fun l => { l with skewTimeout := b }))
  | 8 => ranged (decide (10000 ≤ n ∧ n ≤ 10000000)) s
      (s.modLodge (fun l => { l with landingTimeout := BitVec.ofNat 32 n }))
  | 9 => ranged (decide (n ≤ 1)) s (s.keepSet (fun x => { x with hbmTraining := b }))
  | _ => ranged (decide (n ≤ 1)) s (s.keepSet (fun x => { x with laneRetrain := b }))

/-! ### Plots and pavilions (R350–R354, R488, R511) -/

/-- A shuffle of the allotment that holds a plot is running (R467). -/
def State.shuffleIn (s : State) (plot : Nat) : Bool :=
  match s.ownerOf plot with
  | some a => ((s.allot a).frozen.map (·.shuffle)).getD false
  | none => false

/-- A write of a plot's enable. -/
def State.plotWrite (s : State) (p n : Nat) (failedDrill : List Nat) : Nat × State :=
  let put := fun (e : Enable) => s.modPlot p (fun x => { x with enable := e })
  match n, (s.plot p).enable with
  | 0, .open_ => (0, if s.shuffleIn p then put .closing else (put .closing).closePlot p)
  | 0, .opening => (0, (put .closed).modPlot p (fun x => { x with pendOpen := false }))
  | 0, .closingPending => (0, put .closing)
  | 0, .failed => (0, put .closed)
  | 0, _ => (0, s)
  | 1, .closed => (0, s.openPlot p failedDrill)
  | 1, .closing => (0x0A06, put .closingPending)
  | 1, .closingPending => (0x0A06, s)
  | 1, .failed => (0x0A04, s)
  | 1, _ => (0, s)
  | _, _ => (0x0A03, s)

/-- A write of a pavilion's enable. -/
def State.pavWrite (s : State) (p n : Nat) (drillOk : Bool) : Nat × State :=
  let put := fun (e : Enable) => s.modPav p (fun x => { x with enable := e })
  if n ≤ 1 ∧ s.lodge.computeReset then (0x0A04, s) else
  match n, (s.pav p).enable with
  | 0, .open_ => (0, if s.shuffleIn (plotOf p) then put .closing else s.closePav p)
  | 0, .opening => (0, s.closePav p)
  | 0, .closingPending => (0, put .closing)
  | 0, .failed => (0, put .closed)
  | 0, _ => (0, s)
  | 1, .closed => if (s.pav p).role = .retired then (0, put .failed) else (0, s.openPav p drillOk)
  | 1, .closing => (0x0A06, put .closingPending)
  | 1, .closingPending => (0x0A06, s)
  | 1, .failed => (0x0A04, s)
  | 1, _ => (0, s)
  | _, _ => (0x0A03, s)

/-- Re-arming forecast slots clears their counts (R126). -/
def State.rearm (s : State) (p : Nat) (bits : BitVec 64) : State :=
  s.modPav p (fun x => { x with forecast := x.forecast.filter (fun e => !bits.getLsbD e.1) })

/-! ### Allotments -/

/-- The chunks of the allotment's parcel with the overlay now selected, in force for chunk types 0x05–0x07, 0x0A,
0x0C and 0x0D. A type 0x08 that the overlay brings or takes away waits for the end of a pavilion's run, and type 0x09
for the next setting of full/empty mode (R223, R246, R371). -/
def State.takeOverlay (s : State) (a : Nat) : State :=
  match (s.allot a).parcel with
  | some (b, k) =>
    let old := s.allot a
    let cs := old.withAlternates (s.parcelChunks a b k)
    let own := (imgChunks (s.image old.overlay.toNat).content).filter (fun c => c.parcel.toNat == k && c.ty == 8)
    let s := s.modAllot a (fun x => { x with
      chunks := cs, overlayPending := none
      sections := if x.sectionActive && x.sections.length == (sectionList cs).length || !x.sectionActive
        then sectionList cs else x.sections })
    let newly := fun (t : Nat) => (old.overlay != 0 && own.any (fun c => c.target.toNat == t)) ||
      (old.chunksOf t).filter (·.ty == 8) != ((s.allot a).chunksOf t).filter (·.ty == 8)
    s.each ((s.runners a).filter (fun e => newly e.1)) (fun s e =>
      if (s.pav e.2).seq.running then s.modPav e.2 (fun v => { v with settingsDue := true })
      else s.settingsPav e.2 ((s.allot a).chunksOf e.1))
  | none => s

/-- A write of 0x2400+a:0D (R370, R371). -/
def State.overlayWrite (s : State) (a n : Nat) : Nat × State :=
  let c := s.overlayCheck a n
  let x := s.allot a
  if c ≠ 0 then (c, s)
  else
    let s := s.modAllot a (fun y => { y with overlay := BitVec.ofNat 8 n })
    if x.enable ≠ .open_ then (0, s)
    else if s.parcelFor a = x.parcel then
      let s := s.modAllot a (fun y => { y with overlayPending := some (BitVec.ofNat 8 n), redealDue := false })
      (0, if x.launchJob.isSome then s else s.takeOverlay a)
    else (0, s.modAllot a (fun y => { y with overlayPending := none, redealDue := true }))

/-- A write of 0x2400+a:07 (R312, R382): checked while live, in force at the next section boundary. -/
def State.attachWrite (s : State) (a n : Nat) : Nat × State :=
  let x := s.allot a
  if 1 < n then (0x0A03, s)
  else if x.live && n == 1 && !s.directOk x.plots then (0x0A04, s)
  else if x.launchJob.isSome then (0, s.modAllot a (fun y => { y with attachPending := some (BitVec.ofNat 8 n) }))
  else (0, s.modAllot a (fun y => { y with attach := BitVec.ofNat 8 n, attachPending := none }))

/-- A write of 0x2400+a:0A (R382, R417): a port leaves with its windows. -/
def State.portsWrite (s : State) (a : Nat) (v : BitVec 16) : Nat × State :=
  let x := s.allot a
  if x.live && (List.range 16).any (fun b => b != a && (s.allot b).live && (s.allot b).serverPorts &&& v != 0) then
    (0x0A04, s)
  else
    let s := s.each (below 16 (fun n => x.serverPorts.getLsbD n && !v.getLsbD n))
      (fun s n => s.closeWindows n (fun w => w.allotment.val == a))
    (0, s.modAllot a (fun y => { y with serverPorts := v }))

/-- The 16 range entries of 0x2400+a:05. -/
def rangesOf (v : List Byte) : List (BitVec 32 × BitVec 32) :=
  (List.range 16).map (fun i => (BitVec.ofNat 32 (leNat (bslice v (8 * i) 4)), BitVec.ofNat 32 (leNat (bslice v (8 * i + 4) 4))))

def State.allotWriteObj (s : State) (a sub n : Nat) (v : List Byte) : Nat × State :=
  let x := s.allot a
  let whenClosed := fun (ok : Bool) (f : Allot → Allot) =>
    if x.enable ≠ .closed then (0x0A04, s) else ranged ok s (s.modAllot a f)
  match sub with
  | 1 =>
    if 1 < n then (0x0A03, s)
    else if s.lodge.computeReset then (0x0A04, s)
    else if n = 1 then s.allotEnable a else s.allotDisable a
  | 2 => whenClosed (decide (n < 2 ^ 56)) (fun y => { y with plots := BitVec.ofNat 64 n })
  | 3 => whenClosed (decide (n ≤ 3)) (fun y => { y with hostPort := BitVec.ofNat 8 n })
  | 4 => whenClosed (decide (n ≤ 7)) (fun y => { y with pf := BitVec.ofNat 8 n })
  | 5 => whenClosed true (fun y => { y with ranges := rangesOf v })
  | 6 => ranged (decide (1 ≤ n)) s (s.modAllot a (fun y => { y with weight := BitVec.ofNat 8 n }))
  | 7 => s.attachWrite a n
  | 8 => whenClosed (decide (n ≤ 65536)) (fun y => { y with queuePairs := BitVec.ofNat 32 n })
  | 9 => ranged (decide (n ≤ 1)) s (s.modAllot a (fun y => { y with failFast := BitVec.ofNat 8 n }))
  | 10 => s.portsWrite a (BitVec.ofNat 16 n)
  | 11 => whenClosed (n == 0 || decide (20 ≤ n ∧ n ≤ 36)) (fun y => { y with bar4 := BitVec.ofNat 8 n })
  | 12 => whenClosed (decide (1 ≤ n ∧ n ≤ 2048)) (fun y => { y with msix := BitVec.ofNat 16 n })
  | _ => s.overlayWrite a n

/-- When no job remains after an overlay of another base parcel, the new parcel is dealt, and then takes effect and the
held commands start (R371). Doubling ends with the old parcel (R466). -/
def execParcelRedeal (a : AllotIx) (s : State) : Res :=
  let x := s.allot a.val
  let inDeal := s.lodge.dealQueue.contains a || (s.lodge.deal.map (·.allotment)) == some (some a)
  if x.enable != .open_ || !x.redealDue || !x.jobs.isEmpty then .next s
  else if !x.dealing && (s.parcelFor a.val).isSome then
    .next ((s.modAllot a.val (fun y => { y with dealing := true })).modLodge (fun l =>
      { l with dealQueue := l.dealQueue ++ [a] }))
  else if inDeal then .next s
  else
    let s := s.endDoublings (s.pavsOfAllot a.val)
    let s := s.modAllot a.val (fun y => { y with
      redealDue := false, dealing := false, spills := [], pavMap := y.pavMap.filter (fun m => !m.doubled) })
    let s := s.putParcel a.val
    .next ((s.replaceFailed a.val (fun p => !(s.allot a.val).unused p)).startHeld a.val)

/-! ### Ports -/

/-- Quiesces a function (R378): fetching stops, its commands end without completions, queues and event ring close, and
the BAR4 window registers reset. -/
def State.quiesceFn (s : State) (h f : Nat) : State :=
  let s := match s.allotOfFn h f with
    | some a =>
      let s := if (s.allot a).launchJob.isSome then (s.stopIssue a).endRuns a else s
      (s.modAllot a (fun x => { x with
        jobs := [], sectionActive := false, frozen := none, frozenNext := []
        queues := x.queues.map (fun (e : Nat × Queue) => (e.1, { e.2 with
          state := .closed, err := 0, cmds := [], kept := [], deficit := 0, uncoalesced := 0 })) })).settleStop
    | none => s
  s.modFn h f (fun x => { x with evqCtrl := x.evqCtrl &&& 0x7FFFFFFF, w4ctrl := 0, w4base := 0 })

/-- Every function of a port (R378). -/
def State.quiescePort (s : State) (h : Nat) : State := s.each (List.range 8) (fun s f => s.quiesceFn h f)

/-- The smallest power of two from 4 KiB to 512 KiB that holds n bytes (R380). -/
def bar2Size (n : Nat) : Nat := ((List.range 8).map (fun k => 4096 * 2 ^ k)).find? (fun b => decide (n ≤ b)) |>.getD 524288

/-- The allotment whose sizes a function latches: the lowest-numbered one that names it and has plots (R377). -/
def State.latchFrom (s : State) (h f : Nat) : Option Nat :=
  (List.range 16).find? (fun a => (s.allot a).hostPort.toNat == h && (s.allot a).pf.toNat == f && (s.allot a).plots != 0)

/-- A conventional reset latches the BAR sizes of every function of the port (R377). -/
def State.latchBars (s : State) (h : Nat) : State :=
  s.each (List.range 8) (fun s f => s.modFn h f (fun x => match s.latchFrom h f with
    | some a => { x with bar2 := bar2Size (8 * (s.allot a).queuePairs.toNat), bar4 := (s.allot a).bar4.toNat }
    | none => { x with bar2 := 4096, bar4 := 0 }))

/-- A write of a host port's enable (R379); the link goes down, which is a conventional reset (R378). -/
def State.hostPortWrite (s : State) (h n : Nat) : Nat × State :=
  match n, (s.hostPort h).enable with
  | 0, .open_ => (0, ((s.quiescePort h).modHost h (fun x => { x with enable := .closed, linkUp := false })).latchBars h)
  | 0, .failed => (0, s.modHost h (fun x => { x with enable := .closed }))
  | 0, _ => (0, s)
  | 1, .closed => (0, s.modHost h (fun x => { x with enable := .open_ }))
  | 1, .failed => (0x0A04, s)
  | 1, _ => (0, s)
  | _, _ => (0x0A03, s)

/-- A write of a server port's enable (R400, R417). -/
def State.srvWrite (s : State) (n v : Nat) : Nat × State :=
  let put := fun (e : Enable) => s.modSrv n (fun x => { x with enable := e })
  match v, (s.srv n).enable with
  | 0, .open_ => (0, ((put .closing).closeWindows n (fun _ => true)).settleSrv n)
  | 0, .closingPending => (0, put .closing)
  | 0, .failed => (0, put .closed)
  | 0, _ => (0, s)
  | 1, .closed => (0, put .open_)
  | 1, .closing => (0x0A06, put .closingPending)
  | 1, .closingPending => (0x0A06, s)
  | 1, .failed => (0x0A04, s)
  | 1, _ => (0, s)
  | _, _ => (0x0A03, s)

/-! ### Images, packages, firmware -/

/-- A slot in use (R366). -/
def State.slotInUse (s : State) (n : Nat) : Bool :=
  s.lodge.set.activeBase.toNat == n ||
  (List.range 16).any (fun a => ((s.allot a).enable == .open_ && ((s.allot a).parcel.map (·.1)) == some n) ||
    (s.allot a).overlay.toNat == n)

def State.imageFits (s : State) (n len : Nat) : Bool :=
  decide (s.imageBytes - (s.image n).content.length + len ≤ 67108864)

/-- 64 KiB sectors of a length (R494). -/
def sectorsOf (len : Nat) : Nat := (65535 + len) / 65536

/-- An image has been stored whole: the slot reads writing, and both flash copies follow (R364, R365). -/
def State.storeImage (s : State) (n : Nat) (d : List Byte) (writer : Option AllotIx) : State :=
  ((s.modLodge (fun l => { l with images := tset l.images n { content := d, status := 1, writer := writer } })).flashWrite
    .images n (sectorsOf d.length)).progressTo 0x50 1 0 d.length (0x4000 + n)

/-- A write of an image slot from the ring (R365). -/
def State.imageWrite (s : State) (n : Nat) (d : List Byte) : Nat × State :=
  if !s.imageFits n d.length then (0x0A03, s)
  else if s.slotInUse n then (0x0A04, s)
  else if s.holdupLow then (0x0A05, s)
  else (0, s.storeImage n d none)

def State.packageWrite (s : State) (d : List Byte) : Nat × State :=
  if 16 * 2 ^ 20 < d.length then (0x0A03, s)
  else (0, (s.modLodge (fun l => { l with drillNew := some d, drillStatus := 1 })).progressTo 0x50 1 0 d.length 0x5100)

/-- Lodge firmware of an image. -/
def firmwareOf (d : List Byte) : Firmware :=
  { image := d, version := Config.fwVersion d, secver := BitVec.ofNat 32 (trailerSecver d) }

/-- R526: the image must pass R524 in role 0; it is written to both copies and runs from the next module reset. -/
def State.firmwareWrite (s : State) (d : List Byte) : Nat × State :=
  if !trailerOk 0 [] d ∨ 8 * 2 ^ 20 < d.length then (0x0A03, s)
  else if s.holdupLow then (0x0A05, s)
  else (0, (s.modLodge (fun l => { l with fwNext := some (firmwareOf d) })).flashWrite .firmware 0 (sectorsOf d.length))

def State.eraseWrite (s : State) (n v : Nat) : Nat × State :=
  if 1 < v then (0x0A03, s)
  else if v = 0 then (0, s)
  else if s.slotInUse n then (0x0A04, s)
  else (0, s.emptySlot n)

/-- Every position becomes the number that the next record takes; lost counts stay (R356). -/
def State.clearLog (s : State) : State :=
  s.modLodge (fun l => { l with
    log := []
    readers := allReaders.map (fun d => (d, { (aget ReaderPos.start l.readers d) with
      position := match d with
        | .station _ => l.nextRecord
        | .mailbox a => (s.allot a).records + 1 })) })

def State.setPosition (s : State) (r : Requester) (n : Nat) : State :=
  let d := s.readerOf r
  s.modLodge (fun l => { l with readers := aset l.readers d { (aget ReaderPos.start l.readers d) with position := n } })

def State.setNonce (s : State) (r : Requester) (v : List Byte) : State :=
  let d := s.readerOf r
  s.modLodge (fun l => { l with nonces := l.nonces.filter (fun e => e.1 != d) ++ [(d, v)] })

/-! ### Writes -/

/-- What a write that passes the checks of R346–R348 does. Objects "block write only" take block writes alone. -/
def State.writeObject (s : State) (r : Requester) (i sub : Nat) (v : List Byte) (block : Bool) : Nat × State :=
  let n := leNat v
  if blockOnly i sub && !block then (0x0A01, s)
  else if i = 0x1100 then s.ringWrite sub n v
  else if i = 0x1800 then
    if sub = 1 then ranged (decide (n ≤ 63) || n == 0x7F) s (s.keepSet (fun x => { x with eventStation := BitVec.ofNat 8 n }))
    else (0, s.modLodge (fun l => { l with eventMask := BitVec.ofNat 64 n }))
  else if i = 0x2000 then s.settingWrite sub n
  else if 0x2100 ≤ i ∧ i < 0x2138 then s.plotWrite (i - 0x2100) n []
  else if 0x2200 ≤ i ∧ i < 0x22E0 then
    if sub = 2 then s.pavWrite (i - 0x2200) n true else (0, s.rearm (i - 0x2200) (BitVec.ofNat 64 n))
  else if 0x2400 ≤ i ∧ i < 0x2410 then s.allotWriteObj (i - 0x2400) sub n v
  else if 0x2500 ≤ i ∧ i < 0x2504 then
    let h := i - 0x2500
    match sub with
    | 1 => s.hostPortWrite h n
    | 3 => ranged (decide (n ≤ 1)) s ((s.keepSet (fun x => { x with l0p := listSet x.l0p h (BitVec.ofNat 8 n) })).modHost h
        (fun x => { x with l0p := n == 1 }))
    | _ => ranged (decide (n ≤ 1)) s ((s.keepSet (fun x => { x with ide := listSet x.ide h (BitVec.ofNat 8 n) })).modHost h
        (fun x => { x with ide := n == 1 }))
  else if 0x2510 ≤ i ∧ i < 0x2520 then
    let k := i - 0x2510
    match sub with
    | 1 => ranged (decide (n ≤ 1)) s ((s.keepSet (fun x => { x with srvMode := listSet x.srvMode k (BitVec.ofNat 8 n) })).modSrv k
        (fun x => { x with mode := BitVec.ofNat 8 n }))
    | 2 => s.srvWrite k n
    | 3 => ranged (decide (0x600 ≤ n)) s (s.modSrv k (fun x => { x with ethertype := BitVec.ofNat 16 n }))
    | _ =>
      let m := BitVec.ofNat 48 (beNat v)
      (0, (s.keepSet (fun x => { x with srvMac := listSet x.srvMac k m })).modSrv k (fun x => { x with mac := m }))
  else if i = 0x3000 then
    ranged (decide (16000 ≤ n ∧ n ≤ 46000)) s (s.keepSet (fun x => { x with powerCap := BitVec.ofNat 32 n }))
  else if i = 0x3100 then
    if sub = 1 then ranged (decide (560 ≤ n ∧ n ≤ 760)) s (s.modLodge (fun l => { l with warn := BitVec.ofNat 32 n }))
    else (0, s.modLodge (fun l => { l with shed := BitVec.ofNat 32 n }))
  else if i = 0x4000 then ranged (decide (n ≤ 63)) s (s.keepSet (fun x => { x with activeBase := BitVec.ofNat 8 n }))
  else if 0x4000 < i ∧ i < 0x4040 then
    if sub = 3 then s.imageWrite (i - 0x4000) v else s.eraseWrite (i - 0x4000) n
  else if i = 0x5080 then
    if sub = 2 then (0, s.setPosition r n)
    else if 1 < n then (0x0A03, s) else (0, if n = 1 then s.clearLog else s)
  else if i = 0x5100 then
    if sub = 1 then ranged (decide (60 ≤ n ∧ n ≤ 86400)) s (s.modLodge (fun l => { l with drillInterval := BitVec.ofNat 32 n }))
    else s.packageWrite v
  else if i = 0x6000 then
    if sub = 1 then (0, s.setNonce r v) else s.unlockWrite r v
  else if sub = 1 ∧ block then s.firmwareWrite v
  else (0, s)

/-- A dictionary write with its checks: the abort code, 0 for success, and the state. -/
def State.dictWrite (s : State) (r : Requester) (i sub : Nat) (v : List Byte) (block : Bool) : Nat × State :=
  let c := s.writeCheck r i sub v.length
  if c ≠ 0 then (c, s) else s.writeObject r i sub v block

/-- A write whose answer is an output (R348). -/
def State.putObject (s : State) (r : Requester) (i sub : Nat) (v : List Byte) : State :=
  let w := s.dictWrite r i sub v false
  w.2.answer r w.1 []

/-- A write that carries out `f` after the checks. -/
def State.putWith (s : State) (r : Requester) (i sub len : Nat) (f : State → Nat × State) : State :=
  let c := s.writeCheck r i sub len
  let w := if c ≠ 0 then (c, s) else f s
  w.2.answer r w.1 []

/-! ### Reads -/

/-- A read with its checks and read effects: abort code, data, state. What a vendor test object reads as is free (log 97). -/
def State.dictRead (s : State) (r : Requester) (i sub : Nat) : Nat × List Byte × State :=
  let c := s.readCheck r i sub
  if c ≠ 0 then (c, [], s)
  else if i = 0x5080 ∧ sub = 3 then s.logRead (s.readerOf r)
  else if i = 0x5080 ∧ sub = 4 then let w := s.lostRead (s.readerOf r); (0, w.1, w.2)
  else if i = 0x6000 ∧ sub = 2 then s.reportRead r
  else if i = 0x7F00 ∧ sub ≠ 0 then let f := s.fresh; (0, natLE 8 (Config.free64 f.1).toNat, f.2)
  else (0, s.objValue r i sub, if clearsOnRead i sub then s.clearCounter i sub else s)

def State.getObject (s : State) (r : Requester) (i sub : Nat) : State :=
  let w := s.dictRead r i sub
  w.2.2.answer r w.1 w.2.1

/-! ### The commands -/

/-- R345–R349: a write of an object. -/
def execObjectWrite (r : Requester) (index : BitVec 16) (sub : BitVec 8) (v : List Byte) (s : State) : Res :=
  .next (s.putObject r index.toNat sub.toNat v)

/-- R346: a read of a counter marked "cleared when read". -/
def execCounterReadClear (r : Requester) (index : BitVec 16) (sub : BitVec 8) (s : State) : Res :=
  onlyIf (clearsOnRead index.toNat sub.toNat) s (s.getObject r index.toNat sub.toNat)

/-- R355: a write of 1 to 0x2000:01. -/
def execModuleStop (r : Requester) (s : State) : Res := .next (s.putObject r 0x2000 1 [1])

/-- R509: a write of 3 to 0x2000:01. -/
def execModuleOperate (r : Requester) (s : State) : Res := .next (s.putObject r 0x2000 1 [3])

/-- R351, R382, R383: a write of 1 to an allotment's enable. -/
def execAllotmentOpen (r : Requester) (a : AllotIx) (s : State) : Res := .next (s.putObject r (0x2400 + a.val) 1 [1])

/-- R352, R384: a write of 0 to an allotment's enable. -/
def execAllotmentClose (r : Requester) (a : AllotIx) (s : State) : Res := .next (s.putObject r (0x2400 + a.val) 1 [0])

/-- R488: a write of 0 to a plot's enable. -/
def execPlotDisable (r : Requester) (p : PlotIx) (s : State) : Res := .next (s.putObject r (0x2100 + p.val) 1 [0])

/-- R488: a write of 1 to a plot's enable, with the pavilions that fail their drill. -/
def execPlotEnable (r : Requester) (p : PlotIx) (failedDrill : List (Fin 4)) (s : State) : Res :=
  .next (s.putWith r (0x2100 + p.val) 1 1 (fun s => s.plotWrite p.val 1 (failedDrill.map (·.val))))

/-- R511: a write of 0 to a pavilion's enable. -/
def execPavilionDisable (r : Requester) (p : PavIx) (s : State) : Res := .next (s.putObject r (0x2200 + p.val) 2 [0])

/-- R511: a write of 1 to a pavilion's enable, with what its drills found. -/
def execPavilionEnable (r : Requester) (p : PavIx) (drillOk : Bool) (s : State) : Res :=
  .next (s.putWith r (0x2200 + p.val) 2 1 (fun s => s.pavWrite p.val 1 drillOk))

/-- R379: a write of 0 to a host port's enable. -/
def execHostPortDisable (r : Requester) (h : PortIx) (s : State) : Res := .next (s.putObject r (0x2500 + h.val) 1 [0])

/-- R379: a write of 1 to a host port's enable. -/
def execHostPortEnable (r : Requester) (h : PortIx) (s : State) : Res := .next (s.putObject r (0x2500 + h.val) 1 [1])

/-- R417: a write of 0 to a server port's enable. -/
def execServerPortDisable (r : Requester) (n : SrvIx) (s : State) : Res := .next (s.putObject r (0x2510 + n.val) 2 [0])

/-- R400: a write of 1 to a server port's enable. -/
def execServerPortEnable (r : Requester) (n : SrvIx) (s : State) : Res := .next (s.putObject r (0x2510 + n.val) 2 [1])

/-- R126: a write of 0x2200+i:09. -/
def execForecastRearm (r : Requester) (p : PavIx) (bits : BitVec 64) (s : State) : Res :=
  .next (s.putObject r (0x2200 + p.val) 9 (natLE 8 bits.toNat))

/-- R370, R371: a write of 0x2400+a:0D. -/
def execOverlaySelect (r : Requester) (a : AllotIx) (slot : BitVec 8) (s : State) : Res :=
  .next (s.putObject r (0x2400 + a.val) 13 [slot])

/-- R312: a write of 0x2400+a:07. -/
def execAttachWrite (r : Requester) (a : AllotIx) (v : BitVec 8) (s : State) : Res :=
  .next (s.putObject r (0x2400 + a.val) 7 [v])

/-- R417: a write of 0x2400+a:0A. -/
def execServerPortsWrite (r : Requester) (a : AllotIx) (v : BitVec 16) (s : State) : Res :=
  .next (s.putObject r (0x2400 + a.val) 10 (natLE 2 v.toNat))

/-- R473: a write of 0x3000:01. -/
def execPowerCapWrite (r : Requester) (v : BitVec 32) (s : State) : Res := .next (s.putObject r 0x3000 1 (natLE 4 v.toNat))

/-- R367: a write of 0x4000:03. -/
def execActiveBaseWrite (r : Requester) (v : BitVec 8) (s : State) : Res := .next (s.putObject r 0x4000 3 [v])

/-- R355: a write of 0x4000+n:06; slot 0 is no slot. -/
def execImageErase (r : Requester) (n : Fin 64) (v : BitVec 8) (s : State) : Res :=
  .next (s.putObject r (0x4000 + n.val) 6 [v])

/-- R365, R528: the signature check of a stored image ends. -/
def execImageCheckDone (n : Fin 64) (s : State) : Res :=
  let im := s.image n.val
  let stored := !s.lodge.flashJobs.any (fun j => j.region == .images && j.slot == n.val)
  if im.status = 1 ∧ stored then
    let ok := trailerOk 2 s.lodge.sec.owners im.content && imgOk im.content
    let s := s.modLodge (fun l => { l with images := tset l.images n.val { im with status := if ok then 2 else 3 } })
    .next (s.progressEnd 0x50 (if ok then 2 else 3))
  else .next s

/-- R356: a read of 0x5080:03. -/
def execLogRecordRead (r : Requester) (s : State) : Res := .next (s.getObject r 0x5080 3)

/-- R356: a write of 0x5080:02. -/
def execLogPositionWrite (r : Requester) (v : BitVec 32) (s : State) : Res := .next (s.putObject r 0x5080 2 (natLE 4 v.toNat))

/-- R356: a read of 0x5080:04. -/
def execLogLostRead (r : Requester) (s : State) : Res := .next (s.getObject r 0x5080 4)

/-- R356: a write of 0x5080:05. -/
def execLogClear (r : Requester) (v : BitVec 8) (s : State) : Res := .next (s.putObject r 0x5080 5 [v])

/-- R536: a write of 0x6000:01. -/
def execNonceWrite (r : Requester) (nonce : List Byte) (s : State) : Res :=
  .next (s.putObject r 0x6000 1 nonce)

/-- R536: a read of 0x6000:02. -/
def execReportRead (r : Requester) (s : State) : Res := .next (s.getObject r 0x6000 2)

/-- R538, R539: a service token written to 0x6000:05. -/
def execServiceUnlock (r : Requester) (token : List Byte) (s : State) : Res := .next (s.putObject r 0x6000 5 token)

/-- R539: the service unlock ends after 1 hour. -/
def execServiceUnlockExpiry (s : State) : Res :=
  .next (s.modLodge (fun l => { l with sessions := l.sessions.map (fun x => { x with
    unlock := x.unlock.filter (fun t => decide (s.ns < t)) }) }))

/-- R538, R540: a debug-open token written to 0x6000:05. -/
def execDebugOpen (r : Requester) (token : List Byte) (s : State) : Res := .next (s.putObject r 0x6000 5 token)

/-- R526: a block write of 0x7F00:01 under a service unlock. -/
def execFirmwareWrite (r : Requester) (image : List Byte) (s : State) : Res :=
  let w := s.dictWrite r 0x7F00 1 image true
  .next (w.2.answer r w.1 [])

/-- The header of a drill package (R444): magic, version and reserved bits hold; serial; lowest firmware. -/
def packageHead (d : List Byte) : Bool × Nat × Nat :=
  let v := leNat (d.take 32)
  (bits v 255 240 == 0x1C5D && bits v 239 232 == 1 && bits v 151 0 == 0 && decide (1 ≤ bits v 231 200) &&
    decide (1 ≤ bits v 167 152 ∧ bits v 167 152 ≤ 4096), bits v 231 200, bits v 199 168)

/-- R444: the check of a written drill package ends. -/
def execDrillPackageCheckDone (s : State) : Res :=
  match s.lodge.drillNew with
  | none => .next s
  | some d =>
    let h := packageHead d
    let inUse := (s.lodge.drill.map (fun x => x.serial.toNat)).getD 0
    let ok := h.1 && trailerOk 1 [] d && decide (inUse < h.2.1) && decide (h.2.2 ≤ s.lodge.fw.version.toNat)
    if ok then
      let s := s.modLodge (fun l => { l with
        drill := some { content := d, serial := BitVec.ofNat 32 h.2.1 }, drillNew := none, drillStatus := 2 })
      .next ((s.flashWrite .drill 0 (sectorsOf d.length)).progressEnd 0x50 2)
    else .next ((s.modLodge (fun l => { l with drillNew := none, drillStatus := 3 })).progressEnd 0x50 3)

end Sys2Proof.Machine
end

