-- ==== Sys2Proof/Machine/Host.lean ====
section
/-! DEFINITION. Host functions: mailbox, BAR0 registers, event ring, queue pairs, doorbells, fetching and the BAR4
window (R358, R359, R376–R381, R386–R390, R397, R398). -/

namespace Sys2Proof.Machine

/-! ### Access to a function -/

/-- The function's port is enabled and its link up (R376, R378). -/
def State.fnUp (s : State) (h _f : Nat) : Bool :=
  (s.hostPort h).linkUp && (s.hostPort h).enable == .open_ && !(s.hostPort h).perst

/-- The module has reached Ready and is not Starting (R378, R503). -/
def Lodge.isReady (l : Lodge) : Bool := l.phase == .ready && l.moduleState != 0

/-- The open allotment whose PF a function is (R376, R383). -/
def State.openFn (s : State) (h f : Nat) : Option Nat :=
  (s.allotOfFn h f).filter (fun a => (s.allot a).enable == .open_)

def State.portCount (s : State) (h i : Nat) : State :=
  s.modHost h (fun x => { x with errors := tmod 0 x.errors i satInc })

/-! ### Mailbox (R358, R359) -/

def mbxKey (ctrl : BitVec 32) : Nat := bits ctrl.toNat 15 0 * 256 + bits ctrl.toNat 23 16

/-- Place of a multi-piece read's value among the gathered pieces. -/
def mbxReadKey (ctrl : BitVec 32) : Nat := 2 ^ 24 + mbxKey ctrl

/-- MBX_STATUS reads done with an abort code; MBX_CTRL keeps what was written. -/
def State.mbxDone (s : State) (h f : Nat) (ctrl : BitVec 32) (code : Nat) : State :=
  s.modFn h f (fun x => { x with mbxCtrl := ctrl, mbxStatus := BitVec.ofNat 32 (2 ^ 30 + code) })

/-- A piece of an object is read. The value is taken at offset 0, or where no earlier piece has taken one, and serves the pieces that
follow (log 126). -/
def State.mbxRead (s : State) (h : PortIx) (f : FnIx) (ctrl : BitVec 32) : State :=
  let x := s.fn h.val f.val
  let len := x.mbxLength.toNat
  let off := x.mbxOffset.toNat
  let r := Requester.mailbox h f
  let give := fun (s : State) (d : List Byte) =>
    let piece := (d.drop off).take len
    (s.modFn h.val f.val (fun y => { y with
      mbxData := memWrite y.mbxData 0 piece, mbxLength := BitVec.ofNat 32 piece.length
      mbxGather := if off + len < d.length then tset y.mbxGather (mbxReadKey ctrl) d
        else tdel y.mbxGather (mbxReadKey ctrl) })).mbxDone h.val f.val ctrl 0
  if len < 1 ∨ 4096 < len then s.mbxDone h.val f.val ctrl 0x0A02
  else match (if off = 0 then none else tget? x.mbxGather (mbxReadKey ctrl)) with
    | some d => give s d
    | none =>
      let w := s.dictRead r (bits ctrl.toNat 15 0) (bits ctrl.toNat 23 16)
      if w.1 ≠ 0 then w.2.2.mbxDone h.val f.val ctrl w.1 else give w.2.2 w.2.1

/-- R358: MBX_CTRL is written with go = 1 and write = 0. -/
def execMailboxRead (h : PortIx) (f : FnIx) (ctrl : BitVec 32) (s : State) : Res :=
  onlyIf (s.fnUp h.val f.val && ctrl.getLsbD 31 && !ctrl.getLsbD 30) s (s.mbxRead h f ctrl)

/-- A piece of an object is written; a DOM object takes effect at the final piece, with zeros where no piece came. A piece of another
object is the whole of it (R348). -/
def State.mbxWrite (s : State) (h : PortIx) (f : FnIx) (ctrl : BitVec 32) : State :=
  let x := s.fn h.val f.val
  let len := x.mbxLength.toNat
  let off := x.mbxOffset.toNat
  let i := bits ctrl.toNat 15 0
  let sub := bits ctrl.toNat 23 16
  let r := Requester.mailbox h f
  let piece := memRead x.mbxData 0 len
  let before := tget [] x.mbxGather (mbxKey ctrl)
  let dom := ((objAt i sub).map (fun o => o.size == 0)).getD false
  let c := s.writeCheck r i sub (if dom then 0 else off + len)
  if len < 1 ∨ 4096 < len then s.mbxDone h.val f.val ctrl 0x0A02
  else if c ≠ 0 then s.mbxDone h.val f.val ctrl c
  else if !dom && off != 0 then s.mbxDone h.val f.val ctrl 0x0A02
  else
    let d := (before ++ List.replicate (off - before.length) 0).take off ++ piece ++ before.drop (off + len)
    if dom ∧ !ctrl.getLsbD 29 then
      (s.modFn h.val f.val (fun y => { y with mbxGather := tset y.mbxGather (mbxKey ctrl) d })).mbxDone h.val f.val ctrl 0
    else
      let s := s.modFn h.val f.val (fun y => { y with mbxGather := tdel y.mbxGather (mbxKey ctrl) })
      let w := s.dictWrite r i sub d false
      w.2.mbxDone h.val f.val ctrl w.1

/-- R358: MBX_CTRL is written with go = 1 and write = 1. -/
def execMailboxWrite (h : PortIx) (f : FnIx) (ctrl : BitVec 32) (s : State) : Res :=
  onlyIf (s.fnUp h.val f.val && ctrl.getLsbD 31 && ctrl.getLsbD 30) s (s.mbxWrite h f ctrl)

/-! ### Event ring (R398) -/

def Fn.evqLen (x : Fn) : Nat := 2 ^ bits x.evqCtrl.toNat 4 0

/-- The ring is enabled, with a size in range. -/
def Fn.evqOn (x : Fn) : Bool :=
  x.evqCtrl.getLsbD 31 && decide (6 ≤ bits x.evqCtrl.toNat 4 0 ∧ bits x.evqCtrl.toNat 4 0 ≤ 12)

/-- EVQ_CTRL takes a value; enabling starts at entry 0 and phase 1. -/
def Fn.setEvqCtrl (x : Fn) (v : BitVec 32) : Fn :=
  if v.getLsbD 31 && !x.evqCtrl.getLsbD 31 then { x with evqCtrl := v, evqTail := 0, evqPhase := true }
  else { x with evqCtrl := v }

/-- R398: EVQ_CTRL is written. -/
def execEvqCtrlWrite (h : PortIx) (f : FnIx) (v : BitVec 32) (s : State) : Res :=
  onlyIf (s.fnUp h.val f.val && (s.openFn h.val f.val).isSome) s (s.modFn h.val f.val (fun x => x.setEvqCtrl v))

/-- R398: EVQ_HEAD is written. -/
def execEvqHeadWrite (h : PortIx) (f : FnIx) (v : BitVec 32) (s : State) : Res :=
  onlyIf (s.fnUp h.val f.val && (s.openFn h.val f.val).isSome) s
    (s.modFn h.val f.val (fun x => { x with evqHead := v &&& 0xFFF }))

/-- The 32-byte ring entry of an event. -/
def eventEntry (e : Event) (phase : Bool) : List Byte :=
  (eventFrame 0 0 0 e).payload ++ natLE 2 e.code.toNat ++ [if phase then 1 else 0] ++ List.replicate 5 0

/-- R398: the oldest queued event is written to a free ring entry, followed by its interrupt. -/
def execEventRingWrite (h : PortIx) (f : FnIx) (s : State) : Res :=
  match s.openFn h.val f.val with
  | none => .next s
  | some a =>
    let x := s.fn h.val f.val
    let next := (x.evqTail + 1) % x.evqLen
    match (s.allot a).evq with
    | [] => .next s
    | e :: rest =>
      if !s.fnUp h.val f.val || !x.evqOn || next == x.evqHead.toNat % x.evqLen then .next s
      else
        let s := s.modAllot a (fun y => { y with evq := rest })
        let s := s.emit (.hostWrite h (x.evqBase + BitVec.ofNat 64 (32 * x.evqTail)) (eventEntry e x.evqPhase) [false] false)
        let s := s.modFn h.val f.val (fun y => { y with
          evqTail := next, evqPhase := if next = 0 then !y.evqPhase else y.evqPhase })
        .next (s.msix h f (bits x.evqCtrl.toNat 26 16))

/-! ### Queue pairs (R380, R386, R389) -/

/-- The queue pair that QSEL names, when the allotment has it. -/
def State.selQueue (s : State) (h f : Nat) : Option (Nat × Nat) :=
  match s.openFn h f with
  | some a => let q := bits (s.fn h f).qsel.toNat 16 0
    if q < (s.allot a).queuePairs.toNat then some (a, q) else none
  | none => none

/-- A write of 1 to QSTATE (R351, R353, R386). -/
def State.qOpen (s : State) (a q : Nat) : State :=
  let x := (s.allot a).queue q
  match x.state with
  | .closed => s.modQueue a q (fun y => y.tryOpen (s.allot a).msix.toNat)
  | .closing => s.modQueue a q (fun y => { y with state := .closingPending })
  | _ => s

/-- R386: the selected queue pair opens, or fails with a cause. -/
def execQueueOpen (h : PortIx) (f : FnIx) (s : State) : Res :=
  match s.selQueue h.val f.val with
  | some (a, q) => onlyIf (s.fnUp h.val f.val && s.lodge.isReady) s (s.qOpen a q)
  | none => .next s

/-- The commands of a queue that a closing refuses: those not started, held ones and waits (R384, R394). -/
def State.refuseQueue (s : State) (a q : Nat) : State :=
  let out := ((s.allot a).queue q).cmds.filter (fun c => c.state == .fetched || c.state == .held ||
    (c.state == .waiting && c.op == 0x07))
  (s.each out (fun s c => s.complete a q c.id stRefusedState 0)).wake a

/-- A write of 0 to QSTATE (R352, R384). -/
def State.qClose (s : State) (a q : Nat) : State :=
  let put := fun (e : Enable) => s.modQueue a q (fun y => { y with state := e, err := 0 })
  match ((s.allot a).queue q).state with
  | .open_ => ((put .closing).refuseQueue a q).modQueue a q (fun y => y.settle (s.allot a).msix.toNat)
  | .closingPending => put .closing
  | .failed => put .closed
  | _ => s

/-- R384: the selected queue pair closes. -/
def execQueueClose (h : PortIx) (f : FnIx) (s : State) : Res :=
  match s.selQueue h.val f.val with
  | some (a, q) => onlyIf (s.fnUp h.val f.val) s (s.qClose a q)
  | none => .next s

/-- A queue fails with a cause; commands already started complete first (R389). -/
def State.failQueue (s : State) (a q cause : Nat) : State :=
  s.modQueue a q (fun y => ({ y with
    state := .closing, err := cause, cmds := y.cmds.filter (fun c => c.state != .fetched) } : Queue).settle (s.allot a).msix.toNat)

/-- The queue that a doorbell reaches: open, of an open allotment, at Ready (R376, R378, R389). -/
def State.bellQueue (s : State) (h f : Nat) (q : BitVec 16) : Option Nat :=
  (s.openFn h f).filter (fun a => s.fnUp h f && s.lodge.isReady && ((s.allot a).queue q.toNat).state == .open_ &&
    decide (8 * q.toNat + 8 ≤ (s.fn h f).bar2))

/-- R389: a submission tail is written. -/
def execSubmissionDoorbell (h : PortIx) (f : FnIx) (q : BitVec 16) (v : BitVec 32) (s : State) : Res :=
  match s.bellQueue h.val f.val q with
  | some a =>
    let t := bits v.toNat 15 0
    if ((s.allot a).queue q.toNat).sqLen ≤ t then .next ((s.failQueue a q.toNat 4).portCount h.val 11)
    else .next (s.modQueue a q.toNat (fun y => { y with sqTail := t }))
  | none => .next s

/-- R389: a completion head is written. -/
def execCompletionDoorbell (h : PortIx) (f : FnIx) (q : BitVec 16) (v : BitVec 32) (s : State) : Res :=
  match s.bellQueue h.val f.val q with
  | some a =>
    let t := bits v.toNat 15 0
    if ((s.allot a).queue q.toNat).cqLen ≤ t then .next ((s.failQueue a q.toNat 4).portCount h.val 11)
    else .next (s.modQueue a q.toNat (fun y => { y with cqHead := t }))
  | none => .next s

/-! ### Arbitration (R397) -/

/-- Plots of an allotment, as R397 counts them. -/
def Allot.plotCount (x : Allot) : Nat := popcount64 x.plots

/-- Class of a queue, and its weight. -/
def Queue.cls (q : Queue) : Nat := bits q.arb.toNat 9 8
def Queue.wt (q : Queue) : Nat := bits q.arb.toNat 7 0

def Fn.classWt (x : Fn) (c : Nat) : Nat := bits x.classWeight.toNat (8 * c + 7) (8 * c)

/-- ⌈W_q · 2^20⌉ (R397). -/
def State.quantum (s : State) (h f a q : Nat) : Nat :=
  let x := s.allot a
  let peers := (List.range 16).filter (fun b => (s.allot b).enable == .open_ && (s.allot b).hostPort.toNat == h)
  let opened := (x.queues.map (·.2)).filter (fun y => y.state == .open_)
  let me := x.queue q
  let classes := (List.range 4).filter (fun c => opened.any (fun y => y.cls == c))
  let num := 2 ^ 20 * (x.plotCount * (s.fn h f).classWt me.cls * me.wt)
  let den := sumBy peers (fun b => (s.allot b).plotCount) * sumBy classes (fun c => (s.fn h f).classWt c) *
    sumBy (opened.filter (fun y => y.cls == me.cls)) Queue.wt
  (num + den - 1) / den

/-- The deficit after units of some cost in all: visits add the quantum until it covers each of them (R397). -/
def chargeUnits (deficit quantum cost : Nat) : Nat :=
  if cost ≤ deficit then deficit - cost
  else deficit + (cost - deficit + quantum - 1) / quantum * quantum - cost

/-- A WAIT_EVENT or a held LAUNCH holds the queue (R390, R397). -/
def Queue.heldUp (q : Queue) : Bool := q.cmds.any (fun c => (c.op == 7 && c.state == .waiting) || (c.op == 1 && c.state == .held))

/-- The queue still has an entry to fetch and a free completion slot for it, and nothing holds it (R390, R397). -/
def Queue.fetchable (q : Queue) : Bool :=
  q.state == .open_ && q.sqHead != q.sqTail && decide (q.cmds.length < q.cqFree) && !q.heldUp

/-- The queue holds a fetchable entry or a command with bytes to move (R397). -/
def Queue.backlogged (q : Queue) : Bool :=
  q.fetchable || (!q.heldUp && q.cmds.any (fun c => (c.op == 2 || c.op == 9) && (c.state == .fetched || c.state == .running)))

/-- Units of a queue are granted; one that is backlogged no more loses its deficit (R397). -/
def State.charge (s : State) (a q cost : Nat) : State :=
  let quantum := s.quantum (s.portOf a).val (s.pfOf a).val a q
  s.modQueue a q (fun y =>
    let y := { y with deficit := chargeUnits y.deficit quantum cost }
    if y.backlogged then y else { y with deficit := 0 })

/-- Opcodes that R391 gives a command. -/
def Cmd.known (c : Cmd) : Bool := decide (1 ≤ c.op ∧ c.op ≤ 0x0B) && c.reservedOk

/-- R386, R387, R390, R397: the arbiter grants a queue a fetch of its next entry e. A host memory error fails the
queue; while the module is Stopping or Stopped, and for a reserved opcode or field, the command completes at once. -/
def execCommandFetch (h : PortIx) (f : FnIx) (q : BitVec 16) (e : BitVec 512) (memError : Bool) (s : State) : Res :=
  match s.openFn h.val f.val with
  | none => .next s
  | some a =>
    let n := q.toNat
    let x := (s.allot a).queue n
    if !s.fnUp h.val f.val || !s.lodge.isReady || !x.fetchable then .next s
    else if memError then .next (s.failQueue a n 5)
    else
      let id := (s.allot a).fetchCount + 1
      let head := (x.sqHead + 1) % x.sqLen
      let c : Cmd :=
        { id := id, entry := e, state := .fetched, sqhead := head, recovered := false, record := 0, poisoned := false,
          position := 0, started := s.ns, waits := none, written := false }
      let s := s.modAllot a (fun y => { y with fetchCount := id })
      let s := (s.modQueue a n (fun y => { y with sqHead := head, cmds := y.cmds ++ [c] })).charge a n 64
      if s.lodge.moduleState = 1 ∨ s.lodge.moduleState = 2 then .next (s.completeWake a n id stRefusedState 0)
      else if !c.known then .next (s.completeWake a n id stOutOfRange 0)
      else .next s

/-- R390: QCOAL [31:16] µs after the first pending completion, the interrupt follows. -/
def execInterruptCoalesceTimeout (h : PortIx) (f : FnIx) (q : BitVec 16) (s : State) : Res :=
  match s.openFn h.val f.val with
  | some a =>
    let x := (s.allot a).queue q.toNat
    onlyIf (decide (x.uncoalesced ≠ 0 ∧ x.firstAt + 1000 * bits x.coal.toNat 31 16 ≤ s.ns)) s (s.queueInterrupt a q.toNat)
  | none => .next s

/-! ### BAR0 registers (R380) -/

/-- The low or high half of a 64-bit register takes a value. -/
def half (old : BitVec 64) (high : Bool) (v : BitVec 32) : BitVec 64 :=
  if high then v ++ old.setWidth 32 else (old.extractLsb' 32 32) ++ v

/-- A queue register takes a value; bases, sizes and class only while the queue is closed. -/
def Queue.setReg (q : Queue) (off : Nat) (v : BitVec 32) : Queue :=
  let closed := q.state == .closed
  match off with
  | 0x3008 => if closed then { q with sqBase := half q.sqBase false v } else q
  | 0x300C => if closed then { q with sqBase := half q.sqBase true v } else q
  | 0x3010 => if closed then { q with cqBase := half q.cqBase false v } else q
  | 0x3014 => if closed then { q with cqBase := half q.cqBase true v } else q
  | 0x3018 => if closed then { q with size := v } else q
  | 0x301C => if closed then { q with arb := v } else { q with arb := (q.arb &&& 0xFFFFFF00) ||| (v &&& 0xFF) }
  | 0x3020 => { q with vec := v }
  | 0x3024 => { q with coal := v }
  | _ => q

/-- A write of an MSI-X table word; unmasking an entry sends what pends (log 39). -/
def State.msixWrite (s : State) (h : PortIx) (f : FnIx) (o : Nat) (v : BitVec 32) : State :=
  let s := s.modFn h.val f.val (fun x => { x with msix := memWrite x.msix o (natLE 4 v.toNat) })
  let n := o / 16
  if o % 16 = 12 ∧ !v.getLsbD 0 ∧ (s.fn h.val f.val).pba.getLsbD n then
    (s.modFn h.val f.val (fun x => { x with pba := x.pba &&& ~~~(BitVec.ofNat 2048 (2 ^ n)) })).emit (.interrupt h f n)
  else s

/-- A 32-bit write of BAR0. Reserved and read-only offsets ignore it. -/
def State.bar0Write (s : State) (h : PortIx) (f : FnIx) (off : Nat) (v : BitVec 32) : State :=
  let mod := fun (g : Fn → Fn) => s.modFn h.val f.val g
  if off % 4 ≠ 0 then s
  else if 0x1000 ≤ off ∧ off < 0x2000 then mod (fun x => { x with mbxData := memWrite x.mbxData (off - 0x1000) (natLE 4 v.toNat) })
  else if 0x8000 ≤ off ∧ off < 0x10000 then s.msixWrite h f (off - 0x8000) v
  else match off with
    | 0x0000 =>
      if !v.getLsbD 31 then mod (fun x => { x with mbxCtrl := v })
      else if v.getLsbD 30 then s.mbxWrite h f v else s.mbxRead h f v
    | 0x0008 => mod (fun x => { x with mbxLength := v })
    | 0x000C => mod (fun x => { x with mbxOffset := v })
    | _ =>
      if (s.openFn h.val f.val).isNone then s
      else match off with
        | 0x2018 => mod (fun x => { x with evqBase := half x.evqBase false v })
        | 0x201C => mod (fun x => { x with evqBase := half x.evqBase true v })
        | 0x2020 => mod (fun x => x.setEvqCtrl v)
        | 0x2024 => mod (fun x => { x with evqHead := v &&& 0xFFF })
        | 0x3000 => mod (fun x => { x with qsel := v &&& 0x1FFFF })
        | 0x3040 => mod (fun x => { x with classWeight := v })
        | 0x3100 => mod (fun x => { x with w4ctrl := v })
        | 0x3108 => mod (fun x => { x with w4base := half x.w4base false v })
        | 0x310C => mod (fun x => { x with w4base := half x.w4base true v })
        | 0x3028 => match s.selQueue h.val f.val with
          | some (a, q) => if v = 1 then (if s.lodge.isReady then s.qOpen a q else s) else if v = 0 then s.qClose a q else s
          | none => s
        | _ => match s.selQueue h.val f.val with
          | some (a, q) => s.modQueue a q (fun y => y.setReg off v)
          | none => s

/-- R380: a BAR0 register is written, as one word or two. -/
def execRegisterWrite (h : PortIx) (f : FnIx) (off : BitVec 16) (v : BitVec 64) (wide : Bool) (s : State) : Res :=
  onlyIf (s.fnUp h.val f.val) s
    (let t := s.bar0Write h f off.toNat (v.setWidth 32)
     if wide then t.bar0Write h f (off.toNat + 4) (v.extractLsb' 32 32) else t)

/-- What a 32-bit read of BAR0 answers (R358, R380): no row of the table is a read of it, since a read changes nothing.
Reserved offsets read 0. -/
def State.bar0Read (s : State) (h f off : Nat) : BitVec 32 :=
  let x := s.fn h f
  let word := fun (v : Nat) => BitVec.ofNat 32 v
  let own := s.allotOfFn h f
  let info := fun (g : Nat → Nat) => word ((own.map g).getD 0)
  let queue := fun (g : Queue → BitVec 32) => match s.selQueue h f with
    | some (a, q) => g ((s.allot a).queue q)
    | none => 0
  if off % 4 ≠ 0 then 0
  else if 0x1000 ≤ off ∧ off < 0x2000 then word (leNat (memRead x.mbxData (off - 0x1000) 4))
  else if 0x7F00 ≤ off ∧ off < 0x8000 then x.pba.extractLsb' (8 * (off - 0x7F00)) 32
  else if 0x8000 ≤ off ∧ off < 0x10000 then word (leNat (memRead x.msix (off - 0x8000) 4))
  else match off with
    | 0x0000 => x.mbxCtrl
    | 0x0004 => x.mbxStatus
    | 0x0008 => x.mbxLength
    | 0x000C => x.mbxOffset
    | 0x2000 => word (s.lodge.moduleState.toNat + 256 * (own.map (fun a => (s.allot a).enable.code)).getD 0)
    | 0x2004 => info (fun a => (s.allot a).evq.length)
    | 0x2008 => info (fun a => 2 ^ 24 * (s.reservesOf a).length + 2 ^ 16 * (s.allot a).plotCount + a)
    | 0x200C => info (fun a => (s.allot a).queuePairs.toNat)
    | 0x2010 => info (fun a => (s.allot a).usable / 10 ^ 9)
    | 0x2018 => x.evqBase.extractLsb' 0 32
    | 0x201C => x.evqBase.extractLsb' 32 32
    | 0x2020 => x.evqCtrl
    | 0x2024 => x.evqHead
    | 0x3000 => x.qsel
    | 0x3008 => queue (fun q => q.sqBase.extractLsb' 0 32)
    | 0x300C => queue (fun q => q.sqBase.extractLsb' 32 32)
    | 0x3010 => queue (fun q => q.cqBase.extractLsb' 0 32)
    | 0x3014 => queue (fun q => q.cqBase.extractLsb' 32 32)
    | 0x3018 => queue (·.size)
    | 0x301C => queue (·.arb)
    | 0x3020 => queue (·.vec)
    | 0x3024 => queue (·.coal)
    | 0x3028 => queue (fun q => word q.state.code)
    | 0x302C => queue (fun q => word q.err)
    | 0x3030 => queue (fun q => word (2 ^ 16 * (q.cqTail % 65536) + q.sqHead % 65536))
    | 0x3040 => x.classWeight
    | 0x3100 => x.w4ctrl
    | 0x3108 => x.w4base.extractLsb' 0 32
    | 0x310C => x.w4base.extractLsb' 32 32
    | _ => 0

/-! ### BAR4 window (R381) -/

/-- Where a BAR4 access of len bytes at o leads. -/
inductive Bar4Target where
  | hbm (addr : Nat)
  | garden (p a : Nat)
  | stage (p a : Nat)
  | outside

/-- The target of a BAR4 access; a write must also avoid monitor regions and program stores. -/
def State.bar4Target (s : State) (h f o len : Nat) (write : Bool) : Bar4Target :=
  let x := s.fn h f
  let i := bits x.w4ctrl.toNat 15 8
  match s.openFn h f with
  | none => .outside
  | some a =>
    let mine := decide (i < 224) && s.allotOfPav i == some a && (s.pav i).role != .reserve
    if x.bar4 = 0 ∨ 2 ^ x.bar4 < o + len then .outside
    else match bits x.w4ctrl.toNat 1 0 with
      | 0 =>
        if x.w4base.toNat % 2 ^ x.bar4 = 0 ∧ s.hbmFits a (x.w4base.toNat + o) len then .hbm (x.w4base.toNat + o) else .outside
      | 1 =>
        if mine ∧ o + len ≤ 2 ^ 28 ∧ !(write && touchesMonitor o len) then .garden (s.mappedTo a i) o else .outside
      | 2 =>
        if mine ∧ o + len ≤ (if write then 0x780000 else 0x800000) then .stage (s.mappedTo a i) o else .outside
      | _ => .outside

/-- R381: a host reads through BAR4. -/
def execBar4Read (h : PortIx) (f : FnIx) (off : BitVec 36) (len : BitVec 13) (s : State) : Res :=
  let n := len.toNat
  let give := fun (r : (List Byte × Bool) × State) =>
    let s := if r.1.2 then r.2.portCount h.val 6 else r.2
    Host.Outcome.next (s.emit (.readData h f r.1.1 r.1.2))
  if !s.fnUp h.val f.val then .next s
  else match s.bar4Target h.val f.val off.toNat n false with
    | .hbm o => give (s.targetGet ((s.openFn h.val f.val).getD 0) (.hbm o) n)
    | .garden p o => give (s.localGet p false o n)
    | .stage p o => give (s.localGet p true o n)
    | .outside => .next ((s.portCount h.val 8).emit (.unsupported h f))

/-- R381, R393: a host writes through BAR4; a poisoned write lands poisoned, and one outside its target is discarded
with a record. -/
def execBar4Write (h : PortIx) (f : FnIx) (off : BitVec 36) (v : List Byte) (poisoned : Bool) (s : State) : Res :=
  if !s.fnUp h.val f.val then .next s
  else
    let a := s.openFn h.val f.val
    let s := if poisoned then s.portCount h.val 5 else s
    match s.bar4Target h.val f.val off.toNat v.length true with
    | .hbm o => .next (s.targetPut (a.getD 0) (.hbm o) .port v poisoned)
    | .garden p o => .next (s.localPut p false .port o v poisoned (v.length + 1))
    | .stage p o => .next (s.localPut p true .port o v poisoned (v.length + 1))
    | .outside => .next (s.record { ErrRec.base with
        ty := 0x14, severity := 1, cls := 12, allotment := BitVec.ofNat 5 (a.getD 0x1F), detail := 2
        subunit := BitVec.ofNat 16 h.val, address := BitVec.ofNat 64 off.toNat })

end Sys2Proof.Machine
end

