-- ==== Sys2Proof/Machine/Commands.lean ====
section
/-! DEFINITION. The commands of host queues (R365, R391–R396, R399). -/

namespace Sys2Proof.Machine

/-! ### Starting -/

/-- Runs `f` on the next command of a queue when it may start and has the opcode; while the module is Stopping or
Stopped it completes with REFUSED_STATE (R390). -/
def State.starting (s : State) (a q op : Nat) (f : Cmd → State) : Res :=
  if (s.allot a).enable != .open_ || !s.lodge.isReady then .next s
  else match ((s.allot a).queue q).startable with
    | some c =>
      if c.op ≠ op then .next s
      else if s.lodge.moduleState = 1 ∨ s.lodge.moduleState = 2 then .next (s.completeWake a q c.id stRefusedState 0)
      else .next (f c)
    | none => .next s

/-! ### LAUNCH, JOB_END (R392) -/

/-- R392: a LAUNCH begins its job, is held behind the running one, or is refused. -/
def execLaunch (a : AllotIx) (q : BitVec 16) (s : State) : Res :=
  s.starting a.val q.toNat 1 (fun c =>
    let x := s.allot a.val
    let len := bits c.a2 31 0
    let done := fun st => s.completeWake a.val q.toNat c.id st 0
    if c.a0 = 0 ∨ c.a1 % 64 ≠ 0 ∨ 65536 < len ∨ !s.hbmFits a.val c.a1 len ∨ (x.job c.a0).isSome then done stOutOfRange
    else if x.launchJob.isSome || x.redealDue || x.dealing then s.cmdTo a.val q.toNat c.id .held
    else if !s.launchable a.val then done stRefusedState
    else s.beginLaunch a.val q.toNat c)

/-- R392, R394: a job whose last section has ended, or that a fault or an abort has stopped, completes, once its
job-stop record has its number (R439) and what its pavilions had issued has finished (R204). -/
def execJobEnd (a : AllotIx) (job : BitVec 64) (s : State) : Res :=
  match (s.allot a.val).job job.toNat with
  | some j => match j.ended with
    | some st => onlyIf (j.record != pendingRecord && (!j.launch || (s.holdersOf a.val).all s.settled)) s (s.finishJob a.val j st.toNat)
    | none => .next s
  | none => .next s

/-! ### COPY (R391–R393) -/

/-- A side of a COPY: its space and place. -/
inductive Place where
  | host (addr : Nat)
  | hbm (off : Nat)
  | garden (p a : Nat)
  | stage (p a : Nat)
  deriving DecidableEq, Repr

/-- The place that a space code and an address name, or the status that refuses it. -/
def State.copyPlace (s : State) (a space addr len : Nat) (write : Bool) : Nat × Place :=
  let p := bits addr 35 28
  let mine := decide (p < 224) && s.allotOfPav p == some a && (s.pav p).role != .reserve
  match space with
  | 0 => (0, .host addr)
  | 1 => (if s.hbmFits a addr len then 0 else stOutOfRange, .hbm addr)
  | 2 =>
    let o := bits addr 27 0
    (if bits addr 63 36 ≠ 0 ∨ addr % 64 ≠ 0 ∨ len % 64 ≠ 0 ∨ 2 ^ 28 < o + len ∨ (write && touchesMonitor o len) then
        stOutOfRange
      else if !mine then stDenied
      else if (s.pav p).fullEmpty && !tagAligned o len then stOutOfRange else 0, .garden p o)
  | 3 =>
    let o := bits addr 22 0
    (if bits addr 63 36 ≠ 0 ∨ bits addr 27 23 ≠ 0 ∨ addr % 64 ≠ 0 ∨ len % 64 ≠ 0 ∨ 0x800000 < o + len then stOutOfRange
      else if !mine then stDenied else 0, .stage p o)
  | _ => (stOutOfRange, .host addr)

/-- The pavilion of a place. -/
def Place.pav : Place → Option Nat
  | .garden p _ | .stage p _ => some p
  | _ => none

/-- A place's pavilion lies in a plot whose gate refuses traffic (R311). -/
def State.placeFenced (s : State) (a : Nat) (x : Place) : Bool :=
  (x.pav.map (fun p => (s.plot (plotOf ((s.allot a).mapped p))).fenced)).getD false

/-- Tags of a garden place in full/empty mode: pavilion and tag numbers. -/
def State.placeTags (s : State) (a : Nat) (x : Place) (len : Nat) : Option (Nat × List Nat) :=
  match x with
  | .garden p o => let m := s.mappedTo a p; if (s.pav m).fullEmpty then some (m, tagRange o len) else none
  | _ => none

/-- What the tags say to a COPY into the garden, which is a tagged writer (R241, R243), and the pavilion that holds them. -/
def State.copyAsk (s : State) (a : Nat) (dst : Place) (len : Nat) : Nat × TagAnswer :=
  match s.placeTags a dst len with
  | some (p, ts) => (p, (s.pav p).passTags [] ts [])
  | none => (0, .go)

/-- The bytes of a module place, with one poison mark for each 64-byte row of it. -/
def State.placeGet (s : State) (a : Nat) (x : Place) (len : Nat) : (List Byte × List Bool) × State :=
  let rows := fun (o : Nat) (r : List (List Byte × Bool) × State) =>
    (((((r.1.map (·.1)).flatten).drop (o % 64)).take len, r.1.map (·.2)), r.2)
  match x with
  | .host _ => (([], []), s)
  | .hbm o => rows o (s.allotRead a (o / 64 * 64) ((o + len + 63) / 64 - o / 64))
  | .garden p o => rows o (s.rowsRead (s.mappedTo a p) false (o / 64) (len / 64))
  | .stage p o => rows o (s.rowsRead (s.mappedTo a p) true (o / 64) (len / 64))

/-- Poisoned data on its way to the host waits for the replay of the frozen section (R438). -/
def State.saveWaits (s : State) (a : Nat) (src dst : Place) (len : Nat) : Bool :=
  match dst with
  | .host _ => (s.allot a).frozen.isSome && (s.placeGet a src len).1.2.any id
  | _ => false

/-- A COPY waits: a context that it names is switched out, a tag of its destination is not empty, or a replay is recovering what it
carries out. -/
def State.copyBlocked (s : State) (a : Nat) (src dst : Place) (len : Nat) : Bool :=
  let out := fun (x : Place) => (x.pav.map s.switchedOut).getD false
  out src || out dst || s.saveWaits a src dst len || (match (s.copyAsk a dst len).2 with
    | .wait _ _ => true
    | _ => false)

/-- The poison of bytes [o, o + n) of data whose first row starts `lead` bytes before it. -/
def poisonIn (marks : List Bool) (lead o n : Nat) : Bool :=
  (((marks.drop ((lead + o) / 64)).take ((lead + o + n + 63) / 64 - (lead + o) / 64))).any id

/-- Writes data at a module place, row by row, with its poison. -/
def State.placePut (s : State) (a : Nat) (x : Place) (d : List Byte) (marks : List Bool) (lead : Nat) : State :=
  let start := match x with
    | .host o | .hbm o | .garden _ o | .stage _ o => o
  let rows := (start + d.length + 63) / 64 - start / 64
  s.each (List.range rows) (fun s i =>
    let from_ := if i = 0 then 0 else 64 * (start / 64 + i) - start
    let upto := min d.length (64 * (start / 64 + i + 1) - start)
    let part := (d.drop from_).take (upto - from_)
    let bad := poisonIn marks lead from_ (upto - from_)
    match x with
    | .host _ => s
    | .hbm o => s.targetPut a (.hbm (o + from_)) .port part bad
    | .garden p o => s.localPut (s.mappedTo a p) false .port (o + from_) part bad 2
    | .stage p o => s.localPut (s.mappedTo a p) true .port (o + from_) part bad 2)

/-- The marks of a host write: one for each 64 bytes begun of the data. -/
def hostMarks (marks : List Bool) (lead len : Nat) : List Bool :=
  (List.range ((len + 63) / 64)).map (fun i => poisonIn marks lead (64 * i) (min 64 (len - 64 * i)))

/-- Ends a COPY: a COPY job ends with it. -/
def State.endCopy (s : State) (a q : Nat) (c : Cmd) (status result : Nat) : State :=
  match (s.allot a).jobs.find? (fun j => !j.launch && j.queue == q && j.cmd == c.id) with
  | some j =>
    let s := s.modAllot a (fun x => { x with jobs := x.jobs.filter (fun k => k.id != j.id) })
    (s.completeWake a q c.id status result).settleStop
  | none => s.completeWake a q c.id status result

/-- What R438 can still do for data that a COPY carries out of the module. -/
inductive CopySave where
  | nothing
  | refetched
  | replay
  deriving DecidableEq, Repr

/-- One poisoned row, number i of a COPY's source, is about to leave the module (R437): re-fetch, then replay (R438). -/
def State.saveRow (s : State) (a : Nat) (src : Place) (i : Nat) : CopySave × State :=
  let local_ := fun (p : Nat) (stage : Bool) (row : Nat) =>
    match s.poisonTry a p stage row with
    | some (true, t) => (CopySave.refetched, t)
    | some (false, t) => (.replay, t)
    | none => (.nothing, s)
  match src with
  | .garden p o => local_ (s.mappedTo a p) false (o / 64 + i)
  | .stage p o => local_ (s.mappedTo a p) true (o / 64 + i)
  | .hbm o =>
    let line := ((s.hbmAddr a (64 * (o / 64 + i))).getD 0) / 64
    if (s.allot a).taint.any (fun t => t.covers 2 line) && !((s.allot a).tried.contains (2000, line)) &&
        (s.allot a).launchJob.isSome then
      (.replay, (s.modAllot a (fun x => { x with tried := (2000, line) :: x.tried })).freeze a .poison)
    else (.nothing, s)
  | .host _ => (.nothing, s)

/-- The poisoned rows that a COPY to the host is about to carry out, in order, up to one that a replay must recover; under fail-fast
policy nothing is tried (R373, R437, R438). -/
def State.saveCopy (s : State) (a : Nat) (src dst : Place) (len : Nat) : CopySave × State :=
  match dst with
  | .host _ =>
    let g := s.placeGet a src len
    if s.failFast a then (.nothing, s) else
    ((List.range g.1.2.length).filter (fun i => lget false g.1.2 i)).foldl (fun (x : CopySave × State) i =>
      match x.1 with
      | .replay => x
      | was => match x.2.saveRow a src i with
        | (.nothing, t) => (was, t)
        | y => y) (.nothing, g.2)
  | _ => (.nothing, s)

/-- Moves the bytes of a COPY and completes it. -/
def State.runCopy (s : State) (a q : Nat) (c : Cmd) (src dst : Place) (len : Nat) (host : List Byte × List Bool) : State :=
  let h := s.portOf a
  let g := match src with
    | .host _ => ((host.1, host.2), s)
    | _ => s.placeGet a src len
  let lead := match src with
    | .hbm o => o % 64
    | _ => 0
  let s := g.2
  let d := g.1.1
  let marks := g.1.2
  let bad := marks.any id
  let s := match src with
    | .host _ => if bad then s.portCount h.val 5 else s
    | _ => s
  let s := match dst with
    | .host o =>
      let m := hostMarks marks lead d.length
      let s := s.emit (.hostWrite h (BitVec.ofNat 64 o) d m true)
      if bad then s.portCount h.val 6 else s
    | _ =>
      let tags := s.placeTags a dst len
      let s := match tags with
        | some (p, ts) => s.modPav p (fun x => x.fillStart ts)
        | none => s
      let s := s.placePut a dst d marks lead
      match tags with
      | some (p, ts) => s.modPav p (fun x => x.fillEnd ts)
      | none => s
  let s := s.modQueue a q (fun y => { y with cmds := y.cmds.map (fun k =>
    if k.id = c.id then { k with poisoned := k.poisoned || bad, recovered := k.recovered && !bad, position := len } else k) })
  let s := s.endCopy a q c stOK len
  match src, dst with
  | .host _, _ | _, .host _ => s.charge a q len
  | _, _ => s

/-- What a host read of a length has returned: its data once every byte is there, with a poison mark for each 64 bytes (R393). -/
def HostRead.whole (hd : HostRead) (len : Nat) : HostRead :=
  match hd with
  | .data b p => if b.length < len then .waiting else .data (b.take len) (p.take ((len + 63) / 64))
  | x => x

/-- A COPY starts, or one that waits is tried again. -/
def State.tryCopy (s : State) (a q : Nat) (c : Cmd) (hd : HostRead) : Res :=
  let len := bits c.a2 39 0
  let src := s.copyPlace a (bits c.a2 43 40) c.a0 len false
  let dst := s.copyPlace a (bits c.a2 47 44) c.a1 len true
  let jobUsed := c.state == .fetched && c.a3 != 0 && ((s.allot a).job c.a3).isSome
  if len = 0 ∨ (bits c.a2 43 40 = 0 ∧ bits c.a2 47 44 = 0) ∨ jobUsed then .next (s.completeWake a q c.id stOutOfRange 0)
  else if src.1 ≠ 0 then .next (s.endCopy a q c src.1 0)
  else if dst.1 ≠ 0 then .next (s.endCopy a q c dst.1 0)
  else
    let s := if c.state == .fetched then
        let s := s.cmdTo a q c.id .running
        if c.a3 = 0 then s else s.modAllot a (fun x => { x with
          jobs := x.jobs ++ [Job.mk (BitVec.ofNat 64 c.a3) false q c.id false 0 [] [] [] false none 0 false] })
      else s
    if s.placeFenced a src.2 || s.placeFenced a dst.2 then .next (s.endCopy a q c stTimeout 0)
    else if s.copyBlocked a src.2 dst.2 len then .next (s.modQueue a q (fun y => { y with cmds := y.cmds.map (fun k =>
      if k.id = c.id then { k with waits := some (k.waits.getD s.ns) } else k) }))
    else match s.copyAsk a dst.2 len with
    | (p, .broken t) => .next ((s.brokenTag p t).endCopy a q c stTimeout 0)
    | _ => match src.2, HostRead.whole hd len with
      | .host _, .data b p => .next (s.runCopy a q c src.2 dst.2 len (b, p))
      | .host _, .waiting => .next s
      | .host _, .error => .next (s.endCopy a q c stOutOfRange 0)
      | _, _ =>
        let r := s.saveCopy a src.2 dst.2 len
        let t := if r.1 = .nothing then r.2 else r.2.modQueue a q (fun y => { y with cmds := y.cmds.map (fun k =>
          if k.id = c.id then { k with recovered := true } else k) })
        .next (if r.1 = .replay then t else t.runCopy a q c src.2 dst.2 len ([], []))

/-- R391–R393: a COPY of the queue that waits and can go on, or else the next command. `hd` is what a read of host
memory returns. -/
def execCopy (a : AllotIx) (q : BitVec 16) (hd : HostRead) (s : State) : Res :=
  let len := fun (c : Cmd) => bits c.a2 39 0
  let ready := ((s.allot a.val).queue q.toNat).cmds.find? (fun c => c.op == 2 && c.state == .running &&
    !s.copyBlocked a.val (s.copyPlace a.val (bits c.a2 43 40) c.a0 (len c) false).2
      (s.copyPlace a.val (bits c.a2 47 44) c.a1 (len c) true).2 (len c))
  if (s.allot a.val).enable == .closed || !s.lodge.isReady then .next s
  else match ready with
    | some c => s.tryCopy a.val q.toNat c hd
    | none =>
      if (s.allot a.val).enable != .open_ then .next s
      else match ((s.allot a.val).queue q.toNat).startable with
        | some c =>
          if c.op ≠ 2 then .next s
          else if s.lodge.moduleState = 1 ∨ s.lodge.moduleState = 2 then
            .next (s.completeWake a.val q.toNat c.id stRefusedState 0)
          else s.tryCopy a.val q.toNat c hd
        | none => .next s

/-- R393: a host read has not completed in time. -/
def execPcieCompletionTimeout (a : AllotIx) (q : BitVec 16) (s : State) : Res :=
  let h := (s.portOf a.val).val
  let reads := fun (c : Cmd) => c.state == .running && ((c.op == 2 && bits c.a2 43 40 == 0) || c.op == 9)
  match ((s.allot a.val).queue q.toNat).cmds.find? reads with
  | some c => .next ((s.portCount h 7).endCopy a.val q.toNat c stTimeout 0)
  | none => .next s

/-! ### Windows (R407, R408, R416) -/

/-- R407: a WOPEN starts. -/
def execWopen (a : AllotIx) (q : BitVec 16) (s : State) : Res :=
  s.starting a.val q.toNat 3 (fun c => (s.cmdTo a.val q.toNat c.id .running).wopen a.val q.toNat c)

/-- R408, R416: a WCLOSE starts the close of its window, and completes when it is closed. One that names a closing window
cancels the WOPEN held behind it, and without a held WOPEN completes WINDOW_CLOSED. -/
def execWclose (a : AllotIx) (q : BitVec 16) (s : State) : Res :=
  s.starting a.val q.toNat 4 (fun c =>
    match s.windowOf (bits c.a0 31 0) with
    | some (n, e, w) =>
      let join := fun (s : State) => (s.cmdTo a.val q.toNat c.id .running).modWindow n e (fun w => { w with
        closers := w.closers ++ [{ queue := q.toNat, cmd := c.id }] })
      if w.allotment = a then
        if !w.closing then (join s).closeWindow n e
        else match s.heldOpen w with
          | some o => ((join s).modWindow n e (fun w => { w with held := none })).completeWake a.val o.queue o.cmd
              stRefusedState 0
          | none => s.completeWake a.val q.toNat c.id stWindowClosed 0
      else s.completeWake a.val q.toNat c.id stOutOfRange 0
    | none => s.completeWake a.val q.toNat c.id stWindowClosed 0)

/-! ### Waits (R391, R395) -/

/-- A command that waits for a condition completes at once when it already holds. -/
def State.waitStart (s : State) (a q : Nat) (c : Cmd) : State := (s.cmdTo a q c.id .waiting).wake a

/-- R395: a MARK starts. -/
def execMark (a : AllotIx) (q : BitVec 16) (s : State) : Res :=
  s.starting a.val q.toNat 5 (fun c => s.waitStart a.val q.toNat c)

/-- R391: a FENCE starts. -/
def execHostFence (a : AllotIx) (q : BitVec 16) (s : State) : Res :=
  s.starting a.val q.toNat 6 (fun c => s.waitStart a.val q.toNat c)

/-- R391: a WAIT_EVENT starts. -/
def execWaitEvent (a : AllotIx) (q : BitVec 16) (s : State) : Res :=
  s.starting a.val q.toNat 7 (fun c => s.waitStart a.val q.toNat c)

/-- R391: a wait's timeout elapses first. -/
def execWaitEventTimeout (a : AllotIx) (q : BitVec 16) (s : State) : Res :=
  match ((s.allot a.val).queue q.toNat).cmds.find? (fun c => c.op == 7 && c.state == .waiting && c.a3 != 0 &&
      decide (c.started + c.a3 ≤ s.ns)) with
  | some c => .next (s.completeWake a.val q.toNat c.id stTimeout 0)
  | none => .next s

/-! ### SIGNAL (R194, R391) -/

/-- R391: a SIGNAL adds to a pavilion's sync counter or to an event counter. -/
def execSignal (a : AllotIx) (q : BitVec 16) (s : State) : Res :=
  s.starting a.val q.toNat 8 (fun c =>
    if c.a0 % 2 = 0 then
      let p := bits c.a1 7 0
      let k := bits c.a1 11 8
      if 224 ≤ p ∨ s.allotOfPav p ≠ some a.val ∨ (s.pav p).role == .reserve then
        s.completeWake a.val q.toNat c.id stDenied 0
      else
        let m := s.mappedTo a.val p
        (s.modSeq m (fun x => { x with ctrs := x.ctrs.set k (lget 0 x.ctrs k + BitVec.ofNat 32 c.a2) })).completeWake
          a.val q.toNat c.id stOK 0
    else
      let e := bits c.a1 5 0
      (s.modAllot a.val (fun x => { x with
        counters := tset x.counters e (tget 0 x.counters e + BitVec.ofNat 64 c.a2) })).completeWake a.val q.toNat c.id stOK 0)

/-! ### LOAD_IMAGE (R365) -/

/-- R365: a LOAD_IMAGE stores its image, or is refused; it completes when the slot reads verified or rejected. -/
def State.loadImage (s : State) (a : AllotIx) (q : Nat) (c : Cmd) (hd : HostRead) : Res :=
  let n := bits c.a2 5 0
  let len := c.a1
  let done := fun (s : State) st => Host.Outcome.next (s.completeWake a.val q c.id st 0)
  let im := s.image n
  if n = 0 ∨ len = 0 ∨ !s.imageFits n len then done s stOutOfRange
  else if !(im.status == 0 || (im.writer == some a && !s.slotInUse n)) then done s stDenied
  else if s.holdupLow then done s stRefusedState
  else match HostRead.whole hd len with
    | .waiting => .next (if c.state == .fetched then s.cmdTo a.val q c.id .running else s)
    | .error => done s stOutOfRange
    | .data b p =>
      if p.any id then done (s.portCount (s.portOf a.val).val 5) stPoisoned
      else .next (((s.storeImage n b (some a)).modQueue a.val q (fun y => { y with cmds := y.cmds.map (fun k =>
        if k.id = c.id then { k with state := .waiting, position := len } else k) })).charge a.val q len)

/-- R365: a LOAD_IMAGE starts, or its host data arrives. -/
def execLoadImage (a : AllotIx) (q : BitVec 16) (hd : HostRead) (s : State) : Res :=
  if (s.allot a.val).enable != .open_ || !s.lodge.isReady then .next s
  else match ((s.allot a.val).queue q.toNat).cmds.find? (fun c => c.op == 9 && c.state == .running) with
    | some c => s.loadImage a q.toNat c hd
    | none => match ((s.allot a.val).queue q.toNat).startable with
      | some c =>
        if c.op ≠ 9 then .next s
        else if s.lodge.moduleState = 1 ∨ s.lodge.moduleState = 2 then
          .next (s.completeWake a.val q.toNat c.id stRefusedState 0)
        else s.loadImage a q.toNat c hd
      | none => .next s

/-! ### QUERY_PROGRESS (R399) -/

/-- The 32-byte record. -/
def progressRecord (position total permille state : Nat) : List Byte :=
  natLE 8 position ++ natLE 8 total ++ natLE 2 permille ++ natLE 1 state ++ List.replicate 13 0

/-- Position and total of a command (*Progress units*); LAUNCH counts verified marks and has no total. -/
def State.cmdProgress (s : State) (a : Nat) (c : Cmd) : Option (Nat × Nat) :=
  match c.op with
  | 1 => some ((((s.allot a).job c.a0).map (·.marks)).getD 0, 0)
  | 2 => some (c.position, bits c.a2 39 0)
  | 9 => some (c.position, c.a1)
  | _ => none

/-- Answers a query: the result, and the record when an address is given. -/
def State.answerQueryProgress (s : State) (a q : Nat) (c : Cmd) (index position total state : Nat) : State :=
  let permille := if total = 0 then 0 else min 1000 (1000 * position / total)
  let s := if c.a1 = 0 then s else
    s.emit (.hostWrite (s.portOf a) (BitVec.ofNat 64 c.a1) (progressRecord position total permille state) [false] false)
  s.completeWake a q c.id stOK (2 ^ 26 * state + 2 ^ 16 * permille + index)

/-- R399: a QUERY_PROGRESS reports a command or an index, and assigns a long command an index. -/
def execQueryProgress (a : AllotIx) (q : BitVec 16) (s : State) : Res :=
  s.starting a.val q.toNat 0x0A (fun c =>
    if bit c.a0 32 then
      let i := bits c.a0 15 0
      if i < 0x7000 ∨ 0x7100 ≤ i then s.completeWake a.val q.toNat c.id stOutOfRange 0
      else if s.mailView (s.portOf a.val).val (s.pfOf a.val).val i 1 false ≠ 0 then
        s.completeWake a.val q.toNat c.id stDenied 0
      else
        let x := tget Progress.idle s.lodge.progress (i - 0x7000)
        s.answerQueryProgress a.val q.toNat c i x.position.toNat x.total.toNat x.state.toNat
    else
      let cid := bits c.a0 31 16
      let n := bits c.a0 15 0
      match ((s.allot a.val).queue n).cmds.find? (fun d => d.cid == cid && (s.cmdProgress a.val d).isSome) with
      | some d =>
        let v := (s.cmdProgress a.val d).getD (0, 0)
        let w := s.assignProgress (d.operation a.val n) (0x2400 + a.val)
        match w.1 with
        | some k =>
          let s := w.2.progressTo k 1 v.1 v.2 (0x2400 + a.val)
          s.answerQueryProgress a.val q.toNat c (0x7000 + k) v.1 v.2 1
        | none => w.2.answerQueryProgress a.val q.toNat c 0 v.1 v.2 1
      | none =>
        match s.lodge.progress.find? (fun e => match e.2.owner with
            | some (b, m, i) => b == a.val && m == n && i % 65536 == cid
            | none => false) with
        | some e => s.answerQueryProgress a.val q.toNat c (0x7000 + e.1) e.2.position.toNat e.2.total.toNat e.2.state.toNat
        | none => s.answerQueryProgress a.val q.toNat c 0 0 0 2)

/-- R399: an index is free again 1 s after its operation has ended. -/
def execProgressIndexRelease (k : Fin 160) (s : State) : Res :=
  let x := tget Progress.idle s.lodge.progress (0x60 + k.val)
  onlyIf (x.owner.isSome && x.state != 1 && decide (10 ^ 9 + x.ended ≤ s.ns)) s
    (s.modLodge (fun l => { l with progress := tdel l.progress (0x60 + k.val) }))

/-! ### ABORT_JOB (R394) -/

/-- R394: an ABORT_JOB stops a job and completes when it has ended. -/
def execAbortJob (a : AllotIx) (q : BitVec 16) (s : State) : Res :=
  s.starting a.val q.toNat 0x0B (fun c =>
    match (s.allot a.val).job c.a0 with
    | none => s.completeWake a.val q.toNat c.id stOutOfRange 0
    | some j =>
      if j.launch then
        let s := s.modJob a.val c.a0 (fun k => { k with aborted := k.aborted || k.ended.isNone })
        (s.stopJob a.val stRefusedState 0).waitStart a.val q.toNat c
      else (s.waitStart a.val q.toNat c).finishJob a.val { j with aborted := true } stRefusedState)

end Sys2Proof.Machine
end

