-- ==== Sys2Proof/Machine/Dma.lean ====
section
/-! DEFINITION. The DMA engine: DCOPY, PSEND and PRECV (R198–R200, R251, R252, R260–R262, R292, R426, R438). -/

namespace Sys2Proof.Machine

/-! ### Places -/

/-- The first free place (R190). -/
def Seq.freePlace (q : Seq) : Option Nat := (List.range 4).find? (fun k => (q.place k).isNone)

/-- A transfer as it stands at issue. -/
def dmaOf (s : State) (p i slot : Nat) (w : Nat) (kind : DmaKind) (rngs : List Rng) (ids : List Nat) : Dma :=
  let q := (s.pav p).seq
  { kind := kind, stream := i, slot := slot, w := BitVec.ofNat 120 w, rd := readIds q.tagged 3 rngs ids
    wr := writeIds q.tagged 3 rngs ids, issue := q.issued - 1, done := 0, parts := none, tagWait := none, interval := (q.stream i).interval }

def Dma.writer (d : Dma) : Writer := { unit := 3, stream := d.stream, iv := d.interval }

/-- A transfer has finished (R193): its entries go, its counter rises, and its place is free. -/
def State.dmaEnd (s : State) (p k : Nat) (d : Dma) (ctr : Option Nat) : State :=
  let s := s.modSeq p (fun q => (q.setPlace k none).release (d.rd ++ d.wr))
  let s := match ctr with
    | some c => s.addCtr p c 1
    | none => s
  (s.modPav p (fun x => x.dropWaiter (.dma p k))).settlePosts p

/-- Tag slots of a local range that an instruction orders by tags: those of the garden, in full/empty mode (R187, R241). -/
def Seq.tagsOf (q : Seq) (stage : Bool) (a len : Nat) : List Nat := if q.tagged && !stage then tagRange a len else []

/-- A transfer of a place fails (R204, R245): program fault 0x03, and the place and its entries are free. -/
def State.dmaFail (s : State) (p k : Nat) (d : Dma) (opcode : Nat) : State :=
  (((s.modSeq p (fun q => (q.setPlace k none).release (d.rd ++ d.wr))).modPav p (fun x =>
    x.dropWaiter (.dma p k))).modRx (.dma (Fin.ofNat 224 p)) (fun x => x.dropOwner (.dma k))).programFault p 3 d.slot opcode

/-- A transfer waits on a tag, or fails at a broken one (R243, R246). -/
def State.dmaTagged (s : State) (p k : Nat) (d : Dma) (opcode : Nat) (reads writes : List Nat) (f : State → State) : State :=
  match (s.pav p).passTags reads writes [] with
  | .broken t => (s.brokenTag p t).dmaFail p k d opcode
  | .wait t _ =>
    (s.modSeq p (fun q => q.setPlace k (some { d with tagWait := some t }))).modPav p (fun x => x.addWaiter t (.dma p k) s.ns)
  | .go => f ((s.modSeq p (fun q => q.setPlace k (some { d with tagWait := none }))).modPav p (fun x => x.dropWaiter (.dma p k)))

/-! ### DCOPY (R198, R199) -/

/-- The fields of a DCOPY. Spaces: 0 garden, 1 engine stage, 2 HBM, 3 remote cell. -/
structure Dcopy where
  sspc : Nat
  dspc : Nat
  ctr : Nat
  ci : Bool
  rows : Nat
  saddr : Nat
  daddr : Nat
  deriving DecidableEq, Repr

def dcopyOf (w : Nat) : Dcopy :=
  { sspc := bits w 119 118, dspc := bits w 117 116, ctr := bits w 115 112, ci := bit w 111
    rows := if bits w 110 91 = 0 then 1048576 else bits w 110 91, saddr := bits w 87 44, daddr := bits w 43 0 }

def Dcopy.len (d : Dcopy) : Nat := 64 * d.rows

/-- An address that R199 admits at issue: aligned, within the bits of its space, and, of a local space, with its range. -/
def dcopyAddrOk (spc a len : Nat) : Bool :=
  decide (a % 64 = 0) && (match spc with
    | 0 => decide (a + len ≤ 2 ^ 28)
    | 1 => decide (a < 2 ^ 23 ∧ a + len ≤ 2 ^ 23)
    | 2 => true
    | _ => decide (a < 2 ^ 36))

/-- The fabric address of a remote cell address of *DCOPY addresses*. -/
def remoteAddr (a : Nat) : Nat := 2 ^ 36 * bits a 35 27 + 2 ^ 27 * bits a 26 18 + bits a 17 0

/-- An address of a DCOPY as the fabric carries it. -/
def dcopyFabric (p spc a : Nat) : Nat :=
  match spc with
  | 0 => 3 * 2 ^ 45 + 2 ^ 28 * p + a
  | 1 => 2 * 2 ^ 45 + 2 ^ 23 * p + a
  | 2 => 2 ^ 45 + a
  | _ => remoteAddr a

/-- A side of a DCOPY that the gate lets pass (R199, R210): HBM in the usable length, or a cell of the allotment outside
whose monitor region a write stays. -/
def State.dcopyInside (s : State) (al spc a len : Nat) (write : Bool) : Bool :=
  match spc with
  | 2 => s.hbmFits al a len
  | 3 => (s.cellIn al (bits a 35 27) (bits a 26 18)).isSome && decide (bits a 17 0 + len ≤ 0x40000) &&
      !(write && inMonitor (bits a 17 0) len)
  | _ => true

/-- The local ranges of a DCOPY (R203). -/
def Dcopy.rngs (d : Dcopy) : List Rng :=
  (if d.sspc < 2 then [Rng.of (d.sspc = 1) d.saddr d.len true false] else []) ++
  (if d.dspc < 2 then [Rng.of (d.dspc = 1) d.daddr d.len false true] else [])

/-- Why a DCOPY is refused (R185, R199, R210, R242). -/
def State.dcopyRefuse (s : State) (al w : Nat) (tagged : Bool) : Option Nat :=
  let d := dcopyOf w
  if bits w 90 88 ≠ 0 ∨ !dcopyAddrOk d.sspc d.saddr d.len ∨ !dcopyAddrOk d.dspc d.daddr d.len ∨
      (d.dspc = 0 ∧ touchesMonitor d.daddr d.len) then some 1
  else match d.rngs.findSome? (Rng.code tagged) with
    | some c => some c
    | none => if s.dcopyInside al d.sspc d.saddr d.len false && s.dcopyInside al d.dspc d.daddr d.len true then none else some 4

/-- The endpoint that answers for a side of a DCOPY: the plot's HBM agent, or the remote cell. -/
def dcopyEnd (p spc a : Nat) : BitVec 9 × BitVec 9 :=
  if spc = 2 then (BitVec.ofNat 9 (plotOf p), 481) else (BitVec.ofNat 9 (bits a 35 27), BitVec.ofNat 9 (bits a 26 18))

/-- The HBM keep area of a pavilion's allotment is full, so that a write to HBM waits at issue (R450, R451). -/
def State.keepAreaFull (s : State) (p spc : Nat) : Bool :=
  match s.allotOfPav p with
  | some a => spc == 2 && (s.allot a).launchJob.isSome && decide (1048576 ≤ (s.allot a).keep.length)
  | none => false

/-- How a DCOPY issues. -/
def State.dcopyIssue (s : State) (p w : Nat) : Issue :=
  let q := (s.pav p).seq
  { unit := 3, cad := .free, ready := q.freePlace.isSome && !s.keepAreaFull p (dcopyOf w).dspc
    refuse := s.dcopyRefuse ((s.allotOfPav p).getD 16) w q.tagged, rngs := (dcopyOf w).rngs }

/-- Where a side of a DCOPY lies. -/
def State.dcopyTarget (s : State) (p al spc a : Nat) : Target :=
  match spc with
  | 0 => .cell p a
  | 1 => .stage p a
  | 2 => .hbm a
  | _ => s.resolve al (remoteAddr a)

/-- Reads rows at a target. -/
def State.rowsAt (s : State) (al : Nat) (t : Target) (n : Nat) : List (List Byte × Bool) × State :=
  match t with
  | .cell p a => s.rowsRead p false (a / 64) n
  | .stage p a => s.rowsRead p true (a / 64) n
  | .hbm o => s.allotRead al o n
  | .outside => ([], s)

/-- Writes rows at a target. -/
def State.putRowsAt (s : State) (al : Nat) (t : Target) (w : Writer) (rows : List (List Byte × Bool)) : State :=
  let at_ := fun (a : Nat) => ((List.range rows.length).zip rows).map (fun e => (a / 64 + e.1, e.2.1, e.2.2))
  match t with
  | .cell p a => s.writeRows p false w (at_ a)
  | .stage p a => s.writeRows p true w (at_ a)
  | .hbm o => s.allotWrite al o w.unit rows
  | .outside => s

/-- The copy map notes local rows that came from HBM (R438); it holds 256 pairs, and the oldest go first. -/
def State.noteCopy (s : State) (p al : Nat) (stage : Bool) (a off len : Nat) : State :=
  let runs := rangeRuns (s.allot al).ranges off len
  let pairs := (runs.foldl (fun (m : Nat × List CopyPair) r =>
    (m.1 + r.2, m.2 ++ [{ stage := stage, base := m.1 / 64, limit := (m.1 + r.2) / 64, hbm := r.1 }])) (a, [])).2
  s.modSeq p (fun q => { q with copyMap := (pairs.reverse ++ q.copyMap).take 256 })

/-- Copies len bytes of a DCOPY between local spaces, from an offset of its range. -/
def State.dcopyMove (s : State) (p al o len : Nat) (x : Dma) : State :=
  let d := dcopyOf x.w.toNat
  let r := s.rowsAt al (s.dcopyTarget p al d.sspc (d.saddr + o)) (len / 64)
  r.2.putRowsAt al (r.2.dcopyTarget p al d.dspc (d.daddr + o)) x.writer r.1

/-- A DCOPY between local spaces in full/empty mode moves its slots of 4 KiB in order: it waits for each source slot to be full and
each destination slot to be empty as it reaches them (R243, R244). -/
def State.dcopySlots (s : State) (p k : Nat) : Nat → State
  | 0 => s
  | n + 1 =>
    match (s.pav p).seq.place k with
    | none => s
    | some x =>
      let d := dcopyOf x.w.toNat
      let o := 4096 * x.done
      if d.len ≤ o then s
      else
        let q := (s.pav p).seq
        let len := min 4096 (d.len - o)
        let reads := if d.sspc = 0 then q.tagsOf false (d.saddr + o) len else []
        let writes := if d.dspc = 0 then q.tagsOf false (d.daddr + o) len else []
        let goes := (s.pav p).passTags reads writes [] == .go
        let s := s.dmaTagged p k x 0x80 reads writes (fun s =>
          let s := (s.modPav p (fun v => v.fillStart writes)).dcopyMove p ((s.allotOfPav p).getD 16) o len x
          (s.modPav p (fun v => (v.readEnd reads).fillEnd writes)).modSeq p (fun q =>
            q.setPlace k (some { x with done := x.done + 1, tagWait := none })))
        if goes then s.dcopySlots p k n else s

/-- A DCOPY moves slot by slot: between local spaces, one of them a garden in full/empty mode. -/
def Seq.dcopyTagged (q : Seq) (d : Dcopy) : Bool :=
  q.tagged && decide (d.sspc < 2 ∧ d.dspc < 2) && decide (d.sspc = 0 ∨ d.dspc = 0)

/-- The parts of a DCOPY that travels as packets: a READ of a source beyond the pavilion, else a transfer to a destination beyond it
(R287, R291; log 26). -/
def Dcopy.parts (d : Dcopy) (p : Nat) : Option Parts :=
  let src := dcopyFabric p d.sspc d.saddr
  let dst := dcopyFabric p d.dspc d.daddr
  if 2 ≤ d.sspc then some (Parts.first true (dcopyEnd p d.sspc d.saddr) src dst d.len)
  else if 2 ≤ d.dspc then some (Parts.first false (dcopyEnd p d.dspc d.daddr) dst src d.len)
  else none

/-- The effect of a DCOPY of a stream at a slot: it takes place k; packets of a transfer beyond the pavilion go out, and one between
local spaces in full/empty mode moves the slots that it may. -/
def dcopyEff (p : PavIx) (i w slot k : Nat) (ids : List Nat) (s : State) : State :=
  let d := dcopyOf w
  let x := { dmaOf s p.val i slot w .dcopy d.rngs ids with parts := d.parts p.val }
  let s := (s.modSeq p.val (fun q => q.setPlace k (some x))).modRx (.dma p) (fun y => y.dropOwner (.dma k))
  if x.parts.isSome then s.pumpParts (.dma p) (.dma k) 4
  else if (s.pav p.val).seq.dcopyTagged d then s.dcopySlots p.val k (d.rows / 64 + 1)
  else s

def State.runDcopy (s : State) (p : PavIx) (i w : Nat) : State :=
  let q := (s.pav p.val).seq
  s.issue p.val i 0x80 (s.dcopyIssue p.val w) (dcopyEff p i w (q.stream i).slot (q.freePlace.getD 0))

/-- A DCOPY's last byte has landed, or can: every part of one that travels as packets has finished (R292), every slot of one that
moves slot by slot is moved, and any other moves whole as it finishes. -/
def State.dcopyDone (s : State) (p : Nat) (x : Dma) : Bool :=
  let d := dcopyOf x.w.toNat
  match x.parts with
  | some y => y.over
  | none => !(s.pav p).seq.dcopyTagged d || decide (d.len ≤ 4096 * x.done)

/-- The last byte of a DCOPY lands (R193, R198, R438). -/
def State.dcopyLand (s : State) (p k al : Nat) (x : Dma) (mismatch : Bool) : State :=
  let d := dcopyOf x.w.toNat
  let s := if x.parts.isSome || (s.pav p).seq.dcopyTagged d then s else s.dcopyMove p al 0 d.len x
  let s := if d.sspc = 2 ∧ d.dspc < 2 then s.noteCopy p al (d.dspc = 1) d.daddr d.saddr d.len else s
  let s := s.dmaEnd p k x (if d.ci then some d.ctr else none)
  if mismatch then s.checkFault p (s.pavRec p 0x08 1 6 0) else s

/-- R193, R426: a DCOPY ends, one between local spaces with its digests compared. The fault of one that fails is raised where its
transfer fails (R307), so that none is left to fail here. -/
def execDcopyFinish (p : PavIx) (k : Fin 4) (e : XferEnd) (s : State) : Res :=
  match (s.pav p.val).seq.place k.val with
  | some x =>
    let al := (s.allotOfPav p.val).getD 16
    if x.kind != .dcopy || !(s.plot (plotOf p.val)).e.on || !s.dcopyDone p.val x then .next s
    else match e with
      | .failed => .next s
      | .landed => .next (s.dcopyLand p.val k.val al x false)
      | .digestMismatch => onlyIf x.parts.isNone s (s.dcopyLand p.val k.val al x true)
  | none => .next s

/-! ### Beats (R251, R252) -/

/-- A beat of an item. -/
def mkBeat (data cid tag kind : Nat) (last poison : Bool) : Beat :=
  { data := BitVec.ofNat 512 data
    side := BitVec.ofNat 32 (2 ^ 26 * cid + tag % 65536 * 2 ^ 10 + 256 * kind + (if last then 128 else 0) +
      if poison then 64 else 0) }

end Sys2Proof.Machine

namespace Sys2Proof

open Machine

def Beat.cid (b : Beat) : Nat := bits b.side.toNat 31 26
def Beat.tag (b : Beat) : Nat := bits b.side.toNat 25 10
def Beat.kind (b : Beat) : Nat := bits b.side.toNat 9 8
def Beat.last (b : Beat) : Bool := b.side.getLsbD 7
def Beat.poison (b : Beat) : Bool := b.side.getLsbD 6

/-- The same beat under another circuit number. -/
def Beat.withCid (b : Beat) (cid : Nat) : Beat :=
  { b with side := BitVec.ofNat 32 (2 ^ 26 * cid + b.side.toNat % 2 ^ 26) }

def Beat.setPoison (b : Beat) : Beat := { b with side := b.side ||| 64 }

/-- Fields of the header beat of a merge item (R130). -/
def Beat.mIndex (b : Beat) : Nat := bits b.data.toNat 511 480
def Beat.mSeq (b : Beat) : Nat := bits b.data.toNat 479 464
def Beat.mKind (b : Beat) : Nat := bits b.data.toNat 463 456
def Beat.mFlags (b : Beat) : Nat := bits b.data.toNat 455 448

end Sys2Proof

namespace Sys2Proof.Machine

def kDATA : Nat := 0
def kTOKEN : Nat := 1
def kSKIP : Nat := 2
def kEND : Nat := 3

/-- Adds beats to a source of a switch, to be carried on by BEAT_ARRIVAL (log 60). -/
def State.putBeats (s : State) (plot src cid : Nat) (l : List Beat) : State :=
  s.modPlot plot (fun x => { x with circuits := tmod [] x.circuits (64 * src + cid) (· ++ l) })

/-! ### PSEND (R260) -/

/-- The fields that PSEND and PRECV share. -/
structure Pxfer where
  stage : Bool
  port : Nat
  ibeats : Nat
  tbase : Nat
  ctr : Nat
  ci : Bool
  fin : Bool
  tok : Bool
  items : Nat
  addr : Nat
  deriving DecidableEq, Repr

def pxferOf (w : Nat) : Pxfer :=
  { stage := bits w 119 118 == 1, port := bits w 117 114, ibeats := if bits w 113 108 = 0 then 64 else bits w 113 108
    tbase := bits w 107 92, ctr := bits w 91 88, ci := bit w 87, fin := bit w 86, tok := bit w 85
    items := if bits w 84 69 = 0 then 65536 else bits w 84 69, addr := bits w 59 32 }

/-- Bytes of the local operand. -/
def Pxfer.len (d : Pxfer) : Nat := if d.tok then (d.items + 7) / 8 else 64 * d.ibeats * d.items

/-- Refusals that PSEND and PRECV share (R262). -/
def pxferRefuse (w : Nat) (bound : Bool) : Option Nat :=
  let d := pxferOf w
  if bits w 68 60 ≠ 0 ∨ bits w 31 0 ≠ 0 ∨ 1 < bits w 119 118 ∨ !bound ∨ (d.tok ∧ d.ibeats ≠ 1) ∨ d.addr % 64 ≠ 0 then some 1
  else none

/-- A transfer of a kind that runs on a port. -/
def Seq.onPort (q : Seq) (kind : DmaKind) (port : Nat) : Option (Nat × Dma) :=
  (List.range 4).findSome? (fun k => (q.place k).bind (fun d =>
    if d.kind = kind ∧ (pxferOf d.w.toNat).port = port then some (k, d) else none))

/-- Data beats of a PSEND, and all of them with the END that may follow. -/
def Pxfer.beats (d : Pxfer) : Nat := d.ibeats * d.items
def Pxfer.allBeats (d : Pxfer) : Nat := d.beats + if d.fin then 1 else 0

/-- Beats that one row of the source gives. -/
def Pxfer.perRow (d : Pxfer) : Nat := if d.tok then 512 else 1

/-- Data beat n of a PSEND, from the row of its source (R260). -/
def Pxfer.beat (d : Pxfer) (cid n : Nat) (row : List Byte × Bool) : Beat :=
  if d.tok then
    mkBeat (if (lget 0 row.1 (n % 512 / 8)).getLsbD (n % 8) then 1 else 0) cid (d.tbase + n) kTOKEN true row.2
  else mkBeat (leNat row.1) cid (d.tbase + n / d.ibeats) kDATA (decide (n % d.ibeats + 1 = d.ibeats)) row.2

/-- Buffers of a switch source that are free for a circuit: its part of the channel's, at least 2, less its waiting beats; never more
than what is left of the channel's 128 (R259). -/
def State.beatRoom (s : State) (plot key : Nat) : Nat :=
  let x := s.plot plot
  min (max 2 (tget 2 x.prom.division key) - (tget [] x.circuits key).length)
    (128 - sumBy (x.circuits.filter (fun e => e.1 / 64 == key / 64)) (fun e => e.2.length))

/-- Sends the next beats of a PSEND that its switch has buffers for, up to the end of the 4 KiB slot of its source, in full/empty
mode once that is full (R243, R244, R259, R262). -/
def State.psendPump (s : State) (p k : Nat) : Nat → State
  | 0 => s
  | f + 1 =>
    match (s.pav p).seq.place k with
    | none => s
    | some x =>
      let d := pxferOf x.w.toNat
      let h := s.portsOf p
      let cid := (tget 0 (s.pav h).outBind d.port).toNat
      let src := 256 + 16 * (h % 4) + d.port
      let room := s.beatRoom (plotOf h) (64 * src + cid)
      let put := fun (s : State) (l : List Beat) => s.putBeats (plotOf h) src cid l
      if d.allBeats ≤ x.done then s.dmaEnd p k x (if d.ci then some d.ctr else none)
      else if room = 0 then s
      else if d.beats ≤ x.done then
        ((put s [mkBeat 0 cid (d.tbase + d.items) kEND true false]).modSeq p (fun q =>
          q.setPlace k (some { x with done := x.done + 1 }))).psendPump p k f
      else
        let row := x.done / d.perRow
        let stop := min d.beats (d.perRow * 64 * (row / 64 + 1))
        let n := min room (stop - x.done)
        let tags := (s.pav p).seq.tagsOf d.stage (d.addr + 64 * row) 1
        let goes := (s.pav p).passTags tags [] [] == .go
        let s := s.dmaTagged p k x 0x81 tags [] (fun s =>
          let r := s.rowsRead p d.stage (d.addr / 64 + row) ((x.done + n + d.perRow - 1) / d.perRow - row)
          let s := put r.2 ((List.range n).map (fun i =>
            d.beat cid (x.done + i) (lget ([], false) r.1 ((x.done + i) / d.perRow - row))))
          (if x.done + n = stop then s.modPav p (fun v => v.readEnd tags) else s).modSeq p (fun q =>
            q.setPlace k (some { x with done := x.done + n, tagWait := none })))
        if goes then s.psendPump p k f else s

/-- Rounds that a PSEND can take at once: two for each slot of its source, and its end. -/
def Pxfer.rounds (d : Pxfer) : Nat := 2 * (d.len / 4096 + 2)

def State.psendGo (s : State) (p k : Nat) (x : Dma) : State :=
  (s.modSeq p (fun q => q.setPlace k (some x))).psendPump p k (pxferOf x.w.toNat).rounds

/-- How a PSEND issues. -/
def State.psendIssue (s : State) (p w : Nat) : Issue :=
  let q := (s.pav p).seq
  let d := pxferOf w
  { unit := 3, cad := .free, ready := q.freePlace.isSome && (q.onPort .psend d.port).isNone
    refuse := pxferRefuse w (tget? (s.pav (s.portsOf p)).outBind d.port).isSome
    rngs := [Rng.of d.stage d.addr d.len true false] }

def State.runPsend (s : State) (p i w : Nat) : State :=
  let q := (s.pav p).seq
  let x := s.psendIssue p w
  s.issue p i 0x81 x (fun ids s =>
    s.psendGo p (q.freePlace.getD 0) (dmaOf s p i (q.stream i).slot w .psend x.rngs ids))

/-! ### PRECV (R261, R262) -/

/-- A PRECV begins when the tags of its destination are empty; they become filling (R243). -/
def State.precvStart (s : State) (p k : Nat) (x : Dma) : State :=
  let d := pxferOf x.w.toNat
  let tags := (s.pav p).seq.tagsOf d.stage d.addr d.len
  s.dmaTagged p k x 0x82 [] tags (fun s => s.modPav p (fun v => v.fillStart tags))

/-- How a PRECV issues. -/
def State.precvIssue (s : State) (p w : Nat) : Issue :=
  let q := (s.pav p).seq
  let d := pxferOf w
  { unit := 3, cad := .free, ready := q.freePlace.isSome && (q.onPort .precv d.port).isNone
    refuse := (pxferRefuse w ((s.pav (s.portsOf p)).inBind.contains d.port)).or
      (if d.fin ∨ (d.stage = false ∧ touchesMonitor d.addr d.len) then some 1 else none)
    rngs := [Rng.of d.stage d.addr d.len false true] }

def State.runPrecv (s : State) (p i w : Nat) : State :=
  let q := (s.pav p).seq
  let x := s.precvIssue p w
  s.issue p i 0x82 x (fun ids s =>
    s.precvStart p (q.freePlace.getD 0) (dmaOf s p i (q.stream i).slot w .precv x.rngs ids))

/-- The first whole item of a list of beats, and the beats after it. -/
def firstItem : List Beat → Option (List Beat × List Beat)
  | [] => none
  | b :: t => if b.last then some ([b], t) else (firstItem t).map (fun e => (b :: e.1, e.2))

/-- A PRECV is over: its destination's tags are full, and it has finished. -/
def State.precvEnd (s : State) (p k : Nat) (x : Dma) : State :=
  let d := pxferOf x.w.toNat
  let tags := (s.pav p).seq.tagsOf d.stage d.addr d.len
  (s.modPav p (fun v => v.fillEnd tags)).dmaEnd p k x (if d.ci then some d.ctr else none)

/-- A position of a PRECV is over, and with the last one the PRECV. -/
def State.precvNext (s : State) (p k : Nat) (x : Dma) : State :=
  let x := { x with done := x.done + 1 }
  if (pxferOf x.w.toNat).items ≤ x.done then s.precvEnd p k x else s.modSeq p (fun q => q.setPlace k (some x))

/-- Writes the predicate bit of a position (R262). -/
def State.putToken (s : State) (p : Nat) (x : Dma) (v poison : Bool) : State :=
  let d := pxferOf x.w.toNat
  let row := d.addr / 64 + x.done / 512
  let r := s.rowRead p d.stage row
  let o := x.done % 512 / 8
  let old := lget 0 r.1.1 o
  let m : Byte := BitVec.ofNat 8 (2 ^ (x.done % 8))
  let b := if v then old ||| m else old &&& ~~~m
  r.2.writeRows p d.stage x.writer [(row, r.1.1.set o b, r.1.2 || poison)]

/-- Poisons the whole destination of a PRECV, and sets INDEX (R132). -/
def State.precvIndexEnd (s : State) (p : Nat) (d : Pxfer) : State :=
  let n := (d.len + 63) / 64
  (s.each (List.range n) (fun s i => s.poisonLocal p (d.stage, d.addr / 64 + i))).raise p .idx fIndex

/-- An item meets a PRECV. The header beats of a merge stream's watermarks and END are told by their kind (log 69). -/
def State.precvLand (s : State) (p k : Nat) (x : Dma) (item : List Beat) : State :=
  let d := pxferOf x.w.toNat
  let h := lget { data := 0, side := 0 } item 0
  let home := s.portsOf p
  let fault := s.skewFault (plotOf home) (256 + 16 * (home % 4) + d.port) ((d.tbase + x.done) % 65536) h.tag
  let alone := !d.tok && h.kind == kDATA && item.length == 1 && d.ibeats != 1
  if x.done = 0 ∧ h.tag ≠ d.tbase then fault
  else if alone && h.mKind == 3 then
    let s := if h.mFlags.testBit 1 then s.precvIndexEnd p d else s
    s.precvEnd p k x
  else if alone && h.mKind == 2 then s
  else match h.kind with
    | 0 =>
      if d.tok ∨ item.length ≠ d.ibeats then fault
      else
        let row := d.addr / 64 + d.ibeats * x.done
        (s.writeRows p d.stage x.writer (((List.range item.length).zip item).map (fun e =>
          (row + e.1, natLE 64 e.2.data.toNat, e.2.poison)))).precvNext p k x
    | 1 => if d.tok then (s.putToken p x (h.data.getLsbD 0) h.poison).precvNext p k x else fault
    | 2 => (if d.tok then s.putToken p x false h.poison else s).precvNext p k x
    | _ => s.precvEnd p k x

/-- R262: the oldest whole item at an in port meets the PRECV that runs there. -/
def execPrecvItem (p : PavIx) (port : Fin 16) (s : State) : Res :=
  let v := s.pav p.val
  match v.seq.onPort .precv port.val with
  | some (k, x) =>
    let home := s.portsOf p.val
    match firstItem (tget [] (s.pav home).inBuf port.val) with
    | some (item, rest) =>
      onlyIf (x.tagWait.isNone && (s.plot (plotOf p.val)).e.on) s
        ((s.modPav home (fun y => { y with inBuf := tset y.inBuf port.val rest })).precvLand p.val k x item)
    | none => .next s
  | none => .next s

end Sys2Proof.Machine
end

