-- ==== Sys2Proof/Machine/Unpack.lean ====
section
/-! DEFINITION. The unpack path: MUNPK and MPACK (R160, R162–R165, R172), which execute whole at their issue (log 8). -/

namespace Sys2Proof.Machine

/-- What a residue check of the unpack path leaves (R423): the square whose check fails is poisoned, and a check fault is
raised. -/
def State.unpackCheck (s : State) (p : Nat) (c : Chk) (rows : List (Nat × Nat)) : State :=
  match c with
  | none => s
  | some k => match rows[k]? with
    | none => s
    | some e =>
      let s := s.each (List.range (e.2 - e.1)) (fun s i => s.poisonLocal p (true, e.1 + i))
      s.checkFault p { s.pavRec p 0x02 1 2 5 with address := BitVec.ofNat 64 e.1 }

/-- The 64-byte rows of len bytes at an address, as a half-open range. -/
def rowSpan (a len : Nat) : Nat × Nat := (a / 64, (a + len + 63) / 64)

/-- An address of a matrix of squares that must lie in the engine stage. -/
def stageSquare (a : Nat) : Option Nat :=
  match squareAddr a with
  | some (true, x) => some x
  | _ => none

/-! ### The path's pipeline (R163) -/

/-- A square that the path has read and converted: where it goes, its elements and their width, its flags, and the scales of its
blocks with their block rows. -/
structure PathSquare where
  dst : Nat
  width : Nat
  elems : List Put
  flags : Flags
  scales : List (Nat × List Put)

/-- Writes a square (R163, R164). -/
def State.writeSquare (s : State) (p i : Nat) (x : PathSquare) : State :=
  (s.putElems p true { unit := 1, stream := i, iv := ((s.pav p).seq.stream i).interval } x.width x.dst x.elems false).raise p .idx
    x.flags

/-- Runs squares through the path: one is read every 2 A-cycles and written 12 A-cycles after its reading, so six later ones have
been read by then (R163; log 108). Answers the scales of all squares. -/
def State.runPath (s : State) (p i : Nat) (read : State → Nat × Nat → PathSquare × State) :
    List (Nat × Nat) → List PathSquare → List (Nat × List Put) → List (Nat × List Put) × State
  | [], held, acc => (acc, s.each held (fun s x => s.writeSquare p i x))
  | e :: t, held, acc =>
    let r := read s e
    let held := held ++ [r.1]
    match held with
    | x :: rest =>
      if 6 < held.length then (r.2.writeSquare p i x).runPath p i read t rest (acc ++ r.1.scales)
      else r.2.runPath p i read t held (acc ++ r.1.scales)
    | [] => r.2.runPath p i read t held acc

/-! ### MUNPK -/

structure Munpk where
  sfmt : Nat
  srows : Nat
  scols : Nat
  saddr : Nat
  daddr : Nat
  caddr : Nat
  deriving DecidableEq, Repr

def munpkOf (w : Nat) : Munpk :=
  { sfmt := bits w 119 116, srows := if bits w 115 104 = 0 then 4096 else bits w 115 104
    scols := if bits w 103 96 = 0 then 256 else bits w 103 96, saddr := (stageSquare (bits w 95 64)).getD 0
    daddr := (stageSquare (bits w 63 32)).getD 0, caddr := 64 * bits w 31 15 }

/-- Refusals of a MUNPK (R162). -/
def munpkRefuse (w xpitch : Nat) : Option Nat :=
  if [6, 7, 11].contains (bits w 119 116) = false ∨ (stageSquare (bits w 95 64)).isNone ∨ (stageSquare (bits w 63 32)).isNone ∨
      bits w 14 0 ≠ 0 ∨ xpitch % 16 ≠ 0 then some 1
  else none

/-- One element restored to BF16: a NaN, or any element under the scale 0xFF, gives 0x7FC0 without a flag, an infinity stays
(R164). -/
def restore (sfmt v scale : Nat) : Nat × Flags :=
  let x := readElem sfmt v
  if scale = 255 || x.isNan then (0x7FC0, 0)
  else
    let y := bf16.round none (x.scale (scale - 127))
    (bf16.encode y.1, y.2)

/-- Reads and restores square (a, b) (R160, R164, R165). -/
def State.readStash (p : Nat) (m : Munpk) (xp yp : Nat) (s : State) (e : Nat × Nat) : PathSquare × State :=
  let d := s.operandBytes p true (m.saddr + e.1 * xp + 1024 * e.2) 1024
  let c := d.2.operandBytes p true (m.caddr + 32 * (e.1 * (xp / 1024) + e.2)) 32
  let vs := ((List.range 1024).zip d.1.1).map (fun x => restore m.sfmt x.2.toNat (lget 0 c.1.1 (x.1 / 32)).toNat)
  let bad := d.1.2 || c.1.2
  ({ dst := m.daddr + e.1 * yp + 2048 * e.2, width := 16, elems := vs.map (fun v => { val := some v.1, poison := bad })
     flags := orFlags (vs.map (·.2)) ||| flagIf bad fPoison, scales := [] }, c.2)

/-- How an MUNPK of a stream issues. -/
def munpkIssue (t : Strm) (w : Nat) : Issue :=
  let m := munpkOf w
  let xp := 64 * t.xpitch.toNat
  let yp := 64 * t.ypitch.toNat
  { unit := 1, cad := .free, ready := true, refuse := munpkRefuse w t.xpitch.toNat
    rngs := [Rng.of true m.saddr ((m.srows - 1) * xp + 1024 * m.scols) true false,
      Rng.of true m.caddr (32 * ((m.srows - 1) * (xp / 1024) + m.scols)) true false,
      Rng.of true m.daddr ((m.srows - 1) * yp + 2048 * m.scols) false true] }

/-- The effect of an MUNPK of a stream: every square, then its check. -/
def munpkEff (p i w : Nat) (c : Chk) (t : Strm) (ids : List Nat) (s : State) : State :=
  let m := munpkOf w
  let xp := 64 * t.xpitch.toNat
  let yp := 64 * t.ypitch.toNat
  let squares := (List.range m.srows).flatMap (fun a => (List.range m.scols).map (fun b => (a, b)))
  let s := (s.runPath p i (State.readStash p m xp yp) squares [] []).2
  (s.release p ids).unpackCheck p c (squares.map (fun e => rowSpan (m.daddr + e.1 * yp + 2048 * e.2) 2048))

def State.runMunpk (s : State) (p i w : Nat) (c : Chk) : State :=
  let t := (s.pav p).seq.stream i
  s.issue p i 0x18 (munpkIssue t w) (munpkEff p i w c t)

/-! ### MPACK -/

structure Mpack where
  dfmt : Nat
  spa : Bool
  rnd : Bool
  rows : Nat
  cols : Nat
  saddr : Nat
  daddr : Nat
  caddr : Nat
  deriving DecidableEq, Repr

def mpackOf (w : Nat) : Mpack :=
  { dfmt := bits w 119 116, spa := bits w 115 114 == 1, rnd := bit w 113
    rows := if bits w 112 103 = 0 then 1024 else bits w 112 103, cols := if bits w 102 94 = 0 then 512 else bits w 102 94
    saddr := (stageSquare (bits w 63 32)).getD 0, daddr := (stageSquare (bits w 31 0)).getD 0, caddr := 64 * bits w 80 64 }

/-- Stored rows of one block along K (R101, R172). -/
def Mpack.block (m : Mpack) : Nat := if m.spa then 16 else 32

/-- Refusals of an MPACK (R172). -/
def mpackRefuse (w : Nat) : Option Nat :=
  let m := mpackOf w
  if isMx m.dfmt = false ∨ 1 < bits w 115 114 ∨ m.rows % m.block ≠ 0 ∨ bits w 93 81 ≠ 0 ∨
      (stageSquare (bits w 63 32)).isNone ∨ (stageSquare (bits w 31 0)).isNone then some 1
  else none

/-- Reads square (a, b) and packs its blocks along K (R42, R172); `base` is the number of the instruction's first draw. -/
def State.readPack (p : Nat) (m : Mpack) (xp yp base : Nat) (s : State) (e : Nat × Nat) : PathSquare × State :=
  let n := m.block
  let rows := min 32 (m.rows - 32 * e.1)
  let cols := min 32 (m.cols - 32 * e.2)
  let epoch := (s.pav p).epoch
  let r := s.operandRows p true ((m.saddr + e.1 * xp + 2048 * e.2) / 64) rows
  let vals := r.1.map (fun x => unpackElems 16 32 x.1)
  let blocks := (List.range (rows / n)).map (fun h =>
    let bad := (List.range n).any (fun k => (lget ([], false) r.1 (n * h + k)).2)
    ((List.range cols).map (fun c =>
      packBlock m.dfmt (fun k => drawAt m.rnd p epoch (base + n * (m.cols * (e.1 * (32 / n) + h) + 32 * e.2 + c)) k)
        ((List.range n).map (fun k => bf16.read (lget 0 (lget [] vals (n * h + k)) c)))), bad))
  let block := fun h => lget ([], false) blocks h
  let elems := (List.range 32).flatMap (fun y => (List.range 32).map (fun x =>
    if y < rows ∧ x < cols then
      ({ val := some (lget (0, 0) (lget (0, []) (block (y / n)).1 x).2 (y % n)).1, poison := (block (y / n)).2 } : Put)
    else { val := none, poison := false }))
  ({ dst := m.daddr + e.1 * yp + squareBytes m.dfmt * e.2, width := elemBits m.dfmt, elems := elems
     flags := orFlags (blocks.flatMap (fun b => b.1.map (fun x => orFlags (x.2.map (·.2))))) ||| flagIf (blocks.any (·.2)) fPoison
     scales := ((List.range (rows / n)).zip blocks).map (fun x =>
      (e.1 * (32 / n) + x.1, x.2.1.map (fun y => { val := some y.1, poison := x.2.2 }))) }, r.2)

/-- Writes the scale plane, a block row at a time, in the layout of R80 (R172; log 108). -/
def State.putScales (s : State) (p i : Nat) (m : Mpack) (l : List (Nat × List Put)) : State :=
  s.each (List.range (m.rows / m.block)) (fun s b =>
    s.putElems p true { unit := 1, stream := i, iv := ((s.pav p).seq.stream i).interval } 8 (m.caddr + 512 * b)
      ((l.filter (fun e => e.1 == b)).flatMap (·.2)) false)

/-- How an MPACK of a stream issues. -/
def mpackIssue (t : Strm) (w : Nat) : Issue :=
  let m := mpackOf w
  let xp := 64 * t.xpitch.toNat
  let yp := 64 * t.ypitch.toNat
  let nb := m.rows / m.block
  { unit := 1, cad := .free, ready := true, refuse := mpackRefuse w
    rngs := [Rng.of true m.saddr (squareExtent 12 xp m.rows m.cols) true false,
      Rng.of true m.daddr (squareExtent m.dfmt yp m.rows m.cols) false true,
      Rng.of true m.caddr (512 * (nb - 1) + m.cols) false true] }

/-- The effect of an MPACK of a stream: every block along K, then its check. -/
def mpackEff (p i w : Nat) (c : Chk) (t : Strm) (ids : List Nat) (s : State) : State :=
  let m := mpackOf w
  let xp := 64 * t.xpitch.toNat
  let yp := 64 * t.ypitch.toNat
  let squares := (List.range ((m.rows + 31) / 32)).flatMap (fun a => (List.range ((m.cols + 31) / 32)).map (fun b => (a, b)))
  let r := s.runPath p i (State.readPack p m xp yp (s.pav p).draws) squares [] []
  let s := r.2.putScales p i m r.1
  let s := if m.rnd then s.modPav p (fun v => { v with draws := v.draws + m.rows * m.cols }) else s
  (s.release p ids).unpackCheck p c (squares.map (fun e =>
    rowSpan (m.daddr + e.1 * yp + e.2 * squareBytes m.dfmt) (squareBytes m.dfmt)))

def State.runMpack (s : State) (p i w : Nat) (c : Chk) : State :=
  let t := (s.pav p).seq.stream i
  s.issue p i 0x1C (mpackIssue t w) (mpackEff p i w c t)

end Sys2Proof.Machine
end

