-- ==== Sys2Proof/Machine/Vector.lean ====
section
/-! DEFINITION. The vector engine's instructions, which execute whole at their issue (R134–R155; log 8). -/

namespace Sys2Proof.Machine

/-! ### Shared forms -/

/-- The value of the immediate for element i (R139). -/
def Vop.immFV (v : Vop) (imm i : Nat) : FV :=
  if v.sfmt = 12 ∧ v.op ≠ 0x58 ∧ v.op ≠ 0x62 then bf16.read (bits imm (16 * (i % 2) + 15) (16 * (i % 2))) else fp32.read imm

/-- Source elements that an element-wise operation takes into arithmetic. -/
def Vop.usedAll (v : Vop) (pred _imm : Nat) : List Bool := (List.range v.count).map (v.active pred)

/-- No source element is taken into arithmetic. -/
def usedNone (_pred _imm : Nat) : List Bool := []

/-- An element-wise operation: f gives the bits and flags of element i, and bad whether it is poisoned. -/
def State.veMap (s : State) (p i : Nat) (v : Vop) (used : Nat → Nat → List Bool) (f : VIn → Nat → Nat × Flags)
    (bad : VIn → Nat → Bool) : State :=
  let r := s.veRead p v used used
  let out := (List.range v.count).map (fun j =>
    if v.active r.1.pred j then let e := f r.1 j; some (e.1, e.2, bad r.1 j) else none)
  r.2.vePut p i v r.1 [out]

/-- Takes the draws of an instruction that rounds stochastically (R47, R50). -/
def State.takeDraws (s : State) (p : Nat) (on : Bool) (n : Nat) : State :=
  if on then s.modPav p (fun v => { v with draws := v.draws + n }) else s

/-- Whether an instruction's results are rounded stochastically. -/
def Vop.stochastic (v : Vop) : Bool := v.rnd && decide (v.dfmt < 14)

/-- The mode of the rounding of element j. -/
def State.roundAt (s : State) (p : Nat) (v : Vop) (j : Nat) : Rnd :=
  drawAt v.stochastic p (s.pav p).epoch (s.pav p).draws j

/-- An element-wise operation on values, rounded once to dfmt. -/
def State.veArith (s : State) (p i : Nat) (v : Vop) (g : VIn → Nat → FV × Flags) (bad : VIn → Nat → Bool) : State :=
  let mode := s.roundAt p v
  (s.veMap p i v v.usedAll (fun x j =>
    let r := g x j
    let o := convert v.dfmt (mode j) r.1
    (o.1, r.2 ||| o.2)) bad).takeDraws p v.stochastic v.count

def VIn.av (x : VIn) (v : Vop) (j : Nat) : FV := readElem v.sfmt (x.aVal j)
def VIn.bv (x : VIn) (v : Vop) (j : Nat) : FV := readElem v.sfmt (x.bVal j)
def VIn.dv (x : VIn) (v : Vop) (j : Nat) : FV := readElem v.sfmt (x.dVal j)

def badA (x : VIn) (j : Nat) : Bool := x.aBad j
def badAB (x : VIn) (j : Nat) : Bool := x.aBad j || x.bBad j
def badAI (x : VIn) (j : Nat) : Bool := x.aBad j || x.immBad

/-- INT32 operations: bits of element j from those of a and b. -/
def State.veInt (s : State) (p i : Nat) (v : Vop) (f : VIn → Nat → Nat) (bad : VIn → Nat → Bool) : State :=
  s.veMap p i v v.usedAll (fun x j => (f x j % 2 ^ 32, 0)) bad

/-- An exact operation moves values and consumes no poison (log 65). -/
def State.veMove (s : State) (p i : Nat) (v : Vop) (f : VIn → Nat → Nat) (bad : VIn → Nat → Bool) : State :=
  s.veMap p i v usedNone (fun x j => (f x j, 0)) bad

/-- Inverts the sign of a floating element; hi and lo together for a pair (R141). -/
def signFlip (code b : Nat) : Nat :=
  let w := elemBits code
  if code = 15 then b ^^^ (2 ^ 63 + 2 ^ 31) else b ^^^ 2 ^ (w - 1)

def signSet (code b : Nat) : Bool := bit b (elemBits code - 1)

/-- A compare into a predicate (R138, R142, R154). f gives the result and flags of element j. -/
def State.veCompare (s : State) (p : Nat) (v : Vop) (f : VIn → Nat → Bool × Flags) (bad : VIn → Nat → Bool) : State :=
  let r := s.veRead p v usedNone usedNone
  let x := r.1
  let and_ := bit v.ctl 3
  let on := (List.range v.count).filter (v.active x.pred)
  let old := x.pred
  let new := on.foldl (fun m j =>
    let b := (f x j).1 && (!and_ || bit old j)
    if b == bit m j then m else if b then m + 2 ^ j else m - 2 ^ j) old
  let any := on.any (bad x)
  let whole := v.count == 8192 && !and_ && !v.pm
  let s := r.2.modVE p (fun e => { e with
    preds := e.preds.set v.pr (BitVec.ofNat 8192 new), ppoison := e.ppoison.set v.pr (any || (x.predBad && !whole)) })
  s.veFlags p (orFlags (on.map (fun j => (f x j).2)) ||| flagIf (any || (x.predBad && (v.pm || and_))) fPoison)

/-- A transcendental operation: an FP32 result, then one rounding to dfmt (R55, R141). -/
def State.veTrans (s : State) (p i : Nat) (v : Vop) : State :=
  s.veArith p i v (fun x j =>
    let a := x.av v j
    if a.isNan then transcend v.op a x.imm else transcend v.op (fp32.read (fp32.encode a)) x.imm)
    (fun x j => x.aBad j || (v.op == 0x62 && x.immBad))

/-- The effect of VADD: d := a + b. -/
def vaddEff (p i : Nat) (v : Vop) (s : State) : State :=
  s.veArith p i v (fun x j => (x.av v j).add (x.bv v j)) badAB

def State.runVadd (s : State) (p i w : Nat) (c : Chk) : State :=
  let v := vopOf 0x40 w
  s.runVe p i v c (vaddEff p i v)

/-- The effect of VSUB: d := a − b. -/
def vsubEff (p i : Nat) (v : Vop) (s : State) : State :=
  s.veArith p i v (fun x j => (x.av v j).add (x.bv v j).neg) badAB

def State.runVsub (s : State) (p i w : Nat) (c : Chk) : State :=
  let v := vopOf 0x41 w
  s.runVe p i v c (vsubEff p i v)

/-- The effect of VMUL: d := a · b. -/
def vmulEff (p i : Nat) (v : Vop) (s : State) : State :=
  s.veArith p i v (fun x j => (x.av v j).mul (x.bv v j)) badAB

def State.runVmul (s : State) (p i w : Nat) (c : Chk) : State :=
  let v := vopOf 0x42 w
  s.runVe p i v c (vmulEff p i v)

/-- The effect of VFMA: d := a · b + d, rounded once. -/
def vfmaEff (p i : Nat) (v : Vop) (s : State) : State :=
  s.veArith p i v (fun x j => FV.fma (x.av v j) (x.bv v j) (x.dv v j)) (fun x j => badAB x j || x.dBad j)

def State.runVfma (s : State) (p i w : Nat) (c : Chk) : State :=
  let v := vopOf 0x43 w
  s.runVe p i v c (vfmaEff p i v)

/-- The effect of VFMAI: d := a · imm + b, rounded once. -/
def vfmaiEff (p i : Nat) (v : Vop) (s : State) : State :=
  s.veArith p i v (fun x j => FV.fma (x.av v j) (v.immFV x.imm j) (x.bv v j)) (fun x j => badAB x j || x.immBad)

def State.runVfmai (s : State) (p i w : Nat) (c : Chk) : State :=
  let v := vopOf 0x44 w
  s.runVe p i v c (vfmaiEff p i v)

/-- The effect of VADDI: d := a + imm, or a − imm with ctl[0] = 1. -/
def vaddiEff (p i : Nat) (v : Vop) (s : State) : State :=
  s.veArith p i v (fun x j => (x.av v j).add (if v.ctl = 1 then (v.immFV x.imm j).neg else v.immFV x.imm j)) badAI

def State.runVaddi (s : State) (p i w : Nat) (c : Chk) : State :=
  let v := vopOf 0x45 w
  s.runVe p i v c (vaddiEff p i v)

/-- The effect of VMULI: d := a · imm. -/
def vmuliEff (p i : Nat) (v : Vop) (s : State) : State :=
  s.veArith p i v (fun x j => (x.av v j).mul (v.immFV x.imm j)) badAI

def State.runVmuli (s : State) (p i w : Nat) (c : Chk) : State :=
  let v := vopOf 0x46 w
  s.runVe p i v c (vmuliEff p i v)

/-- The effect of VMAX: d := max(a, b). -/
def vmaxEff (p i : Nat) (v : Vop) (s : State) : State :=
  s.veArith p i v (fun x j => FV.pick true (x.av v j) (x.bv v j)) badAB

def State.runVmax (s : State) (p i w : Nat) (c : Chk) : State :=
  let v := vopOf 0x47 w
  s.runVe p i v c (vmaxEff p i v)

/-- The effect of VMIN: d := min(a, b). -/
def vminEff (p i : Nat) (v : Vop) (s : State) : State :=
  s.veArith p i v (fun x j => FV.pick false (x.av v j) (x.bv v j)) badAB

def State.runVmin (s : State) (p i w : Nat) (c : Chk) : State :=
  let v := vopOf 0x48 w
  s.runVe p i v c (vminEff p i v)

/-- The effect of VABS: clears the sign bit of each element. -/
def vabsEff (p i : Nat) (v : Vop) (s : State) : State :=
  s.veMove p i v (fun x j =>
    if signSet v.sfmt (x.aVal j) then signFlip v.sfmt (x.aVal j) else x.aVal j) badA

def State.runVabs (s : State) (p i w : Nat) (c : Chk) : State :=
  let v := vopOf 0x49 w
  s.runVe p i v c (vabsEff p i v)

/-- The effect of VNEG: inverts the sign bit of each element. -/
def vnegEff (p i : Nat) (v : Vop) (s : State) : State :=
  s.veMove p i v (fun x j => signFlip v.sfmt (x.aVal j)) badA

def State.runVneg (s : State) (p i w : Nat) (c : Chk) : State :=
  let v := vopOf 0x4a w
  s.runVe p i v c (vnegEff p i v)

/-- The effect of VBCAST: d := imm. -/
def vbcastEff (p i : Nat) (v : Vop) (s : State) : State :=
  s.veMove p i v (fun x j =>
    if v.dfmt = 14 then x.imm % 2 ^ 32 else bits x.imm (16 * (j % 2) + 15) (16 * (j % 2))) (fun x _ => x.immBad)

def State.runVbcast (s : State) (p i w : Nat) (c : Chk) : State :=
  let v := vopOf 0x4b w
  s.runVe p i v c (vbcastEff p i v)

/-- The effect of VIADD: INT32 d := a + b, or a − b with ctl[0] = 1. -/
def viaddEff (p i : Nat) (v : Vop) (s : State) : State :=
  s.veInt p i v (fun x j =>
    if v.ctl = 1 then x.aVal j + (2 ^ 32 - x.bVal j) else x.aVal j + x.bVal j) badAB

def State.runViadd (s : State) (p i w : Nat) (c : Chk) : State :=
  let v := vopOf 0x4c w
  s.runVe p i v c (viaddEff p i v)

/-- The effect of VIMUL: INT32 d := low 32 bits of a · b. -/
def vimulEff (p i : Nat) (v : Vop) (s : State) : State :=
  s.veInt p i v (fun x j => x.aVal j * x.bVal j) badAB

def State.runVimul (s : State) (p i w : Nat) (c : Chk) : State :=
  let v := vopOf 0x4d w
  s.runVe p i v c (vimulEff p i v)

/-- The effect of VILOG: INT32 AND, OR, XOR or AND NOT. -/
def vilogEff (p i : Nat) (v : Vop) (s : State) : State :=
  s.veInt p i v (fun x j => match v.ctl with
    | 0 => x.aVal j &&& x.bVal j
    | 1 => x.aVal j ||| x.bVal j
    | 2 => x.aVal j ^^^ x.bVal j
    | _ => x.aVal j &&& (2 ^ 32 - 1 - x.bVal j)) badAB

def State.runVilog (s : State) (p i w : Nat) (c : Chk) : State :=
  let v := vopOf 0x4e w
  s.runVe p i v c (vilogEff p i v)

/-- The effect of VISHI: INT32 shift by imm, left, logical right or arithmetic right. -/
def vishiEff (p i : Nat) (v : Vop) (s : State) : State :=
  s.veInt p i v (fun x j => match v.ctl with
    | 0 => x.aVal j * 2 ^ x.imm
    | 1 => x.aVal j / 2 ^ x.imm
    | _ => ((toSigned 32 (x.aVal j) / 2 ^ x.imm) % 2 ^ 32).toNat) badAI

def State.runVishi (s : State) (p i w : Nat) (c : Chk) : State :=
  let v := vopOf 0x4f w
  s.runVe p i v c (vishiEff p i v)

/-- The effect of VCMP: p[pr] := a ⋄ b. -/
def vcmpEff (p _i : Nat) (v : Vop) (s : State) : State :=
  s.veCompare p v (fun x j => compareFV (v.ctl % 8) (x.av v j) (x.bv v j)) badAB

def State.runVcmp (s : State) (p i w : Nat) (c : Chk) : State :=
  let v := vopOf 0x50 w
  s.runVe p i v c (vcmpEff p i v)

/-- The effect of VCMPI: p[pr] := a ⋄ imm. -/
def vcmpiEff (p _i : Nat) (v : Vop) (s : State) : State :=
  s.veCompare p v (fun x j => compareFV (v.ctl % 8) (x.av v j) (v.immFV x.imm j)) badAI

def State.runVcmpi (s : State) (p i w : Nat) (c : Chk) : State :=
  let v := vopOf 0x51 w
  s.runVe p i v c (vcmpiEff p i v)

/-- The effect of VICMP: p[pr] := a ⋄ b on signed INT32. -/
def vicmpEff (p _i : Nat) (v : Vop) (s : State) : State :=
  s.veCompare p v (fun x j =>
    (compareInt (v.ctl % 8) (toSigned 32 (x.aVal j)) (toSigned 32 (x.bVal j)), 0)) badAB

def State.runVicmp (s : State) (p i w : Nat) (c : Chk) : State :=
  let v := vopOf 0x52 w
  s.runVe p i v c (vicmpEff p i v)

/-- The effect of VSEL: d := p[pr] ? a : b. -/
def vselEff (p i : Nat) (v : Vop) (s : State) : State :=
  s.veMove p i v (fun x j => if bit x.pred j then x.aVal j else x.bVal j)
    (fun x j => if bit x.pred j then x.aBad j else x.bBad j)

def State.runVsel (s : State) (p i w : Nat) (c : Chk) : State :=
  let v := vopOf 0x53 w
  s.runVe p i v c (vselEff p i v)

/-- The effect of VPST: writes predicate bits; the bits of the last byte beyond count stay. -/
def vpstEff (p i : Nat) (v : Vop) (s : State) : State :=
  let r := s.veRead p v usedNone usedNone
  let out := (List.range ((v.count + 7) / 8)).map (fun k =>
    let n := min 8 (v.count - 8 * k)
    let old := (r.2.peek p true (v.d + k)).toNat
    (some (r.1.pred / 2 ^ (8 * k) % 2 ^ n + old / 2 ^ n * 2 ^ n, 0, r.1.predBad) : VRes))
  r.2.vePut p i v r.1 [out]

def State.runVpst (s : State) (p i w : Nat) (c : Chk) : State :=
  let v := vopOf 0x54 w
  s.runVe p i v c (vpstEff p i v)

/-- The effect of VPLD: loads p[pr]; bits from count up become 0. -/
def vpldEff (p _i : Nat) (v : Vop) (s : State) : State :=
  let r := s.veRead p v usedNone usedNone
  let m := ((List.range r.1.a.length).zip r.1.a).foldl (fun m e => m + e.2.1 * 2 ^ (8 * e.1)) 0
  let bad := r.1.a.any (·.2)
  (r.2.modVE p (fun e => { e with
    preds := e.preds.set v.pr (BitVec.ofNat 8192 (m % 2 ^ v.count)), ppoison := e.ppoison.set v.pr bad })).veFlags p
    (flagIf bad fPoison)

def State.runVpld (s : State) (p i w : Nat) (c : Chk) : State :=
  let v := vopOf 0x55 w
  s.runVe p i v c (vpldEff p i v)

/-- The effect of VPCNT: writes the number of set bits among the first count of p[pr]. -/
def vpcntEff (p i : Nat) (v : Vop) (s : State) : State :=
  let r := s.veRead p v usedNone usedNone
  r.2.vePut p i v r.1 [[some (popCount r.1.pred v.count, 0, r.1.predBad)]]

def State.runVpcnt (s : State) (p i w : Nat) (c : Chk) : State :=
  let v := vopOf 0x56 w
  s.runVe p i v c (vpcntEff p i v)

/-- The effect of VCVT: d := round(a · imm). -/
def vcvtEff (p i : Nat) (v : Vop) (s : State) : State :=
  s.veArith p i v (fun x j => (x.av v j).mul (v.immFV x.imm j)) badAI

def State.runVcvt (s : State) (p i w : Nat) (c : Chk) : State :=
  let v := vopOf 0x58 w
  s.runVe p i v c (vcvtEff p i v)

/-- The effect of VPKMX: packs a into MX blocks (R42). An element that pm masks raises none of the flags of its block, a NaN or
infinity among them too (R138 raises no flag for it; DESIGN CHOICE, log 102, as R42 gives the flags to the block). -/
def vpkmxEff (p i : Nat) (v : Vop) (s : State) : State :=
  let blockOn := fun (pred b : Nat) => (List.range 32).any (fun k => v.active pred (32 * b + k))
  let used := fun (pred _ : Nat) => (List.range v.count).map (fun j => blockOn pred (j / 32))
  let r := s.veRead p v used used
  let x := r.1
  let blocks := (List.range (v.count / 32)).map (fun b =>
    let l := (List.range 32).map (fun k => x.av v (32 * b + k))
    (packBlock v.dfmt (fun k => r.2.roundAt p v (32 * b + k)) l, snanFlag l,
      (List.range 32).any (fun k => x.aBad (32 * b + k))))
  let elems := ((List.range blocks.length).zip blocks).flatMap (fun e => (List.range 32).map (fun k =>
    if v.active x.pred (32 * e.1 + k) then
      let y := lget (0, 0) e.2.1.2 k
      (some (y.1, y.2 ||| snanFlag [x.av v (32 * e.1 + k)], e.2.2.2) : VRes)
    else none))
  let scales := ((List.range blocks.length).zip blocks).map (fun e =>
    if blockOn x.pred e.1 then (some (e.2.1.1, 0, e.2.2.2) : VRes) else none)
  (r.2.vePut p i v x [elems, scales]).takeDraws p v.stochastic v.count

def State.runVpkmx (s : State) (p i w : Nat) (c : Chk) : State :=
  let v := vopOf 0x59 w
  s.runVe p i v c (vpkmxEff p i v)

/-- The effect of VUPMX: d := element · 2^(scale − 127). -/
def vupmxEff (p i : Nat) (v : Vop) (s : State) : State :=
  let mode := s.roundAt p v
  let usedB := fun (pred _ : Nat) => (List.range (v.count / 32)).map (fun b =>
    (List.range 32).any (fun k => v.active pred (32 * b + k)))
  let r := s.veRead p v v.usedAll usedB
  let x := r.1
  let out := (List.range v.count).map (fun j =>
    if v.active x.pred j then
      let sc := x.bVal (j / 32)
      let e := readElem v.sfmt (x.aVal j)
      let o := convert v.dfmt (mode j) (mxValue v.sfmt (x.aVal j) sc)
      (some (o.1, o.2 ||| (if sc = 255 then 0 else snanFlag [e]), x.aBad j || x.bBad (j / 32)) : VRes)
    else none)
  (r.2.vePut p i v x [out]).takeDraws p v.stochastic v.count

def State.runVupmx (s : State) (p i w : Nat) (c : Chk) : State :=
  let v := vopOf 0x5a w
  s.runVe p i v c (vupmxEff p i v)

/-- The effect of VSPLIT: hi and lo parts in BF16 (R91). -/
def vsplitEff (p i : Nat) (v : Vop) (s : State) : State :=
  let r := s.veRead p v v.usedAll usedNone
  let x := r.1
  let parts := (List.range v.count).map (fun j => if v.active x.pred j then some (split32 (x.av v j), x.aBad j) else none)
  r.2.vePut p i v x
    [parts.map (fun e => e.map (fun y => (bf16.encode y.1.1.1, y.1.1.2, y.2))),
      parts.map (fun e => e.map (fun y => (bf16.encode y.1.2.1, y.1.2.2, y.2)))]

def State.runVsplit (s : State) (p i w : Nat) (c : Chk) : State :=
  let v := vopOf 0x5b w
  s.runVe p i v c (vsplitEff p i v)

/-- The effect of VI2F: INT32 to dfmt. -/
def vi2fEff (p i : Nat) (v : Vop) (s : State) : State :=
  s.veArith p i v (fun x j => (FV.ofInt (toSigned 32 (x.aVal j)) 0, 0)) badA

def State.runVi2f (s : State) (p i w : Nat) (c : Chk) : State :=
  let v := vopOf 0x5c w
  s.runVe p i v c (vi2fEff p i v)

/-- The effect of VF2I: to INT32, saturating. -/
def vf2iEff (p i : Nat) (v : Vop) (s : State) : State :=
  s.veMap p i v v.usedAll (fun x j => toInt32 (v.ctl == 1) (x.av v j)) badA

def State.runVf2i (s : State) (p i w : Nat) (c : Chk) : State :=
  let v := vopOf 0x5d w
  s.runVe p i v c (vf2iEff p i v)

/-- The effect of VRCP: d := 1 / a. -/
def vrcpEff (p i : Nat) (v : Vop) (s : State) : State :=
  s.veTrans p i v

def State.runVrcp (s : State) (p i w : Nat) (c : Chk) : State :=
  let v := vopOf 0x60 w
  s.runVe p i v c (vrcpEff p i v)

/-- The effect of VRSQRT: d := 1 / √a. -/
def vrsqrtEff (p i : Nat) (v : Vop) (s : State) : State :=
  s.veTrans p i v

def State.runVrsqrt (s : State) (p i w : Nat) (c : Chk) : State :=
  let v := vopOf 0x61 w
  s.runVe p i v c (vrsqrtEff p i v)

/-- The effect of VEXP2: d := 2^(a · imm). -/
def vexp2Eff (p i : Nat) (v : Vop) (s : State) : State :=
  s.veTrans p i v

def State.runVexp2 (s : State) (p i w : Nat) (c : Chk) : State :=
  let v := vopOf 0x62 w
  s.runVe p i v c (vexp2Eff p i v)

/-- The effect of VLOG2: d := log2 a. -/
def vlog2Eff (p i : Nat) (v : Vop) (s : State) : State :=
  s.veTrans p i v

def State.runVlog2 (s : State) (p i w : Nat) (c : Chk) : State :=
  let v := vopOf 0x63 w
  s.runVe p i v c (vlog2Eff p i v)

/-- The effect of VTANH: d := tanh a. -/
def vtanhEff (p i : Nat) (v : Vop) (s : State) : State :=
  s.veTrans p i v

def State.runVtanh (s : State) (p i w : Nat) (c : Chk) : State :=
  let v := vopOf 0x64 w
  s.runVe p i v c (vtanhEff p i v)

/-- The effect of VSIGM: d := 1 / (1 + e^−a). -/
def vsigmEff (p i : Nat) (v : Vop) (s : State) : State :=
  s.veTrans p i v

def State.runVsigm (s : State) (p i w : Nat) (c : Chk) : State :=
  let v := vopOf 0x65 w
  s.runVe p i v c (vsigmEff p i v)

/-- The effect of VRED: reduces each segment of imm elements (R143). -/
def vredEff (p i : Nat) (v : Vop) (s : State) : State :=
  let segs := fun (imm : Nat) => List.range (v.count / imm)
  let used := fun (pred imm : Nat) => (List.range v.count).map (fun j => v.active pred (j / imm))
  let r := s.veRead p v used used
  let x := r.1
  let n := x.imm
  let mode := r.2.roundAt p v
  let out := (segs n).map (fun g =>
    if v.active x.pred g then
      let l := (List.range n).map (fun k => x.av v (g * n + k))
      let bad := (List.range n).any (fun k => x.aBad (g * n + k)) || x.immBad
      let fl := l.map (fun e => ((e, snanFlag [e]) : Fl))
      let o : Nat × Flags :=
        match v.ctl with
        | 0 =>
          if v.dfmt = 15 then
            match pairTree (fun (a b : Nat × Flags) => let t := dwAdd a.1 b.1; (t.1, a.2 ||| b.2 ||| t.2)) 14
                (l.map (fun e => (fp32.encode e * 2 ^ 32, snanFlag [e]))) with
            | t :: _ => t
            | [] => (0, 0)
          else match pairTree addFl 14 fl with
            | t :: _ => let c := convert v.dfmt (mode g) t.1; (c.1, t.2 ||| c.2)
            | [] => (0, 0)
        | 1 => match pairTree (pickFl true) 14 fl with
          | t :: _ => let c := convert v.dfmt (mode g) t.1; (c.1, t.2 ||| c.2)
          | [] => (0, 0)
        | 2 => match pairTree (pickFl false) 14 fl with
          | t :: _ => let c := convert v.dfmt (mode g) t.1; (c.1, t.2 ||| c.2)
          | [] => (0, 0)
        | k => (argBest (k == 3) l, snanFlag l)
      (some (o.1, o.2, bad) : VRes)
    else none)
  (r.2.vePut p i v x [out]).takeDraws p v.stochastic (v.count / n)

def State.runVred (s : State) (p i w : Nat) (c : Chk) : State :=
  let v := vopOf 0x68 w
  s.runVe p i v c (vredEff p i v)

/-- The effect of VSCAN: inclusive prefixes of each segment of imm elements (R143). -/
def vscanEff (p i : Nat) (v : Vop) (s : State) : State :=
  let used := fun (pred imm : Nat) => (List.range v.count).map (fun j =>
    (List.range (imm - j % imm)).any (fun k => v.active pred (j + k)))
  let r := s.veRead p v used used
  let x := r.1
  let n := x.imm
  let mode := r.2.roundAt p v
  let f : Fl → Fl → Fl := match v.ctl with
    | 0 => addFl
    | 1 => pickFl true
    | _ => pickFl false
  let out := (List.range (v.count / n)).flatMap (fun g =>
    let l := (List.range n).map (fun k => let e := x.av v (g * n + k); ((e, snanFlag [e]) : Fl))
    let bad := (List.range n).foldl (fun (m : List Bool) k =>
      m ++ [(m.getLast?.getD x.immBad) || x.aBad (g * n + k)]) []
    let ys := scanSegment f (g * n) none l (n / 512 + 2)
    ((List.range n).zip (ys.zip bad)).map (fun e =>
      if v.active x.pred (g * n + e.1) then
        let c := convert v.dfmt (mode (g * n + e.1)) e.2.1.1
        (some (c.1, e.2.1.2 ||| c.2, e.2.2) : VRes)
      else none))
  (r.2.vePut p i v x [out]).takeDraws p v.stochastic v.count

def State.runVscan (s : State) (p i w : Nat) (c : Chk) : State :=
  let v := vopOf 0x69 w
  s.runVe p i v c (vscanEff p i v)

/-- The effect of VGATH: d[i] := T[a[i]]; an index outside the table is an index fault (R144). -/
def vgathEff (p i : Nat) (v : Vop) (s : State) : State :=
  let r := s.veRead p v v.usedAll usedNone
  let x := r.1
  let out := (List.range v.count).map (fun j =>
    if v.active x.pred j then
      let k := x.aVal j
      if k < 2 ^ 31 ∧ k < x.imm then (some (x.bVal k, 0, x.aBad j || x.bBad k || x.immBad) : VRes)
      else some (0, fIndex, true)
    else none)
  r.2.vePut p i v x [out]

def State.runVgath (s : State) (p i w : Nat) (c : Chk) : State :=
  let v := vopOf 0x70 w
  s.runVe p i v c (vgathEff p i v)

/-- The effect of VFLAGS: writes the sticky flag word and the last snapshot, and clears the word with ctl[0] = 1 (R146). -/
def vflagsEff (p i : Nat) (v : Vop) (s : State) : State :=
  let e := (s.pav p).ve
  let row := natLE 4 e.sticky.toNat ++ natLE 4 e.snapshot.toNat ++ List.replicate 56 0
  let w : Writer := { unit := 2, stream := i, iv := ((s.pav p).seq.stream i).interval }
  (s.putElems p true w 8 v.d (row.map (fun b => { val := some b.toNat, poison := false })) false).modVE p (fun e =>
    { e with sticky := if v.ctl = 1 then 0 else e.sticky })

def State.runVflags (s : State) (p i w : Nat) (c : Chk) : State :=
  let v := vopOf 0x78 w
  s.runVe p i v c (vflagsEff p i v)

end Sys2Proof.Machine
end

