-- ==== Sys2Proof/Machine/Control.lean ====
section
/-! DEFINITION. The control port, streams that wait, and the start and the end of a run (R187, R191–R197, R202, R205). -/

namespace Sys2Proof.Machine

/-! ### Control instructions (R191) -/

/-- Refused unless the fields that the opcode does not use are zero (R191). -/
def ctlRefuse (w : Nat) (ctr loop value addr : Bool) : Option Nat :=
  if (!ctr && bits w 119 116 != 0) || (!loop && bits w 115 85 != 0) || bits w 84 64 != 0 || (!value && bits w 63 32 != 0) ||
      (!addr && bits w 31 0 != 0) then some 1
  else none

/-- How a control instruction that takes no scoreboard entry issues. -/
def ctlIssue (refuse : Option Nat) : Issue := { unit := 4, cad := .free, ready := true, refuse := refuse, rngs := [] }

/-- Issues a control instruction that takes no scoreboard entry; the effect has its issue count. -/
def State.issueCtl (s : State) (p i op : Nat) (refuse : Option Nat) (f : Nat → State → State) : State :=
  s.issue p i op (ctlIssue refuse) (fun _ s => f ((s.pav p).seq.issued - 1) s)

def State.runNop (s : State) (p i w : Nat) : State := s.issueCtl p i 0 (ctlRefuse w false false false false) (fun _ s => s)

def State.runWait (s : State) (p i w : Nat) : State :=
  s.issueCtl p i 1 (ctlRefuse w false false true false) (fun _ s =>
    if bits w 63 32 = 0 then s else s.hold p i (.wait (BitVec.ofNat 32 (bits w 63 32))))

/-- Time of n A-cycles of a pavilion (R8, R481). -/
def State.acyclesOf (s : State) (p n : Nat) : Nat := acycles (s.plot (plotOf p)).derated n

/-- R191: the A-cycles of a WAIT have passed. -/
def execWaitEnd (p : PavIx) (i : StreamIx) (s : State) : Res :=
  let t := (s.pav p.val).seq.stream i.val
  match t.hold with
  | .wait n => onlyIf (decide (t.since + s.acyclesOf p.val n.toNat ≤ s.ns)) s (s.hold p.val i.val .none)
  | _ => .next s

def State.runHalt (s : State) (p i w : Nat) : State :=
  s.issueCtl p i 2 (ctlRefuse w false false false false) (fun _ s => s.modStream p i (fun t => { t with halted := true }))

/-- R192: a fifth level, and a body that runs past its parent's. -/
def loopFault (t : Strm) (body : Nat) : Bool :=
  decide (4 ≤ t.loops.length) || (match t.loops with
    | l :: _ => decide (l.limit < t.slot + 1 + body)
    | [] => false)

/-- Why a LOOP of a stream is refused. -/
def loopRefuse (t : Strm) (w : Nat) : Option Nat :=
  let body := bits w 115 101
  (ctlRefuse w false true false false).or (if body = 0 then some 1 else if loopFault t body then some 7 else none)

/-- The loop level that a LOOP at a slot opens. -/
def loopLevel (slot w : Nat) : Loop :=
  { first := slot + 1, limit := slot + 1 + bits w 115 101, left := if bits w 100 85 = 0 then 65536 else bits w 100 85 }

def State.runLoop (s : State) (p i w : Nat) : State :=
  let t := (s.pav p).seq.stream i
  s.issueCtl p i 3 (loopRefuse t w)
    (fun _ s => s.modStream p i (fun u => { u with loops := loopLevel t.slot w :: u.loops }))

def State.runSyncw (s : State) (p i w : Nat) : State :=
  let c := bits w 119 116
  s.issueCtl p i 4 (ctlRefuse w true false true false) (fun _ s =>
    if bits w 63 32 ≤ (lget 0 (s.pav p).seq.ctrs c).toNat then s else s.hold p i (.sync c (BitVec.ofNat 32 (bits w 63 32))))

/-- R194: the counter that a stream waits for has reached its value. -/
def execSyncwRelease (p : PavIx) (i : StreamIx) (s : State) : Res :=
  let q := (s.pav p.val).seq
  match (q.stream i.val).hold with
  | .sync c v => onlyIf (decide (v.toNat ≤ (lget 0 q.ctrs c).toNat)) s (s.hold p.val i.val .none)
  | _ => .next s

def State.runSynca (s : State) (p i w : Nat) : State :=
  s.issueCtl p i 5 (ctlRefuse w true false true false) (fun _ s =>
    s.addCtr p (bits w 119 116) (BitVec.ofNat 32 (bits w 63 32)))

/-- How a CPOST issues. -/
def cpostIssue (w : Nat) : Issue :=
  let a := bits w 31 0
  { unit := 4, cad := .free, ready := true
    refuse := (ctlRefuse w false false true true).or
      (if 2 ^ 28 ≤ a ∨ a % 4 ≠ 0 ∨ touchesMonitor a 4 = true then some 1 else none)
    rngs := [Rng.of false a 4 false true] }

def State.runCpost (s : State) (p i w : Nat) : State :=
  s.issue p i 6 (cpostIssue w) (fun ids s => (s.modSeq p (fun q => { q with
    posts := q.posts ++ [(i, q.issued - 1, bits w 31 0, BitVec.ofNat 32 (bits w 63 32), ids.headD 0)] })).settlePosts p)

def State.runFence (s : State) (p i w : Nat) : State :=
  s.issueCtl p i 7 (ctlRefuse w false false false false) (fun n s =>
    if (s.pav p).finishedBefore n then s else s.hold p i (.fence n))

/-- The oldest tag at which every stream has a mark point (R196). -/
def Seq.markDue (q : Seq) : Option Word :=
  (q.stream 0).markPts.findSome? (fun m => if q.live.all (fun t => t.markPts.any (fun n => n.tag == m.tag)) then some m.tag else none)

def State.runMarkp (s : State) (p i w : Nat) : State :=
  s.issueCtl p i 8 (ctlRefuse w false false true false) (fun n s =>
    let before := (s.pav p).seq.markDue
    let s := s.modStream p i (fun t => { t with
      markPts := t.markPts ++ [{ tag := BitVec.ofNat 32 (bits w 63 32), issue := n, slot := t.slot, loops := t.loops }]
      interval := t.interval + 1 })
    if before.isNone && (s.pav p).seq.markDue.isSome then s.modSeq p (fun q => { q with cadBoundary := false }) else s)

/-! ### Streams that wait (R188, R195, R202) -/

/-- Tries the next instruction of a stream, whatever its opcode. -/
def State.issueAny (s : State) (p : PavIx) (i : Nat) : State :=
  let v := s.slotWord p.val ((s.pav p.val).seq.stream i).slot
  let op := v / 2 ^ 120
  let w := v % 2 ^ 120
  let q := p.val
  match op with
  | 0x00 => s.runNop q i w
  | 0x01 => s.runWait q i w
  | 0x02 => s.runHalt q i w
  | 0x03 => s.runLoop q i w
  | 0x04 => s.runSyncw q i w
  | 0x05 => s.runSynca q i w
  | 0x06 => s.runCpost q i w
  | 0x07 => s.runFence q i w
  | 0x08 => s.runMarkp q i w
  | 0x10 => s.runMload q i w
  | 0x18 => s.runMunpk q i w none
  | 0x1C => s.runMpack q i w none
  | 0x20 => s.runMrun q i w
  | 0x28 => s.runMacc q i w
  | 0x30 => s.runMoset q i w
  | 0x34 => s.runMpset q i w
  | 0x38 => s.runMgeom q i w
  | 0x3C => s.runMfset q i w
  | 0x40 => s.runVadd q i w none
  | 0x41 => s.runVsub q i w none
  | 0x42 => s.runVmul q i w none
  | 0x43 => s.runVfma q i w none
  | 0x44 => s.runVfmai q i w none
  | 0x45 => s.runVaddi q i w none
  | 0x46 => s.runVmuli q i w none
  | 0x47 => s.runVmax q i w none
  | 0x48 => s.runVmin q i w none
  | 0x49 => s.runVabs q i w none
  | 0x4A => s.runVneg q i w none
  | 0x4B => s.runVbcast q i w none
  | 0x4C => s.runViadd q i w none
  | 0x4D => s.runVimul q i w none
  | 0x4E => s.runVilog q i w none
  | 0x4F => s.runVishi q i w none
  | 0x50 => s.runVcmp q i w none
  | 0x51 => s.runVcmpi q i w none
  | 0x52 => s.runVicmp q i w none
  | 0x53 => s.runVsel q i w none
  | 0x54 => s.runVpst q i w none
  | 0x55 => s.runVpld q i w none
  | 0x56 => s.runVpcnt q i w none
  | 0x58 => s.runVcvt q i w none
  | 0x59 => s.runVpkmx q i w none
  | 0x5A => s.runVupmx q i w none
  | 0x5B => s.runVsplit q i w none
  | 0x5C => s.runVi2f q i w none
  | 0x5D => s.runVf2i q i w none
  | 0x60 => s.runVrcp q i w none
  | 0x61 => s.runVrsqrt q i w none
  | 0x62 => s.runVexp2 q i w none
  | 0x63 => s.runVlog2 q i w none
  | 0x64 => s.runVtanh q i w none
  | 0x65 => s.runVsigm q i w none
  | 0x68 => s.runVred q i w none
  | 0x69 => s.runVscan q i w none
  | 0x70 => s.runVgath q i w none
  | 0x78 => s.runVflags q i w none
  | 0x80 => s.runDcopy p i w
  | 0x81 => s.runPsend q i w
  | 0x82 => s.runPrecv q i w
  | _ => s.issueReserved q i op

/-- R195: a stall has lasted longer than the stall limit. A stream past the last slot has nothing to issue (log 50). -/
def execStallLimit (p : PavIx) (i : StreamIx) (s : State) : Res :=
  let t := (s.pav p.val).seq.stream i.val
  let limit := s.acyclesOf p.val (2 ^ (s.limits p.val).stall.toNat)
  onlyIf (s.issuing p.val && decide (i.val < (s.pav p.val).seq.nstr) && !t.halted &&
      (decide (32768 ≤ t.slot) || (t.hold.counts && decide (t.since + limit ≤ s.ns)))) s
    (s.programFault p.val 3 t.slot (s.nextOp p.val i.val))

/-! ### The start and the end of a run (R186, R187, R197, R240) -/

/-- The program header of R186. -/
structure Header where
  magic : Nat
  version : Nat
  nstr : Nat
  sync : Bool
  cad : Bool
  clen : Nat
  caddr : Nat
  entries : List Nat
  reserved : Nat
  deriving DecidableEq, Repr

/-- The header as the 64 bytes of slots 0–3 hold it. -/
def headerOf (v : Nat) : Header :=
  { magic := bits v 255 240, version := bits v 239 232, nstr := bits v 231 230 + 1, sync := bit v 229, cad := bit v 228
    clen := bits v 227 220 + 1, caddr := bits v 219 203
    entries := [bits v 202 188, bits v 187 173, bits v 172 158, bits v 157 143], reserved := bits v 142 0 + bits v 511 256 }

/-- Rows of the cadence table. -/
def Header.cadRows (h : Header) : Nat := (4 * h.clen + 63) / 64

/-- R186, R240: the header's checks; a table beyond the engine stage breaks them too (log 73). -/
def Header.ok (h : Header) (fullEmpty : Bool) : Bool :=
  h.magic == 0x1C4E && h.version == 1 && h.sync == fullEmpty && h.cad == decide (1 < h.nstr) && h.reserved == 0 &&
    (h.entries.take h.nstr).all (fun e => decide (4 ≤ e)) && (!h.cad || decide (h.caddr + h.cadRows ≤ 131072))

/-- Cadence overlays (chunk 0x0D) take effect at a run's start (R171, R371). -/
def State.overlayCadence (s : State) (p t row : Nat) : State :=
  match s.allotOfPav p with
  | none => s
  | some a => match chunkFor (s.allot a).chunks 13 t (s.allot a).section_ with
    | none => s
    | some c => s.stageWrite p (64 * row) (c.data ++ (memRead (s.pav p).stage.bytes (64 * row + c.data.length) ((64 - c.data.length % 64) % 64)))

/-- A core enters its task code (R214). -/
def Core.begin (c : Core) : Core :=
  match c.entry with
  | some e => if c.held then c else { c with pc := e, monitor := false, suspended := false }
  | none => c

def PassKind.ofFree (v : Fin 3) : PassKind := if v = 0 then .forward else if v = 1 then .fullBackward else .throughBackward

/-- What a run's start resets (R50, R85, R138, R153, R187). -/
def Pav.beginRun (x : Pav) (h : Header) (cad : List Word) (limits : Limits) (ns seed : Nat) : Pav :=
  let q := x.seq
  { x with
    epoch := seed, draws := 0
    me := { x.me with acc := [], accOpen := none, fp32Step := 0 }
    ve := { x.ve with preds := List.replicate 8 (BitVec.allOnes 8192), ppoison := List.replicate 8 false, sticky := 0 }
    cores := x.cores.map (fun (e : Nat × Core) => (e.1, if x.pooledMember e.1 then e.2 else e.2.begin))
    seq := { q with
      limits := limits, due := false, running := true, stopped := false, nstr := h.nstr, tagged := h.sync, cad := cad, cadEntry := 0
      cadEnded := false, cadPasses := 0, cadOpen := false, cadLoads := 0, cadAhead := none, cadBoundary := false
      streams := ((List.range 4).zip h.entries).map (fun e =>
        { (q.stream e.1) with
          pass := PassKind.ofFree (Config.passKind seed e.1), slot := e.2, loops := [], halted := decide (h.nstr ≤ e.1), hold := .none, since := ns, markPts := []
          interval := q.interval })
      ctrs := List.replicate 16 0, sb := [], dma := List.replicate 4 none, posts := [], runNs := ns } }

/-- R187: the gate starts a pavilion's run. -/
def State.startRun (s : State) (p : Nat) : State :=
  let t := s.contextTarget p
  let s := s.patch p t
  let r := s.stageRead p storeRow
  let s := r.2
  if r.1.2 then s.programPoison p storeRow
  else
    let h := headerOf (leNat r.1.1)
    if !h.ok (s.pav p).fullEmpty then s.programFault p 6 0 0
    else
      let s := if h.cad then s.overlayCadence p t h.caddr else s
      let c := if h.cad then s.rowsRead p true h.caddr h.cadRows else ([], s)
      let s := c.2
      match (List.range c.1.length).find? (fun i => (lget ([], false) c.1 i).2) with
      | some i =>
        if storeRow ≤ h.caddr + i then s.programPoison p (h.caddr + i) else (s.consume p true (h.caddr + i) 1).2
      | none =>
        let d := (c.1.map (·.1)).flatten
        let cad := if h.cad then (List.range h.clen).map (fun e => BitVec.ofNat 32 (leNat (bslice d (4 * e) 4))) else []
        s.fresh.2.modPav p (fun x => x.beginRun h cad s.lodge.limits s.ns s.fresh.1)

/-- R187, R392: a run that is due starts when its pavilion can work. -/
def execRunStart (p : PavIx) (s : State) : Res :=
  let v := s.pav p.val
  onlyIf (v.seq.due && !v.seq.running && !v.seq.stopped && !v.seq.frozen && !v.drillDue && v.enable != .failed &&
    (s.plot (plotOf p.val)).e.on) s (s.startRun p.val)

/-- R197: every stream has halted and every instruction has finished. -/
def execRunEnd (p : PavIx) (s : State) : Res :=
  let v := s.pav p.val
  onlyIf (v.seq.running && !v.seq.stopped && !v.seq.frozen && v.seq.live.all (·.halted) && v.outstanding.isEmpty &&
    v.me.inFlight.isEmpty) s (s.endRun p.val)

end Sys2Proof.Machine
end

