-- ==== Sys2Proof/Machine/Pcie.lean ====
section
/-! DEFINITION. The events of a PCI Express port (R375–R379): resets, link state, quiescing and IDE keys. -/

namespace Sys2Proof.Machine

/-- A conventional reset of a port (R377, R378). -/
def State.portReset (s : State) (h : Nat) : State :=
  ((s.quiescePort h).modHost h (fun x => { x with linkUp := false })).latchBars h

/-- Counts in a host port's counter i (R379). -/
def State.hostCount (s : State) (h i : Nat) : State :=
  s.modHost h (fun x => { x with errors := tmod 0 x.errors i satInc })

/-- R378: PERST_N goes low. -/
def execPerstAssert (h : PortIx) (s : State) : Res :=
  .next ((s.portReset h.val).modHost h.val (fun x => { x with perst := true }))

/-- R378: PERST_N rises; link training may follow. The sizes latched are those of the reset's end (log 40). -/
def execPerstRelease (h : PortIx) (s : State) : Res :=
  onlyIf (s.hostPort h.val).perst s ((s.modHost h.val (fun x => { x with perst := false })).latchBars h.val)

/-- R378, R379: the link goes down, or the host sends a hot reset; a surprise link-down is counted. -/
def execLinkDown (h : PortIx) (surprise : Bool) (s : State) : Res :=
  onlyIf (s.hostPort h.val).linkUp s
    (let t := s.portReset h.val
     if surprise then t.hostCount h.val 13 else t)

/-- Ports train from step 2 of start-up on (R378). -/
def Lodge.portsTrain (l : Lodge) : Bool := [Phase.steps23, .step4, .step5, .ready].contains l.phase

/-- R375, R376, R378: training ends and the functions appear. -/
def execLinkUp (h : PortIx) (width rate : BitVec 8) (s : State) : Res :=
  let x := s.hostPort h.val
  onlyIf (s.lodge.portsTrain && (s.seg (2 * h.val + 1)).dom.on && !x.perst && x.enable == .open_ && !x.linkUp) s
    (s.modHost h.val (fun x => { x with linkUp := true, trained := true, width := width, rate := rate }))

/-- R378, R379: a function-level reset. -/
def execFlr (h : PortIx) (f : FnIx) (s : State) : Res :=
  onlyIf (s.hostPort h.val).linkUp s ((s.quiesceFn h.val f.val).hostCount h.val 14)

/-- R375, R378: entry into D3hot. -/
def execD3hotEntry (h : PortIx) (f : FnIx) (s : State) : Res :=
  onlyIf (s.hostPort h.val).linkUp s (s.quiesceFn h.val f.val)

/-- R375: IDE_KM programs the key of a function's selective IDE stream, when the port's IDE is enabled. -/
def execIdeKmKeyProg (h : PortIx) (f : FnIx) (key : List Byte) (s : State) : Res :=
  onlyIf ((s.hostPort h.val).linkUp && (s.hostPort h.val).ide) s
    (s.modFn h.val f.val (fun x => { x with ideKey := some key }))

end Sys2Proof.Machine
end

