-- ==== Sys2Proof/Machine/Power.lean ====
section
/-! DEFINITION. Power, clocks, heat, ageing and the flash store (R469–R495). -/

namespace Sys2Proof.Machine

/-! ### Duty (R474, R475, R483) -/

/-- The duty of a plot is the lower of what the cap and the heat allow (R475). -/
def Plot.settleDuty (x : Plot) : Plot := { x with duty := min x.capDuty x.heatDuty }

def Group.idle : Group := { pg := false, alert := false, halved := false }

def State.group (s : State) (g : Nat) : Group := tget Group.idle s.lodge.groups g

def State.modGroup (s : State) (g : Nat) (f : Group → Group) : State :=
  s.modLodge (fun l => { l with groups := tmod Group.idle l.groups g f })

/-- The plots of a rail group (R471). -/
def plotsOfGroup (g : Nat) : List Nat := if g < 14 then (List.range 4).map (fun i => 8 * (g / 2) + 4 * (g % 2) + i) else []

/-- The segments of a rail group (R471). -/
def segsOfGroup (g : Nat) : List Nat := if g < 14 then [] else (List.range 3).map (3 * (g - 14) + ·) |>.filter (· < 8)

/-- R473–R475: every 1 ms the Lodge reads the currents of the rails on its AVSBuses, forms the module's power and its
10 ms mean, and sets one duty for all plots but those of a group that an alert holds halved. -/
def execPowerControlTick (readings : List RailReading) (s : State) : Res :=
  let s := s.modLodge (fun l => { l with
    rails := (readings.filter (fun r => r.rail.val ≠ 176)).foldl (fun t r =>
      tmod Rail.zero t r.rail.val (fun x => { x with mv := r.mv, amps := r.amps })) l.rails })
  let now := sumBy s.lodge.rails (fun e => e.2.mv.toNat * e.2.amps.toNat) / 1000
  let f := s.fresh
  let d := 1 + Config.capDuty now s.lodge.set.powerCap.toNat f.1 % 64
  let s := f.2.modLodge (fun l =>
    let ps := (now :: l.powers).take 10
    { l with powers := ps, power := BitVec.ofNat 32 (sumBy ps id / ps.length), capDuty := d })
  .next (s.each (List.range 56) (fun s p =>
    if (s.group (groupOf (3 * p))).halved then s else s.modPlot p (fun x => { x with capDuty := d }.settleDuty)))

/-- R475: ALERT_N_g goes low and the duty of the group's plots is halved. -/
def execAlertLow (g : Fin 17) (s : State) : Res :=
  if (s.group g.val).alert then .next s
  else
    let was := (s.group g.val).halved
    let s := s.modGroup g.val (fun x => { x with alert := true, halved := true })
    .next (if was then s else s.each (plotsOfGroup g.val) (fun s p => s.modPlot p (fun x =>
      { x with capDuty := max 1 (min x.capDuty x.heatDuty / 2) }.settleDuty)))

/-- R475: the line has been high for 10 ms and the plots take the module's duty again. -/
def execAlertClear (g : Fin 17) (s : State) : Res :=
  onlyIf (s.group g.val).halved s
    ((s.modGroup g.val (fun x => { x with alert := false, halved := false })).each
      (plotsOfGroup g.val) (fun s p => s.modPlot p (fun x => { x with capDuty := s.lodge.capDuty }.settleDuty)))

/-! ### Voltage (R470, R472, R490) -/

/-- The voltage planned for a core rail, within the AVS range of R469. -/
def State.planOf (s : State) (rail : Nat) : Nat :=
  min 800 (if rail < 168 then lget 700 (s.plot (rail / 3)).plan (rail % 3) else (s.seg (rail - 168)).plan)

/-- The Lodge commands the next step of at most 10 mV toward a rail's plan, once the rail reports its last one. A plot due to
be derated slows its clock before its voltage falls (R472). -/
def State.avsNext (s : State) (rail : Nat) : State :=
  let x := tget Rail.zero s.lodge.rails rail
  let now := x.setpoint.toNat
  let plan := s.planOf rail
  let waits := decide (plan < now) && decide (rail < 168) && (s.plot (rail / 3)).derateDue
  if 176 ≤ rail ∨ x.mv ≠ x.setpoint ∨ plan = now ∨ now = 0 ∨ waits = true then s
  else
    let mv := if now < plan then min plan (now + 10) else max plan (now - 10)
    (s.modLodge (fun l => { l with rails := tset l.rails rail { x with setpoint := BitVec.ofNat 16 mv } })).emit
      (.avs rail mv)

/-- R472: a rail reports a voltage; when it is the commanded one, the Lodge commands the next step. -/
def execAvsStep (rail : Fin 201) (mv : BitVec 16) (s : State) : Res :=
  .next ((s.modLodge (fun l => { l with rails := tmod Rail.zero l.rails rail.val (fun x => { x with mv := mv }) })).avsNext
    rail.val)

/-! ### Lost domains (R477, R478, R480) -/

/-- A thermal or power event of a plot or segment, with its event code (R441). -/
def State.powerRec (s : State) (d : Domain) (severity code : Nat) : ErrRec :=
  match d with
  | .plot p _ => s.plotRec p.val 0x17 severity 15 code
  | .segment n => { ErrRec.base with
      ty := 0x17, severity := BitVec.ofNat 4 severity, cls := 15, subunit := BitVec.ofNat 16 n.val
      detail := BitVec.ofNat 32 code }

/-- A segment is lost: its stacks fail, its ports go down, and its attachments and Colonnade hops are withdrawn. -/
def State.loseSegment (s : State) (n : SegIx) : State :=
  let s := s.modSeg n.val (fun x => { x with dom := { x.dom with on := false }, pll := false, trained := false })
  let s := s.each (List.range 3) (fun s i => s.failStack (3 * n.val + i))
  let s := if n.val % 2 = 1 then s.portReset (n.val / 2) else s
  let s := s.each [2 * n.val, 2 * n.val + 1] (fun s k => s.modSrv k (fun x => { x with linkUp := false }))
  let s := s.each (List.range 64) (fun s i => s.withdraw (.segGate n (Fin.ofNat 4 (i / 16)) (Fin.ofNat 16 i)))
  s.each [(n.val, 0), (n.val, 1), ((n.val + 7) % 8, 0), ((n.val + 1) % 8, 1)] (fun s e =>
    s.withdraw (.colonnade (Fin.ofNat 8 e.1) (Fin.ofNat 2 e.2)))

/-- A plot is cut: E and G go off at once and its allotment waits for the plot's shuffle (R478, R485). -/
def State.cutPlot (s : State) (p : Nat) (why : OffCause) (power : Nat) : State :=
  ((s.offEG p why power).freezePlot p .plotCut).event 0x0005 p (0x2100 + p) 3 ((s.ownerOf p).getD 0x1F)

/-- What the module does when a domain is lost (R478). -/
def State.loseDomain (s : State) (d : Domain) : State :=
  match d with
  | .plot p .H => ((s.record (s.powerRec d 4 5)).loseH p).freezePlot p.val .plotCut
  | .plot p _ => (s.record (s.powerRec d 4 5)).cutPlot p.val .lost 4
  | .segment n => (s.record (s.powerRec d 4 3)).loseSegment n

/-- A domain is lost until the next module reset: in a plot of no allotment, where no shuffle follows, its pavilions fail (R478; log 133). -/
def State.loseForGood (s : State) (d : Domain) : State :=
  let s := s.loseDomain d
  match d with
  | .plot p _ => if (s.ownerOf p.val).isSome then s
      else s.each ((pavsOf p.val).filter (fun i => (s.pav i).enable != .failed)) State.failPav
  | .segment _ => s

/-- A domain is on. -/
def State.domainOn (s : State) : Domain → Bool
  | .plot p .E => (s.plot p.val).e.on
  | .plot p .G => (s.plot p.val).g.on
  | .plot p .H => (s.plot p.val).h.on
  | .segment n => (s.seg n.val).dom.on

/-- A short has opened a domain's switch; it stays open until the next module reset (R477). -/
def State.shortOut (s : State) : Domain → State
  | .plot p .E => s.modPlot p.val (fun x => { x with e := { on := false, shorted := true } })
  | .plot p .G => s.modPlot p.val (fun x => { x with g := { on := false, shorted := true } })
  | .plot p .H => s.modPlot p.val (fun x => { x with h := { on := false, shorted := true } })
  | .segment n => s.modSeg n.val (fun x => { x with dom := { on := false, shorted := true } })

/-- R477, R478: a domain measures a short and opens its own switch. -/
def execShortDetected (d : Domain) (s : State) : Res :=
  onlyIf (s.domainOn d) s
    (((s.shortOut d).modLodge (fun l => { l with shorts := satInc l.shorts })).loseForGood d)

/-- The domains of a group that are on; a plot's H stands for all of it (R478). -/
def State.groupDomains (s : State) (g : Nat) : List Domain :=
  ((plotsOfGroup g).filter (fun p => (s.plot p).h.on)).map (fun p => Domain.plot (Fin.ofNat 56 p) .H) ++
  ((segsOfGroup g).filter (fun n => (s.seg n).dom.on)).map (fun n => Domain.segment (Fin.ofNat 8 n))

/-- R478: PG_g goes low with domains on. -/
def execPgLoss (g : Fin 17) (s : State) : Res :=
  onlyIf (s.group g.val).pg s
    (let t := s.modGroup g.val (fun x => { x with pg := false })
     t.each (t.groupDomains g.val) State.loseForGood)

/-- R480: a plot's PLL loses lock, and the plot is handled as an H loss; H itself stays on for the relock. -/
def execPllLockLoss (p : PlotIx) (s : State) : Res :=
  onlyIf (s.plot p.val).pll s
    ((s.loseDomain (.plot p .H)).modPlot p.val (fun x => { x with h := { x.h with on := true }, relockTried := false }))

/-- The express links and Promenade channels between a plot and plots in service return to service, but for those with more
failed wires than spares (R15, R16, R480; log 43). -/
def State.relink (s : State) (p : Nat) : State :=
  let up := fun (q : Nat) => (s.plot q).h.on && (s.plot q).pll
  let back := fun (l : LinkId) (x : Link) => (linkEnds l).length == 2 && (linkEnds l).contains p && (linkEnds l).all up &&
    !((linkWires l).any (fun w => wiresLost w x.failed))
  let s : State := { s with links := s.links.map (fun e =>
    if back e.1 e.2 then (e.1, { e.2 with state := 0 }) else e) }
  let lost := fun (d : Nat) => sumBy (List.range 64) (fun c =>
    if (s.link (.prom (Fin.ofNat 56 p) (Fin.ofNat 4 d) (Fin.ofNat 64 c))).state = 2 then 2 ^ c else 0)
  let clear := fun (s : State) (q e d : Nat) => s.modPlot q (fun x => { x with
    promWithdrawn := (x.promWithdrawn &&& ~~~(BitVec.ofNat 256 ((2 ^ 64 - 1) * 2 ^ (64 * e)))) |||
      BitVec.ofNat 256 (lost d * 2 ^ (64 * e)) })
  s.each (List.range 4) (fun s d => match edgeTo p d with
    | some q => if up q then clear (clear s p d d) q ((d + 2) % 4) d else s
    | none => s)

/-- R480: the relocked plot passes BIST; its links return to service and its working pavilions are reserves. -/
def execPllRelock (p : PlotIx) (bistOk : List (Fin 4)) (s : State) : Res :=
  let x := s.plot p.val
  let steady := match s.ownerOf p.val with
    | some a => (s.allot a).frozen.isNone
    | none => true
  if !x.h.on || x.pll || x.relockTried || x.offCause != some .lost || !steady then .next s
  else
    let s := (s.modPlot p.val (fun x => { x with pll := true, aligned := true, relockTried := true })).relink p.val
    let s := s.each ((List.range 4).filter (fun q => !bistOk.any (fun k => k.val == q))) (fun s q =>
      s.changePav (4 * p.val + q) (fun v => { v with enable := .failed }))
    .next ((s.backPlot p.val).modPlot p.val (fun x => { x with enable := .open_ }))

/-- R481: the A-clock of a plot goes to 1.68 GHz between runs, or, when no gap arrives within 1 s, at a cadence entry boundary
of each pavilion. -/
def execDerate (p : PlotIx) (s : State) : Res :=
  let late := decide (10 ^ 9 + (s.plot p.val).derateSince ≤ s.ns)
  let gap := (pavsOf p.val).all (fun i => !(s.pav i).seq.running || (late && (s.pav i).seq.cadBoundary))
  if !(s.plot p.val).derateDue || !gap then .next s
  else
    let s := s.modPlot p.val (fun x => { x with
      derated := true, derateDue := false, powerState := if x.powerState = 0 then 1 else x.powerState })
    .next ((s.record (s.powerRec (.plot p .E) 1 0)).avsNext (3 * p.val))

/-! ### Heat (R482–R487) -/

/-- A hottest-sensor reading of a plot (R482): 2 °C below the warning threshold re-arms the warning, and the time below the
threshold counts toward the plot's return. -/
def State.setTemp (s : State) (p : Nat) (temp : BitVec 32) : State :=
  let w := s.lodge.warn.toInt
  s.modPlot p (fun x => { x with
    temp := temp, warned := x.warned && decide (w < temp.toInt + 16)
    coolSince := if temp.toInt < w then some (x.coolSince.getD s.ns) else none })

/-- R483: the hottest sensor rises to the warning threshold. -/
def execThermalWarning (p : PlotIx) (temp : BitVec 32) (s : State) : Res :=
  let s := s.setTemp p.val temp
  onlyIf (decide (s.lodge.warn.toInt ≤ temp.toInt) && !(s.plot p.val).warned) s
    ((s.modPlot p.val (fun x => { x with warned := true, lastDutyStep := s.ns })).event 0x0004 p.val (0x2100 + p.val) 3
      ((s.ownerOf p.val).getD 0x1F))

/-- R483: the duty falls by 8 every 10 ms at or above the warning threshold, to no less than 8, and rises by 1 every 100 ms
from 2 °C below it. -/
def execThermalDutyStep (p : PlotIx) (temp : BitVec 32) (s : State) : Res :=
  let s := s.setTemp p.val temp
  let x := s.plot p.val
  let w := s.lodge.warn.toInt
  if w ≤ temp.toInt ∧ 10000000 + x.lastDutyStep ≤ s.ns then
    .next (s.modPlot p.val (fun x => { x with heatDuty := max 8 (x.duty - 8), lastDutyStep := s.ns }.settleDuty))
  else if temp.toInt + 16 ≤ w ∧ 100000000 + x.lastDutyStep ≤ s.ns then
    .next (s.modPlot p.val (fun x => { x with heatDuty := min 64 (x.heatDuty + 1), lastDutyStep := s.ns }.settleDuty))
  else .next s

/-- A plot has E or G on. -/
def Plot.warm (x : Plot) : Bool := x.e.on || x.g.on

/-- R484: the plot is shed; PLOT_SHUFFLE continues its shuffle from the dealing step. -/
def execShed (p : PlotIx) (temp : BitVec 32) (s : State) : Res :=
  let s := s.setTemp p.val temp
  onlyIf (decide (s.lodge.shed.toInt ≤ temp.toInt ∧ temp.toInt < s.lodge.shed.toInt + 40) && (s.plot p.val).warm) s
    (((s.record (s.powerRec (.plot p .E) 1 5)).shedPlot p.val .heat 2).event 0x0005 p.val (0x2100 + p.val) 3
      ((s.ownerOf p.val).getD 0x1F))

/-- R485: the plot is cut at once. -/
def execCut (p : PlotIx) (temp : BitVec 32) (s : State) : Res :=
  let s := s.setTemp p.val temp
  onlyIf (decide (s.lodge.shed.toInt + 40 ≤ temp.toInt) && (s.plot p.val).warm) s
    ((s.record (s.powerRec (.plot p .E) 1 5)).cutPlot p.val .heat 3)

/-- THERM_TRIP_N is driven low, with event 0x0006 (R486). -/
def State.trip (s : State) (value index : Nat) : State :=
  let s := if s.lodge.tripLow then s else (s.modLodge (fun l => { l with tripLow := true })).emit (.thermTrip true)
  s.event 0x0006 value index 3 0x1F

/-- R486: the comparator of a plot or segment fires at the trip threshold. -/
def execThermTrip (site : HeatSite) (temp : BitVec 32) (s : State) : Res :=
  if temp.toInt < 880 then .next s
  else match site with
    | .plot p =>
      let s := s.setTemp p.val temp
      let s := if (s.plot p.val).warm then (s.record (s.powerRec (.plot p .E) 1 6)).cutPlot p.val .heat 3 else s
      .next (s.trip p.val (0x2100 + p.val))
    | .segment n =>
      let s := s.modSeg n.val (fun x => { x with temp := temp })
      let s := if (s.seg n.val).dom.on then s.loseForGood (.segment n) else s
      .next (s.trip n.val 0x3100)

/-- R486: every sensor reads below the shed threshold, and THERM_TRIP_N is released. -/
def execThermTripRelease (s : State) : Res :=
  onlyIf s.lodge.tripLow s ((s.modLodge (fun l => { l with tripLow := false })).emit (.thermTrip false))

/-- R487, R488: a shed or cut plot has been below the warning threshold for 10 s while no shuffle of its allotment runs. A
plot disabled meanwhile stays off, and one whose enable waits reads open. -/
def execPlotReturn (p : PlotIx) (temp : BitVec 32) (s : State) : Res :=
  let s := s.setTemp p.val temp
  let x := s.plot p.val
  let cool := match x.coolSince with
    | some t => decide (10 * 10 ^ 9 + t ≤ s.ns)
    | none => false
  let steady := match s.ownerOf p.val with
    | some a => (s.allot a).frozen.isNone
    | none => true
  if x.offCause != some .heat || !cool || !steady then .next s
  else match x.enable with
    | .closed => .next (s.modPlot p.val (fun x => { x with offCause := some .disabled, powerState := 4 }))
    | .opening => .next ((s.backPlot p.val).plotOpened p.val)
    | _ => .next (s.backPlot p.val)

/-! ### Ageing (R489–R492) -/

/-- A plan rounded up to 5 mV and never below 0.60 V (R490). -/
def planRound (mv : Nat) : Nat := max 600 ((mv + 4) / 5 * 5)

/-- A new plan: higher at once, lower only when the next measurement confirms it (R490). -/
def replan (now new : Nat) (low : Option Nat) : Nat × Option Nat :=
  if now ≤ new then (new, none)
  else match low with
    | some x => (max x new, none)
    | none => (now, some new)

/-- Hours between two measurements of 600 s, for the history of R492. -/
def historyHours (points : List (Nat × Nat)) : Nat := 600 * (points.length + 1) / 3600

/-- The plot's pavilions are retired by a plot shuffle, those without a context too (R459, R491), and H goes off when its own plan is
too high. -/
def State.retireAged (s : State) (p : PlotIx) (hHigh : Bool) : State :=
  let s := match s.ownerOf p.val with
    | some a => if (s.carriedIn a p.val).isEmpty then s else s.plotShuffle a p.val true true
    | none => s
  let s := s.each ((pavsOf p.val).filter (fun i => (s.pav i).enable != .failed)) State.failPav
  if hHigh && (s.plot p.val).h.on then s.loseH p else s

/-- One domain's measurement (R489–R492). -/
def State.aged (s : State) (m : AgeMeas) : State :=
  let r := m.rail.val
  if r < 168 then
    let p : PlotIx := Fin.ofNat 56 (r / 3)
    let d := r % 3
    let x := s.plot p.val
    let hot := decide (800 < planRound m.plan21)
    let due := d == 0 && hot && !x.derated
    let slow := d == 0 && (x.derated || hot)
    let plan := planRound (if slow then m.plan168 else m.plan21)
    let n := replan (lget 700 x.plan d) plan (lget none x.planLow d)
    let s := s.modPlot p.val (fun x => { x with
      plan := x.plan.set d n.1, planLow := x.planLow.set d n.2, derateDue := x.derateDue || due
      derateSince := if due && !x.derateDue then s.ns else x.derateSince })
    let s := if d = 0 then
        let s := s.modPlot p.val (fun x => { x with life := m.life })
        s.modLodge (fun l =>
          let pts := tget [] l.ageing.points p.val
          { l with ageing := { points := tset l.ageing.points p.val (pts ++ [(historyHours pts, planRound m.plan21)]) } })
      else s
    (if 800 < plan then s.retireAged p (d == 2) else s).avsNext r
  else if r < 176 then
    let n : SegIx := Fin.ofNat 8 (r - 168)
    let plan := planRound m.plan21
    let k := replan (s.seg n.val).plan (min 800 plan) (s.seg n.val).planLow
    let s := s.modSeg n.val (fun x => { x with plan := k.1, planLow := k.2 })
    (if 800 < plan then s.record (s.powerRec (.segment n) 4 0) else s).avsNext r
  else s

/-- R489–R492: the replicas are measured, voltages planned, and the history is kept in flash. -/
def execAgeingMeasurement (m : List AgeMeas) (s : State) : Res :=
  .next ((s.each m State.aged).flashWrite .ageing 0 1)

/-! ### Flash (R493–R495) -/

/-- The repair maps and spare bit columns of the module, as the repair region holds them. -/
def State.repairData (s : State) : Repair :=
  { maps := (s.pavs.filter (fun e => e.2.repair != List.replicate 32 0)).map (fun e => (e.1, e.2.repair))
    spareBits := (s.pavs.filter (fun e => e.2.spareBits != [])).map (fun e => (e.1, e.2.spareBits))
    lanes := (s.links.filter (fun e => e.2.failed != [])).map (fun e => (e.1, e.2.failed)) }

/-- A device while a write to it is under way: the copy of the region, or of the image slot, is incomplete (R364, R494). -/
def Flash.begun (x : Flash) (j : FlashJob) : Flash :=
  if j.region = .images then { x with badSlots := j.slot :: x.badSlots.filter (· != j.slot) }
  else { x with bad := j.region :: x.bad.filter (· != j.region) }

/-- A device once a write to it has ended: it holds what the module holds. -/
def Flash.written (x : Flash) (s : State) (j : FlashJob) : Flash :=
  let l := s.lodge
  let x := if j.region = .images then { x with badSlots := x.badSlots.filter (· != j.slot) }
    else { x with bad := x.bad.filter (· != j.region) }
  match j.region with
  | .firmware => { x with firmware := l.fwNext.getD l.fw }
  | .security => { x with security := l.sec }
  | .settings => { x with settings := l.set }
  | .repair => { x with repair := s.repairData }
  | .ageing => { x with ageing := l.ageing }
  | .images => { x with images := match tget? l.images j.slot with
      | some im => tset x.images j.slot im
      | none => tdel x.images j.slot }
  | .drill => { x with drill := l.drill }

/-- One sector of a flash write is done, and the writes that follow are `rest`: a write goes to device A, and then to
B (R364, R493). -/
def State.sectorDone (s : State) (j : FlashJob) (rest : List FlashJob) : State :=
  let device := fun (f : Flash → Flash) (l : Lodge) => if j.onB then { l with flashB := f l.flashB } else { l with flashA := f l.flashA }
  if 1 < j.left then
    s.modLodge (fun l => { device (fun x => x.begun j) l with flashJobs := { j with left := j.left - 1 } :: rest })
  else
    s.modLodge (fun l => { device (fun x => x.written s j) l with
      flashJobs := if j.onB then rest else { j with onB := true, left := j.sectors } :: rest })

/-- R493, R494: one sector of the first flash write is done; a sector is written only while the hold-up energy is at
least 20 J. -/
def execFlashSectorWrite (s : State) : Res :=
  match s.lodge.flashJobs with
  | j :: rest =>
    if s.holdupLow then .next s
    else
      let done := (if j.onB then j.sectors else 0) + (j.sectors - j.left) + 1
      let s := if j.region = .images then
          s.modLodge (fun l => { l with progress := tmod Progress.idle l.progress 0x50 (fun x =>
            if x.subject = BitVec.ofNat 16 (0x4000 + j.slot) ∧ x.state = 1 then
              { x with position := BitVec.ofNat 64 (x.total.toNat * done / (2 * j.sectors)) } else x) })
        else s
      .next (s.sectorDone j rest)
  | [] => .next s

/-- R495: the hold-up energy is read; a full charge below 30 J writes a record. -/
def execHoldUpCharged (mJ : BitVec 32) (full : Bool) (s : State) : Res :=
  let s := s.modLodge (fun l => { l with holdup := mJ })
  .next (if full ∧ mJ.toNat < 30000 then s.record { ErrRec.base with ty := 0x17, severity := 4, cls := 14 } else s)

end Sys2Proof.Machine
end

