-- ==== Sys2Proof/Machine/Startup.lean ====
section
/-! DEFINITION. Start-up and the module's resets (R493–R512, R520, R525, R540). -/

namespace Sys2Proof.Machine

/-! ### Resets (R494, R509, R510) -/

/-- The flash write in progress stops (R494): the sector being written is finished, and the copy is incomplete unless that was
its last sector. A write that waits for hold-up energy has touched nothing. -/
def State.stopFlash (s : State) : State :=
  match s.lodge.flashJobs with
  | j :: rest => if s.holdupLow then s else s.sectorDone j rest
  | [] => s

/-- What a reset leaves: flash, fuses, what was built in, the pins, and, when `charged`, aux, the supercapacitor charge and
the regulator stage. Everything else is as before aux power. -/
def State.wipe (s : State) (charged : Bool) : State :=
  let l := s.lodge
  { State.reset with
    orderB := s.orderB, free := s.free, pending := s.pending, out := s.out
    hostPorts := s.hostPorts.map (fun (e : Nat × HostPort) => (e.1, { HostPort.built with perst := e.2.perst }))
    lodge := { Lodge.built with
      flashA := l.flashA, flashB := l.flashB, secFuse := l.secFuse, opened := l.opened, serial := l.serial, hwRevision := l.hwRevision, resetLow := l.resetLow
      aux := charged && l.aux, tripLow := charged && l.tripLow, holdup := if charged then l.holdup else 0
      rails := if charged then l.rails else [], groups := if charged then l.groups else [] } }

/-! ### Lodge boot (R493, R497, R525) -/

/-- A firmware copy that the ROM accepts; as-built firmware, whose bytes the model does not hold, verifies (log 3). -/
def Flash.bootable (x : Flash) (fuse : Nat) : Bool :=
  !x.bad.contains .firmware && decide (fuse ≤ x.firmware.secver.toNat) &&
  (x.firmware.image.isEmpty || trailerOk 0 [] x.firmware.image)

/-- The device whose copy of a region is used: A, or B when A's copy is incomplete. -/
def pickFlash (a b : Flash) (r : FlashRegion) : Flash := if a.bad.contains r then b else a

/-- Whether the two copies of a region agree; image slots are compared one by one. -/
def sameRegion (a b : Flash) : FlashRegion → Bool
  | .firmware => a.firmware == b.firmware
  | .security => a.security == b.security
  | .settings => a.settings == b.settings
  | .repair => a.repair == b.repair
  | .ageing => a.ageing == b.ageing
  | .images => true
  | .drill => a.drill == b.drill

def allRegions : List FlashRegion := [.firmware, .security, .settings, .repair, .ageing, .images, .drill]

/-- Settings kept in flash take effect (R355, R493). -/
def State.applySettings (s : State) : State :=
  let x := s.lodge.set
  let s := s.each (List.range 4) (fun s h => s.modHost h (fun y => { y with
    l0p := lget 1 x.l0p h != 0, ide := lget 1 x.ide h != 0 }))
  s.each (List.range 16) (fun s n => s.modSrv n (fun y => { y with
    mode := lget 0 x.srvMode n, mac := lget y.mac x.srvMac n }))

/-- Repair maps, spare bit columns and the wires of links that are on spares, from flash (R14, R16, R93, R234). -/
def State.applyRepair (s : State) (r : Repair) : State :=
  let s := s.each r.maps (fun s e => s.modPav e.1 (fun v => { v with repair := e.2 }))
  let s := s.each r.spareBits (fun s e => s.modPav e.1 (fun v => { v with spareBits := e.2 }))
  s.each r.lanes (fun s e => s.modLink e.1 (fun x => { x with failed := e.2 }))

/-- The status of a stored image as its check finds it (R365, R513). -/
def imageStatus (owners : List (List Byte)) (c : List Byte) : BitVec 8 :=
  if c.isEmpty then 0 else if trailerOk 2 owners c && imgOk c then 2 else 3

/-- A device's copy of an image slot: none where the write of it was cut off, and otherwise the image, or an empty slot. -/
def Flash.slotCopy (x : Flash) (n : Nat) : Option (Option Image) :=
  if x.badSlots.contains n then none else some (tget? x.images n)

/-- The image that start-up finds in a slot: the copy that verifies, device A's first; where none does, a rejected
one (R364; log 127). -/
def bootImage (owners : List (List Byte)) (a b : Flash) (n : Nat) : Option Image :=
  let copies := [a.slotCopy n, b.slotCopy n].filterMap id
  match copies.find? (fun c => c.all (fun im => imageStatus owners im.content == 2)) with
  | some c => c.map (fun im => { im with status := 2 })
  | none => some { ((copies.head?.bind id).getD { content := [], status := 3, writer := none }) with status := 3 }

/-- Image slots of which a device must be written again: a copy is incomplete, or the two differ (R364, R493). -/
def staleSlots (a b : Flash) : List Nat :=
  below 64 (fun n => a.badSlots.contains n || b.badSlots.contains n || tget? a.images n != tget? b.images n)

/-- Lodge boot (R497): firmware from copy A or else B, the regions that verify, the ns counter at 0; a debug opening that
was cut off is completed first (R540), and the fingerprint circuit either gives the identity back or not (R530; log 93). Without good firmware the Lodge stays in ROM with the relay closed. -/
def State.boot (s : State) : State :=
  let l := s.lodge
  let a := l.flashA
  let b := l.flashB
  let fw := if a.bootable l.secFuse then some a.firmware else if b.bootable l.secFuse then some b.firmware else none
  match fw with
  | none => s.modLodge (fun l => { l with phase := .rom })
  | some fw =>
    let sec := (pickFlash a b .security).security
    let s : State := { s with ns := 0 }
    let s := s.modLodge (fun l => { l with
      phase := .step1, stepStart := [(1, 0)], bootAt := 0, fw := fw, sec := sec
      set := (pickFlash a b .settings).settings, ageing := (pickFlash a b .ageing).ageing
      drill := (pickFlash a b .drill).drill
      drillStatus := if (pickFlash a b .drill).drill.isSome then 2 else 0
      images := (List.range 64).filterMap (fun n => (bootImage sec.owners a b n).map (fun im => (n, im)))
      moduleKey := l.nextKey, nextKey := l.nextKey + 1 })
    let s := (s.applySettings.applyRepair (pickFlash a b .repair).repair).resetWindows
    let s := s.each (staleSlots a b) (fun s n => s.flashWrite .images n (max 1 (sectorsOf (s.image n).content.length)))
    let s := s.each (allRegions.filter (fun r =>
      a.bad.contains r || b.bad.contains r || !sameRegion a b r ||
        (r == .firmware && !(a.bootable l.secFuse && b.bootable l.secFuse)))) (fun s r => s.flashWrite r 0 1)
    let s := (s.progressTo 0 1 0 209 0x1000).settleStart
    let s := if sec.openingMark then s.debugErase else s
    let f := s.fresh
    if !s.lodge.sec.identity || Config.freeBool f.1 then f.2
    else (f.2.modLodge (fun l => { l with fingerprint := false })).record { ErrRec.base with
      ty := 0x17, severity := 4, cls := 14 }

/-- R496, R497: aux power is applied, and the Lodge boots unless its reset is held. -/
def execAuxPowerOn (s : State) : Res :=
  if s.lodge.aux then .next s
  else
    let s := s.modLodge (fun l => { l with aux := true })
    .next (if s.lodge.resetLow then s.modLodge (fun l => { l with phase := .held }) else s.boot)

/-- R333, R494, R512: aux power fails. The Lodge finishes its flash sector and stops. -/
def execAuxPowerLoss (s : State) : Res :=
  onlyIf s.lodge.aux s ((s.stopFlash.wipe false).emit (.relay true))

/-- R510: LODGE_RESET_N goes low. The Lodge is held, every switch opens, the relay closes and every host link drops. -/
def execLodgeResetAssert (s : State) : Res :=
  if s.lodge.resetLow then .next s
  else
    let s := (s.stopFlash.wipe true).modLodge (fun l => { l with resetLow := true })
    .next (if s.lodge.aux then (s.modLodge (fun l => { l with phase := .held })).emit (.relay true) else s)

/-- R509, R512: LODGE_RESET_N rises, and start-up runs from step 1. -/
def execLodgeResetRelease (s : State) : Res :=
  if !s.lodge.resetLow then .next s
  else
    let s := s.modLodge (fun l => { l with resetLow := false })
    .next (if s.lodge.aux then s.boot else s)

/-- R332, R333: the link of a ring port goes down or comes up; a port's link start-up follows Lodge boot. -/
def execRingPortLinkChange (portB up : Bool) (s : State) : Res :=
  onlyIf (!up || s.lodge.booted) s (s.modLodge (fun l => if portB then { l with portB := up } else { l with portA := up }))

/-- R36: a point of a branch fails. -/
def execSpineBreak (east : Bool) (point : Fin 29) (s : State) : Res := .next (s.breakSpine east point.val)

/-! ### Steps 1 to 3 (R498–R502) -/

/-- R470, R498: a rail group's power is good; its core rails stand at 0.70 V. `none` is PG_LODGE, whose rail is fixed at
0.75 V. -/
def execPowerGood (g : Option (Fin 17)) (s : State) : Res :=
  let n := match g with
    | some g => g.val
    | none => 17
  let rails := (List.range 201).filter (fun r => groupOf r == n && decide (r < 177))
  if !s.lodge.aux then .next s
  else
    let s := s.modGroup n (fun x => { x with pg := true })
    let s := s.modLodge (fun l => { l with rails := rails.foldl (fun t r => tmod Rail.zero t r (fun x =>
      if x.setpoint = 0 then
        let mv : BitVec 16 := if r = 176 then 750 else 700
        { x with mv := mv, setpoint := mv } else x)) l.rails })
    .next s.settleStep1

/-- A segment ends its training step (R499): stacks that are trained and tested serve, and the others fail (R329). -/
def State.segTrained (s : State) (n : SegIx) (ok : List Nat) : State :=
  let s := s.each (List.range 3) (fun s i =>
    let k := 3 * n.val + i
    (if ok.contains k then s.modStack k (fun x => { x with
        state := 0, trained := true, lastTrainTemp := x.temperature })
      else s.failStack k).modStack k (fun x => { x with task := true }))
  s.modSeg n.val (fun x => { x with trainTask := true })

/-- R499: in step 2 the switches of the segments close, their PLLs lock and training starts; a segment without power
good is lost (R498). -/
def execSegmentPowerOn (s : State) : Res :=
  if s.lodge.phase != .steps23 || s.lodge.computeReset then .next s
  else .next ((s.each ((List.range 8).filter (fun n => !(s.seg n).dom.on && !(s.seg n).trainTask)) (fun s n =>
    if (s.group (groupOf (168 + n))).pg && !(s.seg n).dom.shorted then
      (s.modSeg n (fun x => { x with dom := { x.dom with on := true }, pll := true })).each (List.range 3) (fun s i =>
        s.modStack (3 * n + i) (fun x => { x with state := 1 }))
    else ((s.loseDomain (.segment (Fin.ofNat 8 n))).segTrained (Fin.ofNat 8 n) []).modSeg n (fun x =>
      { x with linkTask := true }))).settleStart)

/-- R331, R499: a segment ends step 2; in compatibility training, after those of the stacks before its own. -/
def execSegmentTrainingDone (n : SegIx) (stacksOk : List StackIx) (s : State) : Res :=
  let turn := s.lodge.set.hbmTraining == 0 || (List.range n.val).all (fun m => (s.seg m).trainTask)
  if !(s.seg n.val).dom.on || (s.seg n.val).trainTask || !turn then .next s
  else
    let s := s.segTrained n (stacksOk.map (·.val))
    .next (s.modSeg n.val (fun x => { x with trained := true })).settleStart

/-- A plot of a wave: H, PLL and alignment, then G and E with what they hold cleared (R500). In a compute reset H runs
on. -/
def State.wavePlot (s : State) (p : Nat) : State :=
  let x := s.plot p
  if x.out then s
  else if s.lodge.computeReset then (s.plotOn p .G).plotOn p .E
  else if (s.group (groupOf (3 * p))).pg && !x.h.shorted then
    let s := (s.plotOn p .H).modPlot p (fun x => { x with pll := true, aligned := true })
    (s.plotOn p .G).plotOn p .E
  else s.loseDomain (.plot (Fin.ofNat 56 p) .H)

/-- R500: wave w switches on the eight plots of row w, 50·w ms after step 1 ends. -/
def execPlotWave (w : Fin 7) (s : State) : Res :=
  let l := s.lodge
  if l.phase != .steps23 || l.waves.contains w.val || decide (s.ns < tget 0 l.stepStart 3 + 50000000 * w.val) then .next s
  else
    let s := s.modLodge (fun l => { l with waves := l.waves ++ [w.val] })
    .next (s.each (List.range 8) (fun s c => s.wavePlot (8 * w.val + c))).settleStart

/-- An ME line that BIST retires (R93, R501). -/
def State.bistLine (s : State) (p : Nat) (column : Bool) (line : Nat) : State :=
  match retireIn (s.pav p).repair column line with
  | some m => (s.modPav p (fun v => { v with repair := m })).retireRec p 1 3
  | none => s.bistFail p

/-- A bit column steered into its bank's spare bit (R234, R501); where that is taken, the cell takes a dummy (R454). -/
def State.bistColumn (s : State) (p cell bank : Nat) : State :=
  let k := 4 * cell + bank
  if (s.pav p).spareBits.contains k then s.bistCell p cell false
  else
    let l := physLocal (p % 4) cell
    (s.modPav p (fun v => { v with spareBits := v.spareBits ++ [k] })).record { s.pavRec p 0x11 3 6 0 with
      x := BitVec.ofNat 9 (64 * (plotOf p % 8) + l.1), y := BitVec.ofNat 9 (68 * (plotOf p / 8) + l.2)
      subunit := BitVec.ofNat 16 k }

/-- R501, R502: a plot's BIST ends and its repairs are applied; the Lodge keeps the repair data for flash (R496). -/
def execBistDone (p : PlotIx) (r : BistResult) (s : State) : Res :=
  let x := s.plot p.val
  if !x.e.on || !x.g.on || x.bistDone then .next s
  else
    let s := s.each r.meLines (fun s e => s.bistLine (4 * p.val + e.1.val) e.2.1 e.2.2)
    let s := s.each r.bitColumns (fun s e => s.bistColumn (4 * p.val + e.1.val) e.2.1.val e.2.2.val)
    let s := s.each r.cells (fun s e => s.bistCell (4 * p.val + e.1.val) e.2.1.val e.2.2)
    let s := s.each r.pavilions (fun s q => s.bistFail (4 * p.val + q.val))
    let s := s.each (r.tracks.filter (fun e => (linkEnds e.1).contains p.val)) (fun s e => s.failWires e.1 [e.2])
    let s := s.modPlot p.val (fun x => { x with bistDone := true, bistTask := true })
    .next (if r.meLines.isEmpty && r.bitColumns.isEmpty && r.tracks.isEmpty then s else s.flashWrite .repair 0 1).settleStart

/-! ### Steps 5 and 6 (R504–R507) -/

/-- The links that count to a plot's link checks (R520): its express links and edge channels to higher-indexed plots in use,
and the row span of the Footbridge west of which it lies. -/
def State.checksOf (s : State) (p : Nat) : List LinkId :=
  let used := fun q => decide (p < q) && !(s.plot q).out
  (List.range 16).filterMap (fun i => if used (expressTo p (i / 4)) then
    some (.express (Fin.ofNat 56 p) (Fin.ofNat 4 (i / 4)) (Fin.ofNat 4 i)) else none) ++
  (List.range 256).filterMap (fun i => if ((edgeTo p (i / 64)).map used).getD false then
    some (.prom (Fin.ofNat 56 p) (Fin.ofNat 4 (i / 64)) (Fin.ofNat 64 i)) else none) ++
  (if p % 8 = 3 then [.span (Fin.ofNat 9 (p / 8))] else [])

/-- The links that count to a segment's checks: its attachments to gates in use, its Colonnade hops, and the rim span
beside segment 0 or 4 (R34). -/
def State.segChecks (s : State) (n : Nat) : List LinkId :=
  ((List.range 64).filter (fun i => !(s.plot (lget 0 (gatesOfSeg n) (i / 16))).out)).map (fun i =>
    LinkId.segGate (Fin.ofNat 8 n) (Fin.ofNat 4 (i / 16)) (Fin.ofNat 16 i)) ++
  [LinkId.colonnade (Fin.ofNat 8 n) 0, .colonnade (Fin.ofNat 8 n) 1] ++
  (if n = 0 then [.span 7] else if n = 4 then [.span 8] else [])

def State.linkSettled (s : State) (l : LinkId) : Bool := (s.link l).checked || (s.link l).state == 2

/-- Link tasks that have ended (R520). -/
def State.settleLinks (s : State) : State :=
  let s := s.each ((List.range 56).filter (fun p => !(s.plot p).linkTask && !(s.plot p).out &&
    (s.checksOf p).all s.linkSettled)) (fun s p => s.modPlot p (fun x => { x with linkTask := true }))
  let s := s.each ((List.range 8).filter (fun n => !(s.seg n).linkTask && (s.segChecks n).all s.linkSettled)) (fun s n =>
    s.modSeg n (fun x => { x with linkTask := true }))
  s.settleStart

/-- R505, R506: a link passes its criterion, passes after it is trained again, or is withdrawn. Lanes of a span that made
errors take their groups' spares, which the repair region keeps, and after a second failure the links of the lanes that made
errors `again` are withdrawn. A server port that fails twice stays down and counts the attempt; a host port goes on training
(R507). Cell-torus links are checked in BIST. -/
def execLinkCheck (l : LinkId) (ok okAgain : Bool) (lanes again : List (LinkId × Nat)) (s : State) : Res :=
  let now := match l with
    | .cellTorus p _ _ _ | .attach p _ _ => (s.plot p.val).g.on
    | .port p _ => (s.plot (plotOf p.val)).g.on
    | _ => s.lodge.phase == .step5
  if !now || !linkExists l then .next s
  else
    let s := s.modLink l (fun x => { x with
      checked := true, trained := true, winStart := s.ns })
    let lost := ((linkWires l).map (fun w => wiresLost w (s.link l).failed)).getD false
    let s := if (ok || okAgain) && !lost then (match l with
        | .span n => if ok then s else (s.failLanes n.val lanes).flashWrite .repair 0 1
        | _ => s) else match l with
      | .span n =>
        let s := (s.failLanes n.val lanes).flashWrite .repair 0 1
        (s.each (again.filter (fun e => spanOf e.1 == some n.val)) (fun s e => s.withdraw e.1)).record (s.linkRec l 0)
      | .server n => (s.modSrv n.val (fun x => { x with linkUp := false, attempts := x.attempts + 1 })).srvCount n.val 15
      | .host h => s.modHost h.val (fun x => { x with linkUp := false })
      | .stack k => s.failStack k.val
      | _ => s.withdraw l
    .next (if s.lodge.phase == .step5 then s.settleLinks else s)

/-- R402, R506, R507: a server port's partner asks for training. In Direct mode only a Gelbuson adapter brings the link
up. -/
def execServerLinkTraining (n : SrvIx) (ok gelbuson : Bool) (s : State) : Res :=
  let x := s.srv n.val
  if !s.lodge.portsTrain || !(s.seg (n.val / 2)).dom.on then .next s
  else if ok && (x.mode == 0 || gelbuson) then
    .next (s.modSrv n.val (fun x => { x with linkUp := true, trained := true, retraining := false }))
  else .next ((s.modSrv n.val (fun x => { x with linkUp := false, retraining := false, attempts := x.attempts + 1 })).srvCount
    n.val 15)

/-- R504, R509, R525: the module is Ready: Operational, or Stopped when 0x2000:02 is 0 (after a compute reset, Operational).
Fuse bits are blown up to the firmware's security version. When every plot or every segment has failed the module stays
Starting. -/
def execModuleReady (s : State) : Res :=
  let l := s.lodge
  let done := (List.range 56).all (fun p => (s.plot p).linkTask || (s.plot p).out) &&
    (l.computeReset || (List.range 8).all (fun n => (s.seg n).linkTask))
  if l.phase != .step5 || !done then .next s
  else if (List.range 56).all (fun p => (s.plot p).out) || (List.range 8).all (fun n => !(s.seg n).dom.on) then
    .next (if (tget Progress.idle l.progress 0).state == 1 then s.progressEnd 0 3 else s)
  else
    let n : Nat := if l.computeReset || l.set.autoStart != 0 then 3 else 1
    let s := s.modLodge (fun l => { l with
      phase := .ready, moduleState := BitVec.ofNat 8 n, computeReset := false
      secFuse := max l.secFuse (min 64 l.fw.secver.toNat) })
    .next ((s.progressEnd 0 2).event 0x000A n 0x2000 1 0x1F)

end Sys2Proof.Machine
end

