-- ==== Sys2Proof/Machine/Deal.lean ====
section
/-! DEFINITION. The firmware deal (R513–R519) and the bounds of the power-up steps (R496). -/

namespace Sys2Proof.Machine

/-! ### Decks -/

/-- The cards of bytes that stand at an address of a target: one per 4 KiB slot that they touch, padded with zeros. -/
def slotCards (a : Nat) (d : List Byte) : List (Nat × List Byte) :=
  let d := List.replicate (a % 4096) 0 ++ d
  (List.range ((d.length + 4095) / 4096)).map (fun i => (a / 4096 + i, bslice d (4096 * i) 4096))

/-- The deck of an allotment's parcel: its program stores, engine stages and cell code (R361, R512; log 32). Scope, slot,
target and bytes. -/
def State.parcelDeck (s : State) (a : Nat) : List (BitVec 4 × BitVec 12 × BitVec 18 × List Byte) :=
  let cs := match s.parcelFor a with
    | some (b, k) => (s.allot a).withAlternates (s.parcelChunks a b k)
    | none => []
  let first := lget 0 (sectionList cs) 0
  -- the engine stage as the first section finds it: its own bytes over those of all sections (R361)
  let stage := fun (c : Chunk) =>
    let same := fun (d : Chunk) => d.ty == c.ty && d.target == c.target
    if c.section_ == 0xFF then (if cs.any (fun d => same d && d.section_.toNat == first) then [] else c.data)
    else if c.section_.toNat == first then
      c.data ++ (((cs.find? (fun d => same d && d.section_ == 0xFF)).map (·.data)).getD []).drop c.data.length
    else []
  let card := fun (sc : BitVec 4) (t : Nat) (e : Nat × List Byte) => (sc, BitVec.ofNat 12 e.1, BitVec.ofNat 18 t, e.2)
  let at_ := fun (t : Nat) => match (s.allot a).pavMap.find? (fun m => m.failed.val == t && !m.doubled) with
    | some m => m.standIn.val
    | none => t
  cs.flatMap (fun c => match c.ty.toNat with
    | 2 => (slotCards 0x780000 (stage c)).map (card 4 (at_ c.target.toNat))
    | 3 => (slotCards 0 (stage c)).map (card 4 (at_ c.target.toNat))
    | 4 => (cellParts c.data c.data.length).flatMap (fun e =>
        (slotCards e.2.2.1 e.2.2.2).map (card 0 (1024 * at_ c.target.toNat + e.1)))
    | _ => [])

def manifestOf (deck : List (BitVec 4 × BitVec 12 × BitVec 18 × List Byte)) : List ManifestLine :=
  (numbered deck).map (fun e => ManifestLine.mk e.1 e.2.1 e.2.2.1 e.2.2.2.1 (digest256 e.2.2.2.2))

/-- A line concerns a plot (R514). -/
def cardIn (scope target plot : Nat) : Bool :=
  match scope with
  | 0 => plotOf (bits target 17 10) == plot
  | 1 | 4 => plotOf (bits target 7 0) == plot
  | 2 => bits target 5 0 == plot
  | 3 | 5 => true
  | _ => false

/-- The gates that take part in the deal: those of the allotment, or at start-up those of plots whose BIST has ended. -/
def State.dealGates (s : State) (d : Deal) : List Nat :=
  match d.allotment with
  | some a => s.plotsOf a.val
  | none => below 56 (fun p => (s.plot p).bistDone && (s.plot p).h.on)

/-! ### Hands (R516) -/

/-- Cell n of a pavilion holds the card of a slot, read back. -/
def Pav.handHas (x : Pav) (n slot : Nat) : Bool := (tget x.handAll x.hands n).getLsbD slot

def Pav.setHand (x : Pav) (n slot : Nat) : Pav :=
  { x with hands := tset x.hands n (tget x.handAll x.hands n ||| BitVec.ofNat 64 (2 ^ slot)) }

/-- The pavilions of a plot that work; a failed one takes no card. -/
def State.dealPavs (s : State) (plot : Nat) : List Nat := (pavsOf plot).filter (fun p => (s.pav p).enable != .failed)

/-- Writes a card into cell n of a pavilion and sets its hand bit, unless it has it. -/
def State.cardCell (s : State) (p n slot : Nat) (d : List Byte) (missed : List DealTarget) : State :=
  if (s.pav p).handHas n slot || missed.any (fun t => match t with
      | .cell q k => q.val == p && k.val == n
      | _ => false) then s
  else (s.gardenLoad p (0x40000 * n + 4096 * slot) d).modPav p (fun v => v.setHand n slot)

def State.cardPav (s : State) (p slot : Nat) (d : List Byte) (missed : List DealTarget) : State :=
  s.each (List.range 1024) (fun s n => s.cardCell p n slot d missed)

/-- The gate of a plot delivers a card to its targets there (R515, R516). -/
def State.deliver (s : State) (plot : Nat) (c : Card) (missed : List DealTarget) : State :=
  let slot := c.slot.toNat
  let t := c.target.toNat
  match c.scope.toNat with
  | 0 => if slot < 64 ∧ (s.dealPavs plot).contains (bits t 17 10) = true then
      s.cardCell (bits t 17 10) (bits t 9 0) slot c.data missed else s
  | 1 => if slot < 64 ∧ (s.dealPavs plot).contains (bits t 7 0) = true then s.cardPav (bits t 7 0) slot c.data missed else s
  | 2 | 3 => if slot < 64 then s.each (s.dealPavs plot) (fun s p => s.cardPav p slot c.data missed) else s
  | 4 =>
    let p := bits t 7 0
    if slot < 2048 ∧ (s.dealPavs plot).contains p = true ∧ missed.all (fun m => m != .stage (Fin.ofNat 224 p)) = true then
      (s.stageLoad p (4096 * slot) c.data).modPav p (fun v => { v with
        stageHand := v.stageHand ||| BitVec.ofNat 2048 (2 ^ slot) })
    else s
  | 5 => if missed.all (fun m => m != .gate (Fin.ofNat 56 plot)) = true then
      s.modPlot plot (fun x => { x with
        gateStore := tset x.gateStore slot c.data, gateHand := x.gateHand ||| BitVec.ofNat 4096 (2 ^ slot) })
    else s
  | _ => s

/-- The targets of a line in a plot that lack its card. -/
def State.lacking (s : State) (plot : Nat) (m : ManifestLine) : List DealTarget :=
  let t := m.target.toNat
  let slot := m.slot.toNat
  let cell := fun (p n : Nat) => DealTarget.cell (Fin.ofNat 224 p) (Fin.ofNat 1024 n)
  let pav := fun (p : Nat) => (below 1024 (fun n => !(s.pav p).handHas n slot)).map (cell p)
  let works := fun (p : Nat) => (s.dealPavs plot).contains p
  match m.scope.toNat with
  | 0 => if works (bits t 17 10) && !(s.pav (bits t 17 10)).handHas (bits t 9 0) slot then
      [cell (bits t 17 10) (bits t 9 0)] else []
  | 1 => if works (bits t 7 0) then pav (bits t 7 0) else []
  | 2 | 3 => (s.dealPavs plot).flatMap pav
  | 4 => if works (bits t 7 0) && !(s.pav (bits t 7 0)).stageHand.getLsbD slot then [.stage (Fin.ofNat 224 (bits t 7 0))]
      else []
  | 5 => if (s.plot plot).gateHand.getLsbD slot then [] else [.gate (Fin.ofNat 56 plot)]
  | _ => []

def State.lackingAll (s : State) (plot : Nat) : List DealTarget := (s.plot plot).deal.lines.flatMap (s.lacking plot)

/-! ### The deal's end (R517, R519) -/

/-- Cores whose hands are complete leave reset into their monitors (R519). -/
def State.releaseCores (s : State) (plot : Nat) : State :=
  s.eachPav plot (fun x => { x with cores := x.cores.map (fun (e : Nat × Core) =>
    (e.1, { e.2 with held := !x.handHas e.1 63 })) })

/-- The deal ends when every gate has reported: start-up goes on to step 5, or the allotment's deal is done. -/
def State.settleDeal (s : State) : State :=
  match s.lodge.deal with
  | none => s
  | some d =>
    if !d.ended || !(s.dealGates d).all (fun p => (s.plot p).deal.reported || (s.plot p).out) then s
    else
      let s := s.each (s.dealGates d) (fun s p => (s.releaseCores p).modPlot p (fun x => { x with
        dealTask := x.dealTask || d.allotment.isNone, dealt := true, deal := .empty }))
      let s := s.modLodge (fun l => { l with deal := none })
      match d.allotment with
      | none => (s.modLodge (fun l => { l with phase := .step5, stepStart := tset l.stepStart 5 s.ns })).settleStart
      | some a => match s.lodge.progress.find? (fun e => e.2.owner == some (4096 + a.val, 0, 0)) with
        | some e => s.progressEnd e.1 2
        | none => s

/-- A gate that lacks nothing reports. -/
def State.gateCount (s : State) (plot : Nat) : State :=
  if (s.lackingAll plot).isEmpty then s.modPlot plot (fun x => { x with deal := { x.deal with reported := true } })
  else s

/-! ### Commands -/

/-- The allotment may be dealt: its opening has come to the deal (R367, R383), or its redeal waits (R371). -/
def State.dealDue (s : State) (a : AllotIx) : Bool :=
  let x := s.allot a.val
  s.lodge.dealQueue.head? == some a ||
  (s.lodge.dealQueue.isEmpty && x.enable == .opening && x.zeroed && x.claims == 0 && !x.dealing &&
    (plotsIn x.plots).all (fun p => s.ownerOf p == some a.val) && (s.parcelFor a.val).isSome)

/-- Starts a deal: its number, its manifest, and each gate's lines (R513). -/
def State.openDeal (s : State) (a : Option AllotIx) (lines : List ManifestLine) : State :=
  let d : Deal := { allotment := a, number := s.lodge.dealNumber, lines := lines, sent := [], ended := false }
  let s := s.modLodge (fun l => { l with deal := some d, dealNumber := l.dealNumber + 1 })
  s.each (s.dealGates d) (fun s p => s.modPlot p (fun x => { x with
    dealt := false
    deal := { GateDeal.empty with lines := lines.filter (fun m => cardIn m.scope.toNat m.target.toNat p) } }))

/-- R513: a deal starts. At start-up the deck is the firmware's, and the base image of 0x4000:03 is verified; an
allotment's deck is its parcel's, with the entry points of its cells. -/
def execDealStart (a : Option AllotIx) (s : State) : Res :=
  if s.lodge.deal.isSome then .next s
  else match a with
    | none =>
      if s.lodge.phase != .step4 then .next s
      else
        let b := s.lodge.set.activeBase.toNat
        let s := if b = 0 then s else s.modLodge (fun l => { l with images := l.images.map (fun (e : Nat × Image) =>
          if e.1 = b then (e.1, { e.2 with status := imageStatus l.sec.owners e.2.content }) else e) })
        let s := s.each (List.range 56) (fun s p => (s.modPlot p (fun x => { x with gateHand := 0 })).eachPav p (fun v =>
          { v with handAll := 0, hands := [], stageHand := 0 }))
        .next (s.openDeal none (manifestOf (Config.startDeck s.lodge.fw.image)))
    | some a =>
      if s.lodge.phase != .ready || !s.dealDue a then .next s
      else
        let deck := s.parcelDeck a.val
        let s := s.modLodge (fun l => { l with dealQueue := l.dealQueue.filter (· != a) })
        let s := (s.modAllot a.val (fun x => { x with dealing := true })).each (s.plotsOf a.val) (fun s p =>
          s.eachPav p (fun v => { v with
            stageHand := 0, handAll := v.handAll &&& BitVec.ofNat 64 (2 ^ 63)
            hands := v.hands.map (fun (e : Nat × BitVec 64) => (e.1, e.2 &&& BitVec.ofNat 64 (2 ^ 63))) }))
        let cs := match s.parcelFor a.val with
          | some (b, k) => (s.allot a.val).withAlternates (s.parcelChunks a.val b k)
          | none => []
        let s := s.each (cs.filter (fun c => c.ty == 4)) (fun s c =>
          s.each (cellParts c.data c.data.length) (fun s e =>
            s.modPav c.target.toNat (fun x => x.setCore e.1 { x.core e.1 with entry := some (BitVec.ofNat 32 e.2.1) })))
        let i := s.assignProgress (4096 + a.val, 0, 0) (0x2400 + a.val)
        .next (i.2.openDeal (some a) (manifestOf deck))

/-- R514–R516: a card is sent into the broadcast tree, or to the gates that miss it. Each gate checks its digest against the
manifest line, and delivers it to its own plot's targets, but for those that it does not reach (`missed`). -/
def execCard (c : Card) (missed : List DealTarget) (s : State) : Res :=
  match s.lodge.deal with
    | none => .next s
    | some d =>
      match d.lines.find? (fun m => m.number == c.number.val) with
      | none => .next s
      | some m =>
        if c.deal.toNat ≠ d.number % 256 then .next s
        else
          let good := c.data.length == 4096 && m.digest == digest256 c.data && m.scope == c.scope && m.slot == c.slot && m.target == c.target
          let gates := (s.dealGates d).filter (fun p => cardIn c.scope.toNat c.target.toNat p)
          let s := s.emit (.card c.number.val none)
          let s := s.each gates (fun s p =>
            if good then
              (s.modPlot p (fun x =>
                let cache := x.deal.cache ++ [CacheCard.mk c.number.val c.scope c.slot c.target c.data]
                { x with deal := { x.deal with
                  cache := cache.drop (cache.length - 4096)
                  missing := x.deal.missing.filter (· != c.number.val) } })).deliver p c missed
            else s.modPlot p (fun x => { x with deal := { x.deal with missing := c.number.val :: x.deal.missing } }))
          .next (s.modLodge (fun l => { l with deal := l.deal.map (fun d =>
            { d with sent := d.sent ++ [c.number.val] }) }))

/-- R517: the deck's end is broadcast, once every card has been sent; each gate counts the hands of its plot, and those that
miss a card begin their rounds. -/
def execDeckEnd (s : State) : Res :=
  match s.lodge.deal with
  | none => .next s
  | some d =>
    if d.ended || !d.lines.all (fun m => d.sent.contains m.number) then .next s
    else
      let s := s.modLodge (fun l => { l with deal := some { d with ended := true } })
      .next (s.each (s.dealGates d) (fun s p => (s.modPlot p (fun x =>
        { x with deal := { x.deal with ended := true, round := 1 } })).gateCount p)).settleDeal

/-- The cards of a plot's lines for one cell, dealt to its dummy (R518). -/
def State.dealDummy (s : State) (plot p n : Nat) : State :=
  let x := s.plot plot
  x.deal.lines.foldl (fun s m =>
    match x.deal.cache.find? (fun c => c.number == m.number) with
    | some c =>
      if decide (m.scope.toNat ≤ 3) && (m.scope.toNat != 0 || m.target.toNat == 1024 * p + n) &&
          (m.scope.toNat != 1 || bits m.target.toNat 7 0 == p) then
        (s.gardenLoad p (0x40000 * n + 4096 * m.slot.toNat) c.data).modPav p (fun v => v.setHand n m.slot.toNat)
      else s
    | none => s) s

/-- A target lacks a card that its gate did deliver, so that its own receiver counted the failures (R518). -/
def State.receiverFailed (s : State) (plot : Nat) (t : DealTarget) : Bool :=
  let x := (s.plot plot).deal
  x.lines.any (fun m => !x.missing.contains m.number && (s.lacking plot m).contains t)

/-- A pavilion whose deal has failed: in an allotment that is open it is replaced, and otherwise it fails, to be replaced as the
allotment opens (R458, R502, R518). -/
def State.dealFail (s : State) (p : Nat) : State :=
  match s.lodge.deal.bind (·.allotment) with
  | some a => if (s.allot a.val).enable == .open_ then s.pavLost p else s.bistFail p
  | none => s.bistFail p

/-- A target whose hand is incomplete after round 3 (R518). -/
def State.revoke (s : State) (plot : Nat) (t : DealTarget) : State :=
  match t with
  | .cell p n =>
    let rdead := s.receiverFailed plot t
    let s := s.cellDead p.val (s.physCell p.val n.val) rdead
    match s.remapCell p.val n.val rdead with
    | some r => (r.2.modPav p.val (fun v => { v with hands := tset v.hands n.val 0 })).dealDummy plot p.val n.val
    | none => s.dealFail p.val
  | .stage p => s.dealFail p.val
  | .gate g => if (s.plot g.val).out then s else s.loseForGood (.plot g .H)

/-- The cells among targets, each once. -/
def distinct : List DealTarget → List DealTarget
  | [] => []
  | t :: l => t :: (distinct l).filter (· != t)

/-- R517, R518: a round of re-sends ends. After round 3 what is still incomplete is revoked, and a revoked cell whose dummy
is incomplete too fails its pavilion; then the gate reports. -/
def execDealRoundEnd (p : PlotIx) (s : State) : Res :=
  let x := (s.plot p.val).deal
  match s.lodge.deal with
  | none => .next s
  | some d =>
    if !x.ended || x.reported || !(s.dealGates d).contains p.val then .next s
    else if (s.lackingAll p.val).isEmpty then .next (s.gateCount p.val).settleDeal
    else if x.round < 3 then
      .next (s.modPlot p.val (fun y => { y with deal := { y.deal with round := y.deal.round + 1 } }))
    else
      let s := s.each (distinct (s.lackingAll p.val)) (fun s t => s.revoke p.val t)
      let s := s.each (s.lackingAll p.val) (fun s t => match t with
        | .cell q _ => if (s.pav q.val).enable == .failed then s else s.dealFail q.val
        | _ => s)
      .next (s.modPlot p.val (fun y => { y with deal := { y.deal with reported := true } })).settleDeal

/-! ### Bounds (R496) -/

/-- Bounds of the power-up steps in ns, counted from their starts. -/
def stepBound (n : Nat) : Nat := lget 0 [0, 5000000000, 40000000000, 105300000000, 2000000000, 5000000000, 120000000000] n

/-- R496: a step's bound elapses, and every unit that has not finished it is treated as failed. Rail groups whose power is not
good leave their units off (R498), stacks and segments fail, pavilions of plots still in BIST fail, gates that have not
reported fail their plots (R518), and unchecked links are withdrawn. -/
def execStartupStepBound (n : StepNo) (s : State) : Res :=
  let l := s.lodge
  match tget? l.stepStart n.val with
  | none => .next s
  | some t =>
    if s.ns < stepBound n.val + t then .next s
    else match n.val with
      | 1 => .next (if l.phase == .step1 then s.endStep1 else s)
      | 2 =>
        if l.phase != .steps23 || l.computeReset then .next s
        else .next ((s.each ((List.range 8).filter (fun k => !(s.seg k).trainTask)) (fun s k =>
          s.segTrained (Fin.ofNat 8 k) (below 24 (fun i => (s.stack i).trained)))).settleStart)
      | 3 =>
        if l.phase != .steps23 then .next s
        else .next ((s.each ((List.range 56).filter (fun p => !(s.plot p).bistTask && !(s.plot p).out)) (fun s p =>
          (s.each (pavsOf p) State.bistFail).modPlot p (fun x => { x with bistTask := true }))).settleStart)
      | 4 =>
        match l.deal with
        | some d =>
          if l.phase != .step4 then .next s
          else
            let s := s.modLodge (fun l => { l with deal := some { d with ended := true } })
            .next (s.each ((s.dealGates d).filter (fun p => !(s.plot p).deal.reported && !(s.plot p).out)) (fun s p =>
              s.loseForGood (.plot (Fin.ofNat 56 p) .H))).settleDeal
        | none => .next s
      | 5 =>
        if l.phase != .step5 then .next s
        else
          let late := ((List.range 56).filter (fun p => !(s.plot p).linkTask && !(s.plot p).out)).flatMap s.checksOf ++
            ((List.range 8).filter (fun k => !(s.seg k).linkTask)).flatMap s.segChecks
          .next (s.each (late.filter (fun k => !s.linkSettled k)) State.withdraw).settleLinks
      | _ => .next s

end Sys2Proof.Machine
end

