-- ==== Sys2Proof/Machine/Drills.lean ====
section
/-! DEFINITION. Drills (R444–R448) and the passage of error records to the Lodge (R441–R443). -/

namespace Sys2Proof

/-- The pavilion of a drill of a pavilion's unit: kinds 1–7. -/
def DrillUnit.pav (u : DrillUnit) : Nat := 4 * u.plot.val + u.q.val
def DrillUnit.ofPav (u : DrillUnit) : Bool := decide (1 ≤ u.kind.toNat ∧ u.kind.toNat ≤ 7)
def DrillUnit.key (u : DrillUnit) : Nat := 65536 * u.kind.toNat + u.subunit.toNat

end Sys2Proof

namespace Sys2Proof.Machine

/-- The record class of a drill kind (R441, R444). -/
def drillClass (kind : Nat) : Nat := lget 0 [0, 2, 3, 4, 2, 4, 1, 6, 7, 9, 7] kind

/-- A pavilion between runs, or all of whose streams wait (R446). -/
def Seq.idle (q : Seq) : Bool := !q.running || q.streams.all (fun t => t.halted || t.hold != .none)

/-- The drill package in use holds an entry for the unit: its kind, and the unit's subunit where the entry names one (R444). -/
def State.drillNamed (s : State) (u : DrillUnit) : Bool :=
  match s.lodge.drill with
  | none => false
  | some x => (List.range (bits (leNat (x.content.take 32)) 167 152)).any (fun i =>
      let e := leNat ((x.content.drop (32 + 32 * i)).take 32)
      bits e 255 248 == u.kind.toNat && (bits e 247 240 == 0 || bits e 239 224 == u.subunit.toNat))

/-- A drill may run on its unit now (R446, R447): the unit is on, neither frozen nor being shuffled, and for an engine
drill idle or forced. -/
def State.drillable (s : State) (u : DrillUnit) : Bool :=
  let x := s.plot u.plot.val
  let v := s.pav u.pav
  let a := s.ownerOf u.plot.val
  let steady := match a with
    | some a => (s.allot a).frozen.isNone
    | none => true
  s.drillNamed u && steady && decide (1 ≤ u.kind.toNat ∧ u.kind.toNat ≤ 10) &&
  (if u.ofPav then
      (if u.kind.toNat = 7 then x.g.on && s.slotFree u.pav u.subunit.toNat else x.e.on && x.g.on) &&
      (decide (6 ≤ u.kind.toNat) || v.seq.idle || v.drillDue)
    else x.h.on)

/-- Time of the unit's last passed drill. -/
def State.lastPass (s : State) (u : DrillUnit) : Nat :=
  if u.ofPav then tget 0 (s.pav u.pav).drillPass u.key else tget 0 (s.plot u.plot.val).drillPass u.key

/-- A cell-core drill is asked for by trap 0x07, which enters the monitor; the core's tret returns to where it was (R214, R445;
log 84). -/
def Core.drilled (c : Core) : Core := if c.held then c else c.trapped 7

/-- Notes a drill taken: its unit's schedule, and the time when it passed (R429, R446). A bank drill leaves what it
wrote in the drill row of its bank, outside the address map (R238). -/
def State.drilled (s : State) (u : DrillUnit) (pass : Bool) (runs : Nat) : State :=
  let note := fun (t : Tab Nat) => if pass then tset t u.key s.ns else t
  let s := s.modLodge (fun l => { l with drillRuns := l.drillRuns + BitVec.ofNat 64 runs })
  if u.ofPav then
    let s := if u.kind.toNat = 7 then
        let f := s.fresh
        f.2.modPav u.pav (fun v => { v with
          drillRows := tset v.drillRows u.subunit.toNat ((List.range 64).map (fun i => Config.freeByte (64 * f.1 + i))) })
      else if u.kind.toNat = 6 ∧ u.subunit.toNat < 1024 then
        s.modPav u.pav (fun v => if v.gated u.subunit.toNat then v
          else v.setCore u.subunit.toNat (v.core u.subunit.toNat).drilled)
      else s
    let engine := decide (u.kind.toNat ≤ 5)
    s.modPav u.pav (fun v => { v with
      lastDrill := if engine then s.ns else v.lastDrill
      drillDue := v.drillDue && !engine
      drillPass := note v.drillPass })
  else s.modPlot u.plot.val (fun x => { x with lastDrill := s.ns, drillPass := note x.drillPass })

/-- The record of a failed drill (R441, R448). -/
def State.drillRec (s : State) (u : DrillUnit) (severity : Nat) (second : Bool) : ErrRec :=
  let r := if u.ofPav then s.pavRec u.pav 0x10 severity (drillClass u.kind.toNat) 0
    else s.plotRec u.plot.val 0x10 severity (drillClass u.kind.toNat) 0
  { r with
    subunit := u.subunit, detail := BitVec.ofNat 32 (u.kind.toNat + if second then 256 else 0)
    address := BitVec.ofNat 64 (s.lastPass u) }

/-- Why the section of a unit that failed its drills is frozen: a unit of R429 (sequencer, core, router, gate, switch) replays from the
older mark, any other as a unit's death does (R448, R449). -/
def drillCause (kind : Nat) : FreezeCause := if [5, 6, 8, 9, 10].contains kind then .drill else .unitDeath

/-- R445–R448: a drill of the package runs on a unit. A failed drill of an ME leaves the line that it placed to a
LINE_RETIREMENT, as (true, 1023) in `retiring` (R90). A first failure runs it again at once: a second pass is a transient
failure, and a second failure sends the unit to the kitty, by a shuffle that the frozen section waits for. -/
def execDrill (u : DrillUnit) (pass again : Bool) (s : State) : Res :=
  if !s.drillable u then .next s
  else if pass then .next (s.drilled u true 1)
  else if again then .next ((s.record (s.drillRec u 1 false)).drilled u true 2)
  else
    let s := s.record (s.drillRec u 3 true)
    let s := s.drilled u false 2
    let s := s.modLodge (fun l => { l with drillFailures := satInc l.drillFailures })
    match s.ownerOf u.plot.val with
    | some a =>
      let s := if u.kind = 1 then s.modME u.pav (fun m => { m with retiring := m.retiring ++ [(true, 1023)] }) else s
      .next (s.recover a (drillCause u.kind.toNat))
    | none => .next (if u.ofPav ∧ u.kind.toNat ≤ 5 then s.failPav u.pav else s)

/-- R447: after 2 drill periods without an idle gap, a drill is forced at the next cadence entry boundary, or at the next
section boundary when the pavilion has bound ports. -/
def execForcedDrill (p : PavIx) (s : State) : Res :=
  let v := s.pav p.val
  let due := decide (v.lastDrill + 10 ^ 9 * (2 * s.lodge.drillInterval.toNat) ≤ s.ns)
  let boundary := if (s.pav (s.portsOf p.val)).outBind.isEmpty && (s.pav (s.portsOf p.val)).inBind.isEmpty then v.seq.cadBoundary else !v.seq.running
  let frozen := match s.allotOfPav p.val with
    | some a => (s.allot a).frozen.isSome
    | none => false
  onlyIf (s.lodge.drill.isSome && due && boundary && !frozen) s (s.modPav p.val (fun v => { v with drillDue := true }))

/-! ### Records on their way to the Lodge -/

/-- The first record of a coalescer whose hold of 1 ms has ended (R442). -/
def Coalescer.ready (c : Coalescer) (ns : Nat) : Option ErrRec := c.held.find? (fun r => decide (1000000 + r.time.toNat ≤ ns))

/-- R442: a held record is sent at the node's turn. -/
def execCoalescerSend (n : CoalNode) (s : State) : Res :=
  let c := match n with
    | .plot p => (s.plot p.val).coal
    | .segment g => (s.seg g.val).coal
  match c.ready s.ns with
  | some r =>
    let c' : Coalescer := { c with held := c.held.erase r }
    let s := match n with
      | .plot p => s.modPlot p.val (fun x => { x with coal := c' })
      | .segment g => s.modSeg g.val (fun x => { x with coal := c' })
    .next (s.modLodge (fun l => { l with arriving := l.arriving ++ [r] }))
  | none => .next s

/-- R441, R442: a sent record reaches the Lodge, which numbers it and writes it to the log. -/
def execRecordArrival (s : State) : Res :=
  match s.lodge.arriving with
  | r :: t => .next ((s.modLodge (fun l => { l with arriving := t })).logRecord r)
  | [] => .next s

end Sys2Proof.Machine
end

