-- ==== Sys2Proof/Machine/Moves.lean ====
section
/-! DEFINITION. The move engines of the cells (R210–R212, R241–R246). -/

namespace Sys2Proof.Machine

/-- A move descriptor (R211). -/
structure Move where
  inc : Bool
  cw : Bool
  ord : Bool
  ctr : Nat
  len : Nat
  src : Nat
  dst : Nat
  caddr : Nat
  cval : Nat
  reserved : Bool
  deriving DecidableEq, Repr

def moveOf (d : BitVec 256) : Move :=
  let v := d.toNat
  { inc := bit v 251, cw := bit v 250, ord := bit v 249, ctr := bits v 247 244, len := bits v 215 192, src := bits v 191 128
    dst := bits v 127 64, caddr := bits v 63 32, cval := bits v 31 0
    reserved := bits v 255 252 != 0 || bit v 248 || bits v 243 216 != 0 }

/-- R211: movq queues the descriptor at ga, a multiple of 32; while the queue holds 16 the core stalls. A poisoned descriptor is
consumed: a move fault that poison caused, handled as a load from a poisoned row (R214, R437). -/
def execMovq (c : CellXY) (ga : RegIx) (s : State) : Res :=
  s.onCore c (fun p n k =>
    if 16 ≤ k.moveQueue.length then s
    else s.access p n k (k.reg ga).toNat 32 (fun a =>
      s.coreLoad p n a 32 causeMove (fun v k => { k.advance with moveQueue := k.moveQueue ++ [BitVec.ofNat 256 v] })))

/-- The side of a move that a check admits: it lies in the allotment, within one cell or the usable HBM, outside the monitor
region when written, and, in a garden in full/empty mode, on whole tag slots (R210–R212, R242). -/
def State.moveSide (s : State) (al addr len : Nat) (write : Bool) : Bool :=
  let t := s.resolve al addr
  s.targetFits al t len && (match t with
    | .cell p o => !(write && inMonitor o len) && (!(s.pav p).fullEmpty || tagAligned o len)
    | _ => true)

/-- A descriptor that may start (R211, R212; log 85). -/
def State.moveOk (s : State) (al : Nat) (m : Move) : Bool :=
  !m.reserved && decide (1 ≤ m.len) && s.moveSide al m.src m.len false && s.moveSide al m.dst m.len true &&
    (!m.cw || (decide (m.caddr % 4 = 0 ∧ m.caddr < 0x3F000)))

/-- The coordinates of the endpoint of a fabric address: a cell, or the HBM agent of the pavilion's plot (R283). -/
def moveEnd (p addr : Nat) : BitVec 9 × BitVec 9 :=
  if bits addr 47 45 = 1 then (BitVec.ofNat 9 (plotOf p), 481)
  else (BitVec.ofNat 9 (bits addr 44 36), BitVec.ofNat 9 (bits addr 35 27))

/-- The cell itself is the source, so that the engine sends; otherwise it reads the source (R287, R291). -/
def Move.sends (m : Move) (c : CellXY) : Bool :=
  bits m.src 63 45 == 0 && bits m.src 44 36 == c.x.val && bits m.src 35 27 == c.y.val

/-- Writes the completion word of a move (R211, R212). -/
def State.moveWord (s : State) (p n : Nat) (m : Move) (v : Word) : State :=
  if m.cw then s.localPut p false .mover (0x40000 * n + m.caddr) (natLE 4 v.toNat) false 5 else s

/-- A move fault (R212, R214): the completion word with bit 31 inverted, no addition, and the trap. -/
def State.moveFault (s : State) (p n : Nat) (m : Move) : State :=
  (s.moveWord p n { m with cw := m.cw && decide (m.caddr % 4 = 0 ∧ m.caddr < 0x3F000) }
    (BitVec.ofNat 32 m.cval ^^^ 0x80000000)).trapStop p n causeMove

/-- The core without the descriptor at the head of its queue. -/
def Core.popMove (k : Core) : Core := { k with moveQueue := k.moveQueue.drop 1 }

/-- The first free place of a move engine. -/
def Core.movePlace (k : Core) : Option Nat := (List.range 4).find? (fun i => (lget none k.moves i).isNone)

/-- The parts of a move: its cell sends to the destination, or reads the source (R287, R291, R292). -/
def Move.parts (m : Move) (c : CellXY) (p : Nat) : Parts :=
  if m.sends c then Parts.first false (moveEnd p m.dst) m.dst m.src m.len
  else Parts.first true (moveEnd p m.src) m.src m.dst m.len

/-- Starts the descriptor at the head of a cell's queue (R211, R212); its parts wait for tags of the cell's own side as they start
(R243, R244). -/
def State.moveStart (s : State) (c : CellXY) (p n : Nat) (k : Core) (d : BitVec 256) (i : Nat) : State :=
  let m := moveOf d
  let al := (s.allotOfPav p).getD 16
  if !s.moveOk al m then (s.setCore p n k.popMove).moveFault p n m
  else
    let s := s.setCore p n { k.popMove with moves := k.moves.set i (some { d := d, parts := m.parts c p }) }
    (s.modRx (.cell c) (fun x => x.dropOwner (.move n i))).pumpParts (.cell c) (.move n i) 4

/-- A move engine can work: its plot's garden domain is on, and it is neither held nor gated (R221). -/
def State.moverRuns (s : State) (p n : Nat) : Bool :=
  (s.plot (plotOf p)).g.on && !((s.pav p).core n).held && !(s.pav p).gated n

/-- R211: the descriptor at the head of the queue starts when one of the four places is free and, with ord, when every earlier
one has finished. -/
def execMoveTransferStart (c : CellXY) (s : State) : Res :=
  match cellNo c with
  | some (p, n) =>
    let k := (s.pav p).core n
    match k.moveQueue, k.movePlace with
    | d :: _, some i =>
      onlyIf (s.moverRuns p n && (!(moveOf d).ord || k.moves.all (·.isNone))) s (s.moveStart c p n k d i)
    | _, _ => .next s
  | none => .next s

/-- The last byte of a move has landed: copy map, completion word and counter, in that order (R212, R438). -/
def State.moveLand (s : State) (p n i al : Nat) (m : Move) : State :=
  let s := match s.resolve al m.src, s.resolve al m.dst with
    | .hbm o, .cell q a =>
      if o % 64 = 0 ∧ a % 64 = 0 ∧ m.len % 64 = 0 then s.noteCopy q al false a o m.len else s
    | _, _ => s
  let k := (s.pav p).core n
  let s := (s.setCore p n { k with moves := k.moves.set i none }).moveWord p n m (BitVec.ofNat 32 m.cval)
  if m.inc then s.addCtr p m.ctr 1 else s

/-- A move of a place fails (R212, R245): its place is free, and the fault. -/
def State.moveFail (s : State) (p n i : Nat) : State :=
  let k := (s.pav p).core n
  match lget none k.moves i with
  | some x => (s.setCore p n { k with moves := k.moves.set i none }).moveFault p n (moveOf x.d)
  | none => s

/-- R212, R292: a move whose parts have all finished is over; one of whose parts has failed ends in a move fault. A failure while
its section is frozen was left to the replay (R307). -/
def execMoveTransferFinish (c : CellXY) (i : Fin 4) (e : XferEnd) (s : State) : Res :=
  match cellNo c with
  | some (p, n) =>
    match lget none ((s.pav p).core n).moves i.val with
    | none => .next s
    | some x =>
      let al := (s.allotOfPav p).getD 16
      match e with
      | .landed => onlyIf (s.moverRuns p n && x.parts.over && x.parts.fault == 0) s (s.moveLand p n i.val al (moveOf x.d))
      | .failed => onlyIf (x.parts.fault != 0) s (s.moveFail p n i.val)
      | .digestMismatch => .next s
  | none => .next s

end Sys2Proof.Machine
end

