-- ==== Sys2Proof/Machine/Garden.lean ====
section
/-! DEFINITION. Garden maintenance through slot 7 (R235, R236, R238) and waits on full/empty tags (R243–R246, R420). -/

namespace Sys2Proof.Machine

/-! ### Slot 7 -/

/-- The rows of the wide row that a garden row lies in (R217). -/
def wideRow (row : Nat) : List Nat := (List.range 8).map (fun i => row / 8 * 8 + i)

/-- A row as a write-back leaves it: corrected, or, when it is the one found uncorrectable, poisoned with its data as read (R235,
R236); n is the free value number of a row beyond the code's guarantee. -/
def Store.writeBack (m : Store) (w : WriteBack) (n row : Nat) : Store :=
  let r := m.correct sramCode row n
  if r.1.fixed then m.putFixed row r
  else if r.1 = .uncorrectable ∧ w.poison ∧ row = w.row then m.poisonRow row
  else m

/-- R235, R236: the oldest write-back of a bank, one that sets poison first, re-reads its wide row, corrects it and writes it. -/
def execCorrectionWriteBack (p : PavIx) (cell : Fin 1088) (bank : Fin 4) (s : State) : Res :=
  let b := 4 * cell.val + bank.val
  match tget [] (s.pav p.val).writeBacks b with
  | [] => .next s
  | l =>
    let w := ((l.find? (fun x => x.poison)).or l.head?).getD { row := 0, poison := false }
    let n := s.fresh.1
    onlyIf (s.plot (plotOf p.val)).g.on s (s.fresh.2.modPav p.val (fun x => { x with
      writeBacks := tset x.writeBacks b (l.erase w)
      garden := (wideRow w.row).foldl (fun m r => m.writeBack w n r) x.garden }))

/-- A spare cell whose banks are gated: neither a dummy nor one that holds keep copies (R23, R238, R450). -/
def State.bankGated (s : State) (p k : Nat) : Bool :=
  let q := p % 4
  isSpare q k && !(s.pav p).keepsIn k &&
    !(s.plot (plotOf p)).remap.any (fun r => r.ux.val == (physLocal q k).1 && r.uy.val == (physLocal q k).2)

/-- Patrol scrub of one row: read and corrected as any read is (R235, R236, R238). -/
def State.patrolRow (s : State) (p row : Nat) : State :=
  let g := (s.pav p).garden
  let r := g.correct sramCode row s.free
  let s := if g.beyond sramCode row then s.fresh.2 else s
  s.gardenSeen p row r.1 false

/-- R238: patrol scrub reads and corrects the next wide row of a bank, behind the bank's write-backs. -/
def execGardenPatrolScrub (p : PavIx) (cell : Fin 1088) (bank : Fin 4) (s : State) : Res :=
  let b := 4 * cell.val + bank.val
  let w := tget 0 (s.pav p.val).patrol b
  let rows := wideRow (4096 * cell.val + 32 * w + 8 * bank.val)
  onlyIf ((s.plot (plotOf p.val)).g.on && !s.bankGated p.val cell.val && s.slotFree p.val b) s
    ((s.each rows (fun s r => s.patrolRow p.val r)).modPav p.val (fun x => { x with patrol := tset x.patrol b ((w + 1) % 128) }))

/-! ### Waits on tags -/

/-- A DMA transfer that waited is tried again. -/
def State.retryDma (s : State) (p k : Nat) : State :=
  match (s.pav p).seq.place k with
  | none => s
  | some x =>
    match x.kind with
    | .psend => s.psendPump p k (pxferOf x.w.toNat).rounds
    | .precv => s.precvStart p k x
    | .dcopy =>
      if x.parts.isSome then s.pumpParts (.dma (Fin.ofNat 224 p)) (.dma k) 4
      else s.dcopySlots p k ((dcopyOf x.w.toNat).rows / 64 + 1)

/-- The cell of a pavilion by its number. -/
def cellOf (p n : Nat) : CellXY := { x := Fin.ofNat 512 (cellXY p n).1, y := Fin.ofNat 476 (cellXY p n).2 }

/-- A waiting access is tried again. The ME goes on with the next row that it issues; a window's frames land. -/
def State.retryWaiter (s : State) (p t : Nat) (w : TagWaiter) : State :=
  let st := ((s.pav p).tag t).state
  match w with
  | .dma q k => s.retryDma q k
  | .move q n k => s.pumpParts (.cell (cellOf q n)) (.move n k) 4
  | .feed => if st = tagFull then s.modPav p (fun x => x.dropWaiter .feed) else s
  | .drain => if st = tagEmpty then s.modPav p (fun x => x.dropWaiter .drain) else s
  | .window n _ _ _ => s.pumpIn n

/-- The pass that waits as a waiter: a drain that shifts waits as a writer, and any other wait is the running pass's. -/
def ME.waitingPass (m : ME) (w : TagWaiter) : Option Pass :=
  match w, m.drain with
  | .drain, some (r, true, _) => some r
  | _, _ => m.running

/-- A waiting access fails (R245, R246, R420): a program fault, a move fault, or DONE with TIMEOUT. -/
def State.failWaiter (s : State) (p : Nat) (w : TagWaiter) : State :=
  let s := s.modPav p (fun x => x.dropWaiter w)
  match w with
  | .dma q k =>
    match (s.pav q).seq.place k with
    | some x => s.dmaFail q k x (match x.kind with | .dcopy => 0x80 | .psend => 0x81 | .precv => 0x82)
    | none => s
  | .move q n k => (s.modRx (.cell (cellOf q n)) (fun x => x.dropOwner (.move n k))).moveFail q n k
  | .feed | .drain =>
    match (s.pav p).me.waitingPass w with
    | some r => s.failPass p r
    | none => s
  | .window n peer xid handle =>
    let i := fun (j : Incoming) => j.peer.toNat == peer && j.xid.toNat == xid && j.handle.toNat == handle
    match (s.srv n).incoming.find? i with
    | some j =>
      ((s.modSrv n (fun x => { x with incoming := x.incoming.filter (fun y => !i y) })).srvCount n 12).sendDone n
        (bits handle 11 0) j.peer j.handle j.xid tsTimeout
    | none => s

/-- A request's sender learns that its landing was not granted: its DCOPY fails at once, and so does its move (R245). -/
def State.failSender (s : State) (q : HeldReq) : State :=
  match s.senderOf q.srcX q.srcY q.tag with
  | some (.cell c, x) =>
    let s := s.failFrom q
    match x.owner, cellNo c with
    | .move n k, some (p, _) => if x.counted || (s.allot (s.rxAllot (.cell c))).frozen.isSome then s else s.moveFail p n k
    | _, _ => s
  | _ => s.failFrom q

/-- A request waits at a receiver for a tag slot in a state other than the one it needs. -/
def State.waitsFor (s : State) (r : Receiver) (p t : Nat) (need : BitVec 2) (q : HeldReq) : Bool :=
  ((s.pav p).tag t).state != need && (match s.resolve (s.rxAllot r) q.address.toNat with
    | .cell m o => m == p && (tagRange o q.length).contains t
    | _ => false)

/-- Requests and READs that a cell, or the port cell's engine, holds for a tag slot, and that a test selects, fail (R245). -/
def State.failHeld (s : State) (p t : Nat) (late : Nat → Bool) : State :=
  let r : Receiver := .cell (cellOf p (t / 64))
  let s := s.each ((s.rx r).held.filter (fun q => late q.since && s.waitsFor r p t tagEmpty q)) (fun s q =>
    (s.modRx r (fun x => { x with held := x.held.erase q })).failSender q)
  s.each [r, .dma (Fin.ofNat 224 p)] (fun s r =>
    s.each ((s.rx r).readQueue.filter (fun q => late q.since && s.waitsFor r p t tagFull q)) (fun s q =>
      (s.modRx r (fun x => { x with readQueue := x.readQueue.erase q })).failSender q))

/-- A COPY waits on a tag slot of its destination. -/
def State.copyOnTag (s : State) (a : Nat) (c : Cmd) (p t : Nat) : Bool :=
  let len := bits c.a2 39 0
  c.op == 2 && c.state == .running && (match s.placeTags a (s.copyPlace a (bits c.a2 47 44) c.a1 len true).2 len with
    | some (q, ts) => q == p && ts.contains t && ((s.pav p).tag t).state != tagEmpty
    | none => false)

/-- The COPYs of the pavilion's allotment that wait on a tag slot, and whose wait a test selects, complete with TIMEOUT (R245). -/
def State.failCopies (s : State) (p t : Nat) (late : Nat → Bool) : State :=
  match s.allotOfPav (p % 224) with
  | none => s
  | some a => s.each (s.allot a).queues (fun s e =>
      s.each (e.2.cmds.filter (fun c => (c.waits.map late).getD false && s.copyOnTag a c p t)) (fun s c =>
        s.endCopy a e.1 c stTimeout 0))

/-- Every access that waits on a tag slot, and whose wait began at a time that a test selects, fails (R245, R246). -/
def State.failTag (s : State) (p t : Nat) (late : Nat → Bool) : State :=
  let s := s.each ((s.pav p).tagWaiters.filter (fun e => e.1 == t && late e.2.2)) (fun s e => s.failWaiter p e.2.1)
  (s.failHeld p t late).failCopies p t late

/-- R243, R244, R246: the accesses that wait on a tag slot are tried again; at a broken tag they fail at once. -/
def execTagWaitEnd (p : PavIx) (tag : Fin 65536) (s : State) : Res :=
  if ((s.pav p.val).tag tag.val).state = tagBroken then
    .next ((s.brokenTag p.val tag.val).failTag p.val tag.val (fun _ => true))
  else
    .next (s.each ((s.pav p.val).tagWaiters.filter (fun e => e.1 == tag.val)) (fun s e => s.retryWaiter p.val tag.val e.2.1))

/-- The tag timeout of a garden in ns (R245). -/
def State.tagNs (s : State) (p : Nat) : Nat := fcycles (2 ^ (s.limits p).tag.toNat)

/-- R245, R420: accesses that have waited on a tag slot for the tag timeout fail. -/
def execTagTimeout (p : PavIx) (tag : Fin 65536) (s : State) : Res :=
  .next (s.failTag p.val tag.val (fun since => decide (since + s.tagNs p.val ≤ s.ns)))

end Sys2Proof.Machine
end

