-- ==== Sys2Proof/Machine/Instructions.lean ====
section
/-! DEFINITION. The sequencer's instruction commands: which stream wins a port (R189), and one meaning for each instruction of
a pavilion program. -/

namespace Sys2Proof.Machine

/-! ### Ready instructions and the ports' rotation (R189) -/

/-- How the next instruction of stream i, of opcode op and body w, issues; none for a reserved opcode. -/
def State.issueOf (s : State) (p i op w : Nat) : Option Issue :=
  if op = 6 then some (cpostIssue w)
  else if op < 9 then some (ctlIssue none)
  else match op with
    | 0x10 => some (s.mloadIssue p i w)
    | 0x18 => some (munpkIssue ((s.pav p).seq.stream i) w)
    | 0x1C => some (mpackIssue ((s.pav p).seq.stream i) w)
    | 0x20 => some (s.mrunIssue p i w)
    | 0x28 => some (s.maccIssue p i w)
    | 0x30 => some (mosetIssue w)
    | 0x34 => some (mpsetIssue w)
    | 0x38 => some (mgeomIssue w)
    | 0x3C => some (mfsetIssue w)
    | 0x80 => some (s.dcopyIssue p w)
    | 0x81 => some (s.psendIssue p w)
    | 0x82 => some (s.precvIssue p w)
    | _ => if veOpcode op then some (s.veIssue p (vopOf op w)) else none

/-- An instruction is ready: its cadence rule allows it, its port can accept it, and it is refused or the scoreboard passes it
(R189). -/
def State.readyTo (s : State) (p i : Nat) (x : Issue) : Bool :=
  let q := (s.pav p).seq
  match q.cadAsk (s.tileLeft p) i x.cad with
  | .wait => false
  | .fault => true
  | .go _ => x.ready && ((x.refuse.or (x.rngs.findSome? (Rng.code (q.tagged && x.unit != 4)))).isSome ||
      (q.passes (entryRngs q.tagged x.unit x.rngs) && s.writeRoom p x.rngs))

/-- The next instruction of stream j is ready. -/
def State.streamReady (s : State) (p j : Nat) : Bool :=
  let v := s.slotWord p ((s.pav p).seq.stream j).slot
  match s.issueOf p j (v / 2 ^ 120) (v % 2 ^ 120) with
  | some x => s.readyTo p j x
  | none => false

/-- Another stream that comes before stream i in a port's rotation has an instruction ready for the port (R189). -/
def State.yields (s : State) (p i op : Nat) : Bool :=
  match issuePort op with
  | none => false
  | some k =>
    let q := (s.pav p).seq
    let turn := fun (j : Nat) => (j + 7 - lget 3 q.lastWin k) % 4
    (List.range 4).any (fun j => j != i && decide (turn j < turn i) && s.streamOpen p j &&
      issuePort (s.nextOp p j) == some k && s.streamReady p j)

/-- The stream's next instruction is this one, and its port's turn is its own. -/
def State.offers (s : State) (p i op w : Nat) : Bool :=
  s.streamOpen p i && s.slotWord p ((s.pav p).seq.stream i).slot == 2 ^ 120 * op + w && !s.yields p i op

/-- An instruction command: it applies when it is the next instruction that its stream offers. -/
def State.instr (s : State) (p : PavIx) (i : StreamIx) (op : Nat) (w : Body) (f : State → State) : Res :=
  onlyIf (s.offers p.val i.val op w.toNat) s (f s)

/-- R188, R202: a stream's waiting instruction is tried again, or one with a reserved opcode is met. -/
def execStalledIssue (p : PavIx) (i : StreamIx) (s : State) : Res :=
  let op := s.nextOp p.val i.val
  let waits := ((s.pav p.val).seq.stream i.val).hold != .none
  onlyIf (s.streamOpen p.val i.val && (waits || (issuePort op).isNone) &&
    !s.yields p.val i.val op) s (s.issueAny p i.val)

/-! ### Control instructions (R191) -/

/-- R191: NOP. -/
def execNop (p : PavIx) (i : StreamIx) (w : Body) (s : State) : Res :=
  s.instr p i 0 w (fun s => s.runNop p.val i.val w.toNat)

/-- R191: WAIT holds its stream; WAIT_END ends the hold. -/
def execWait (p : PavIx) (i : StreamIx) (w : Body) (s : State) : Res :=
  s.instr p i 1 w (fun s => s.runWait p.val i.val w.toNat)

/-- R191: HALT ends the stream. -/
def execHalt (p : PavIx) (i : StreamIx) (w : Body) (s : State) : Res :=
  s.instr p i 2 w (fun s => s.runHalt p.val i.val w.toNat)

/-- R192: LOOP runs its body so many times. -/
def execLoop (p : PavIx) (i : StreamIx) (w : Body) (s : State) : Res :=
  s.instr p i 3 w (fun s => s.runLoop p.val i.val w.toNat)

/-- R191: SYNCW holds its stream until its counter has reached the value, unsigned. -/
def execSyncw (p : PavIx) (i : StreamIx) (w : Body) (s : State) : Res :=
  s.instr p i 4 w (fun s => s.runSyncw p.val i.val w.toNat)

/-- R194: SYNCA adds to a counter, modulo 2^32. -/
def execSynca (p : PavIx) (i : StreamIx) (w : Body) (s : State) : Res :=
  s.instr p i 5 w (fun s => s.runSynca p.val i.val w.toNat)

/-- R191: CPOST writes a garden word once every earlier instruction of its stream has finished. -/
def execCpost (p : PavIx) (i : StreamIx) (w : Body) (s : State) : Res :=
  s.instr p i 6 w (fun s => s.runCpost p.val i.val w.toNat)

/-- R191, R193: FENCE holds its stream until everything issued before it has finished. -/
def execFence (p : PavIx) (i : StreamIx) (w : Body) (s : State) : Res :=
  s.instr p i 7 w (fun s => s.runFence p.val i.val w.toNat)

/-- R196: MARKP notes its stream's mark point; the stream goes on. -/
def execMarkp (p : PavIx) (i : StreamIx) (w : Body) (s : State) : Res :=
  s.instr p i 8 w (fun s => s.runMarkp p.val i.val w.toNat)

/-! ### The matrix engine (R66–R75, R91, R106, R124) -/

/-- R68: sets the square pitches of the issuing stream. -/
def execMgeom (p : PavIx) (i : StreamIx) (w : Body) (s : State) : Res :=
  s.instr p i 0x38 w (fun s => s.runMgeom p.val i.val w.toNat)

/-- R71: writes an output context and resets its pruning mode to off. -/
def execMoset (p : PavIx) (i : StreamIx) (w : Body) (s : State) : Res :=
  s.instr p i 0x30 w (fun s => s.runMoset p.val i.val w.toNat)

/-- R108: attaches a pruning setting to an output context. -/
def execMpset (p : PavIx) (i : StreamIx) (w : Body) (s : State) : Res :=
  s.instr p i 0x34 w (fun s => s.runMpset p.val i.val w.toNat)

/-- R124, R125: starts recording into a forecast record, or stops it and writes the record. -/
def execMfset (p : PavIx) (i : StreamIx) (w : Body) (s : State) : Res :=
  s.instr p i 0x3C w (fun s => s.runMfset p.val i.val w.toNat)

/-- R69: loads one weight tile into the idle bank; it stalls while an unswapped tile waits there (R70). -/
def execMload (p : PavIx) (i : StreamIx) (w : Body) (s : State) : Res :=
  s.instr p i 0x10 w (fun s => s.runMload p.val i.val w.toNat)

/-- R72: issues a weight-stationary tile pass; its rows follow as ROW_ISSUE. -/
def execMrun (p : PavIx) (i : StreamIx) (w : Body) (s : State) : Res :=
  s.instr p i 0x20 w (fun s => s.runMrun p.val i.val w.toNat)

/-- R74: issues output-stationary K-steps; they follow as ROW_ISSUE. -/
def execMacc (p : PavIx) (i : StreamIx) (w : Body) (s : State) : Res :=
  s.instr p i 0x28 w (fun s => s.runMacc p.val i.val w.toNat)

/-! ### The unpack path (R162, R172) -/

/-- R162: restores a stash of MX squares to BF16. -/
def execMunpk (p : PavIx) (i : StreamIx) (w : Body) (c : Chk) (s : State) : Res :=
  s.instr p i 0x18 w (fun s => s.runMunpk p.val i.val w.toNat c)

/-- R172: packs a BF16 tile into an MX tile with blocks along K. -/
def execMpack (p : PavIx) (i : StreamIx) (w : Body) (c : Chk) (s : State) : Res :=
  s.instr p i 0x1C w (fun s => s.runMpack p.val i.val w.toNat c)

/-! ### The vector engine (R141) -/

/-- VADD (R141): d := a + b. -/
def execVadd (p : PavIx) (i : StreamIx) (w : Body) (c : Chk) (s : State) : Res :=
  s.instr p i 0x40 w (fun s => s.runVadd p.val i.val w.toNat c)

/-- VSUB (R141): d := a − b. -/
def execVsub (p : PavIx) (i : StreamIx) (w : Body) (c : Chk) (s : State) : Res :=
  s.instr p i 0x41 w (fun s => s.runVsub p.val i.val w.toNat c)

/-- VMUL (R141): d := a · b. -/
def execVmul (p : PavIx) (i : StreamIx) (w : Body) (c : Chk) (s : State) : Res :=
  s.instr p i 0x42 w (fun s => s.runVmul p.val i.val w.toNat c)

/-- VFMA (R141): d := a · b + d, rounded once. -/
def execVfma (p : PavIx) (i : StreamIx) (w : Body) (c : Chk) (s : State) : Res :=
  s.instr p i 0x43 w (fun s => s.runVfma p.val i.val w.toNat c)

/-- VFMAI (R141): d := a · imm + b, rounded once. -/
def execVfmai (p : PavIx) (i : StreamIx) (w : Body) (c : Chk) (s : State) : Res :=
  s.instr p i 0x44 w (fun s => s.runVfmai p.val i.val w.toNat c)

/-- VADDI (R141): d := a + imm, or a − imm with ctl[0] = 1. -/
def execVaddi (p : PavIx) (i : StreamIx) (w : Body) (c : Chk) (s : State) : Res :=
  s.instr p i 0x45 w (fun s => s.runVaddi p.val i.val w.toNat c)

/-- VMULI (R141): d := a · imm. -/
def execVmuli (p : PavIx) (i : StreamIx) (w : Body) (c : Chk) (s : State) : Res :=
  s.instr p i 0x46 w (fun s => s.runVmuli p.val i.val w.toNat c)

/-- VMAX (R141): d := max(a, b). -/
def execVmax (p : PavIx) (i : StreamIx) (w : Body) (c : Chk) (s : State) : Res :=
  s.instr p i 0x47 w (fun s => s.runVmax p.val i.val w.toNat c)

/-- VMIN (R141): d := min(a, b). -/
def execVmin (p : PavIx) (i : StreamIx) (w : Body) (c : Chk) (s : State) : Res :=
  s.instr p i 0x48 w (fun s => s.runVmin p.val i.val w.toNat c)

/-- VABS (R141): clears the sign bit of each element. -/
def execVabs (p : PavIx) (i : StreamIx) (w : Body) (c : Chk) (s : State) : Res :=
  s.instr p i 0x49 w (fun s => s.runVabs p.val i.val w.toNat c)

/-- VNEG (R141): inverts the sign bit of each element. -/
def execVneg (p : PavIx) (i : StreamIx) (w : Body) (c : Chk) (s : State) : Res :=
  s.instr p i 0x4a w (fun s => s.runVneg p.val i.val w.toNat c)

/-- VBCAST (R141): d := imm. -/
def execVbcast (p : PavIx) (i : StreamIx) (w : Body) (c : Chk) (s : State) : Res :=
  s.instr p i 0x4b w (fun s => s.runVbcast p.val i.val w.toNat c)

/-- VIADD (R141): INT32 d := a + b, or a − b with ctl[0] = 1. -/
def execViadd (p : PavIx) (i : StreamIx) (w : Body) (c : Chk) (s : State) : Res :=
  s.instr p i 0x4c w (fun s => s.runViadd p.val i.val w.toNat c)

/-- VIMUL (R141): INT32 d := low 32 bits of a · b. -/
def execVimul (p : PavIx) (i : StreamIx) (w : Body) (c : Chk) (s : State) : Res :=
  s.instr p i 0x4d w (fun s => s.runVimul p.val i.val w.toNat c)

/-- VILOG (R141): INT32 AND, OR, XOR or AND NOT. -/
def execVilog (p : PavIx) (i : StreamIx) (w : Body) (c : Chk) (s : State) : Res :=
  s.instr p i 0x4e w (fun s => s.runVilog p.val i.val w.toNat c)

/-- VISHI (R141): INT32 shift by imm, left, logical right or arithmetic right. -/
def execVishi (p : PavIx) (i : StreamIx) (w : Body) (c : Chk) (s : State) : Res :=
  s.instr p i 0x4f w (fun s => s.runVishi p.val i.val w.toNat c)

/-- VCMP (R141): p[pr] := a ⋄ b. -/
def execVcmp (p : PavIx) (i : StreamIx) (w : Body) (c : Chk) (s : State) : Res :=
  s.instr p i 0x50 w (fun s => s.runVcmp p.val i.val w.toNat c)

/-- VCMPI (R141): p[pr] := a ⋄ imm. -/
def execVcmpi (p : PavIx) (i : StreamIx) (w : Body) (c : Chk) (s : State) : Res :=
  s.instr p i 0x51 w (fun s => s.runVcmpi p.val i.val w.toNat c)

/-- VICMP (R141): p[pr] := a ⋄ b on signed INT32. -/
def execVicmp (p : PavIx) (i : StreamIx) (w : Body) (c : Chk) (s : State) : Res :=
  s.instr p i 0x52 w (fun s => s.runVicmp p.val i.val w.toNat c)

/-- VSEL (R141): d := p[pr] ? a : b. -/
def execVsel (p : PavIx) (i : StreamIx) (w : Body) (c : Chk) (s : State) : Res :=
  s.instr p i 0x53 w (fun s => s.runVsel p.val i.val w.toNat c)

/-- VPST (R141): writes predicate bits; the bits of the last byte beyond count stay. -/
def execVpst (p : PavIx) (i : StreamIx) (w : Body) (c : Chk) (s : State) : Res :=
  s.instr p i 0x54 w (fun s => s.runVpst p.val i.val w.toNat c)

/-- VPLD (R141): loads p[pr]; bits from count up become 0. -/
def execVpld (p : PavIx) (i : StreamIx) (w : Body) (c : Chk) (s : State) : Res :=
  s.instr p i 0x55 w (fun s => s.runVpld p.val i.val w.toNat c)

/-- VPCNT (R141): writes the number of set bits among the first count of p[pr]. -/
def execVpcnt (p : PavIx) (i : StreamIx) (w : Body) (c : Chk) (s : State) : Res :=
  s.instr p i 0x56 w (fun s => s.runVpcnt p.val i.val w.toNat c)

/-- VCVT (R141): d := round(a · imm). -/
def execVcvt (p : PavIx) (i : StreamIx) (w : Body) (c : Chk) (s : State) : Res :=
  s.instr p i 0x58 w (fun s => s.runVcvt p.val i.val w.toNat c)

/-- VPKMX (R141): packs a into MX blocks (R42). -/
def execVpkmx (p : PavIx) (i : StreamIx) (w : Body) (c : Chk) (s : State) : Res :=
  s.instr p i 0x59 w (fun s => s.runVpkmx p.val i.val w.toNat c)

/-- VUPMX (R141): d := element · 2^(scale − 127). -/
def execVupmx (p : PavIx) (i : StreamIx) (w : Body) (c : Chk) (s : State) : Res :=
  s.instr p i 0x5a w (fun s => s.runVupmx p.val i.val w.toNat c)

/-- VSPLIT (R141): hi and lo parts in BF16 (R91). -/
def execVsplit (p : PavIx) (i : StreamIx) (w : Body) (c : Chk) (s : State) : Res :=
  s.instr p i 0x5b w (fun s => s.runVsplit p.val i.val w.toNat c)

/-- VI2F (R141): INT32 to dfmt. -/
def execVi2f (p : PavIx) (i : StreamIx) (w : Body) (c : Chk) (s : State) : Res :=
  s.instr p i 0x5c w (fun s => s.runVi2f p.val i.val w.toNat c)

/-- VF2I (R141): to INT32, saturating. -/
def execVf2i (p : PavIx) (i : StreamIx) (w : Body) (c : Chk) (s : State) : Res :=
  s.instr p i 0x5d w (fun s => s.runVf2i p.val i.val w.toNat c)

/-- VRCP (R141): d := 1 / a. -/
def execVrcp (p : PavIx) (i : StreamIx) (w : Body) (c : Chk) (s : State) : Res :=
  s.instr p i 0x60 w (fun s => s.runVrcp p.val i.val w.toNat c)

/-- VRSQRT (R141): d := 1 / √a. -/
def execVrsqrt (p : PavIx) (i : StreamIx) (w : Body) (c : Chk) (s : State) : Res :=
  s.instr p i 0x61 w (fun s => s.runVrsqrt p.val i.val w.toNat c)

/-- VEXP2 (R141): d := 2^(a · imm). -/
def execVexp2 (p : PavIx) (i : StreamIx) (w : Body) (c : Chk) (s : State) : Res :=
  s.instr p i 0x62 w (fun s => s.runVexp2 p.val i.val w.toNat c)

/-- VLOG2 (R141): d := log2 a. -/
def execVlog2 (p : PavIx) (i : StreamIx) (w : Body) (c : Chk) (s : State) : Res :=
  s.instr p i 0x63 w (fun s => s.runVlog2 p.val i.val w.toNat c)

/-- VTANH (R141): d := tanh a. -/
def execVtanh (p : PavIx) (i : StreamIx) (w : Body) (c : Chk) (s : State) : Res :=
  s.instr p i 0x64 w (fun s => s.runVtanh p.val i.val w.toNat c)

/-- VSIGM (R141): d := 1 / (1 + e^−a). -/
def execVsigm (p : PavIx) (i : StreamIx) (w : Body) (c : Chk) (s : State) : Res :=
  s.instr p i 0x65 w (fun s => s.runVsigm p.val i.val w.toNat c)

/-- VRED (R141): reduces each segment of imm elements (R143). -/
def execVred (p : PavIx) (i : StreamIx) (w : Body) (c : Chk) (s : State) : Res :=
  s.instr p i 0x68 w (fun s => s.runVred p.val i.val w.toNat c)

/-- VSCAN (R141): inclusive prefixes of each segment of imm elements (R143). -/
def execVscan (p : PavIx) (i : StreamIx) (w : Body) (c : Chk) (s : State) : Res :=
  s.instr p i 0x69 w (fun s => s.runVscan p.val i.val w.toNat c)

/-- VGATH (R141): d[i] := T[a[i]]; an index outside the table is an index fault (R144). -/
def execVgath (p : PavIx) (i : StreamIx) (w : Body) (c : Chk) (s : State) : Res :=
  s.instr p i 0x70 w (fun s => s.runVgath p.val i.val w.toNat c)

/-- VFLAGS (R141): writes the sticky flag word and the last snapshot, and clears the word with ctl[0] = 1 (R146). -/
def execVflags (p : PavIx) (i : StreamIx) (w : Body) (c : Chk) (s : State) : Res :=
  s.instr p i 0x78 w (fun s => s.runVflags p.val i.val w.toNat c)

/-! ### The DMA engine (R198, R260, R261) -/

/-- R198: issues a DCOPY, which takes a place; its end follows as DCOPY_FINISH. -/
def execDcopy (p : PavIx) (i : StreamIx) (w : Body) (s : State) : Res :=
  s.instr p i 0x80 w (fun s => s.runDcopy p i.val w.toNat)

/-- R260: sends items or tokens on a bound out port. -/
def execPsend (p : PavIx) (i : StreamIx) (w : Body) (s : State) : Res :=
  s.instr p i 0x81 w (fun s => s.runPsend p.val i.val w.toNat)

/-- R261: lands items or tokens from a bound in port; they follow as PRECV_ITEM. -/
def execPrecv (p : PavIx) (i : StreamIx) (w : Body) (s : State) : Res :=
  s.instr p i 0x82 w (fun s => s.runPrecv p.val i.val w.toNat)

end Sys2Proof.Machine
end

