-- ==== Sys2Proof/Machine/Marks.lean ====
section
/-! DEFINITION. Marks and digests (R171, R196, R276, R395, R414, R430–R435, R449, R450). -/

namespace Sys2Proof.Machine

/-! ### Taking a mark (R196, R431) -/

/-- The runs of set bits of a dirty map, as first bit and the bit after the last. -/
def bitRuns (m : BitVec 64) : List (Nat × Nat) :=
  (List.range 64).filterMap (fun i =>
    if m.getLsbD i && (i == 0 || !m.getLsbD (i - 1)) then
      some (i, ((List.range 65).find? (fun j => decide (i < j) && !m.getLsbD j)).getD 64)
    else none)

/-- Folds the cells' dirty maps into the taint record, one entry for each run of set bits (R431). -/
def Seq.foldDirty (q : Seq) (dirty : Tab (BitVec 64)) : Seq :=
  { q with taint := dirty.foldl (fun l e => (bitRuns e.2).foldl (fun l r =>
      taintRoom (addTaint l { space := 0, state := 0, rew := true, interval := q.interval
                              base := 4096 * e.1 + 64 * r.1, limit := 4096 * e.1 + 64 * r.2, unit := 5, stream := 0
                              dw := 0, d1 := 0 })) l) q.taint }

/-- A stream's mark points without those up to its point of a tag. -/
def dropPoint (tag : Word) : List MarkPoint → List MarkPoint
  | [] => []
  | m :: t => if m.tag = tag then t else dropPoint tag t

/-- The record of a mark, as the pavilion stands when it is taken (R171, R196, R246); its counters are recorded when everything
before its MARKPs has finished (log 106). -/
def markRec (x : Pav) (sec : Nat) (tag : Word) : MarkRec :=
  let q := x.seq
  { number := q.interval, tag := tag, points := q.live.filterMap (fun t => t.markPts.find? (fun m => m.tag == tag)), cad := q.cad
    tagged := q.tagged, due := q.due, own := false, cadEntry := q.cadEntry, ctrs := q.ctrs, tags := x.tags, sec := sec }

/-- The entries of an interval that a mark ends are closed, their first digest pending (R430). -/
def closeTaint (l : List Taint) (interval : Nat) : List Taint :=
  l.map (fun t => if t.interval ≤ interval ∧ t.state = 0 then { t with state := 1 } else t)

/-- Takes the mark of a tag. -/
def State.takeMark (s : State) (p : Nat) (tag : Word) : State :=
  let sec := match s.allotOfPav p with
    | some a => (s.allot a).sectionPos
    | none => 0
  s.modPav p (fun x =>
    let r := markRec x sec tag
    let q := x.seq.foldDirty x.dirty
    { x with
      dirty := []
      seq := { q with
        taint := closeTaint q.taint x.seq.interval
        taken := q.taken ++ [r], interval := q.interval + 1, cadBoundary := false
        streams := q.streams.map (fun t => { t with markPts := dropPoint tag t.markPts }) } })

/-- R196: the mark is taken at a cadence entry boundary, or at once in a program with one stream. -/
def execMarkTaken (p : PavIx) (s : State) : Res :=
  let q := (s.pav p.val).seq
  match q.markDue with
  | some tag => onlyIf (q.running && !q.stopped && !q.frozen && (q.nstr == 1 || q.cadBoundary || q.cadEnded)) s
      (s.takeMark p.val tag)
  | none => .next s

/-! ### Verifying it (R196, R276, R395, R434) -/

/-- Everything that each stream issued before its mark point has finished. -/
def Pav.markFinished (x : Pav) (r : MarkRec) : Bool :=
  ((List.range r.points.length).zip r.points).all (fun e => x.finishedOf e.1 e.2.issue)

/-- Pavilions whose sections' marks must agree: those that run, and those that still hold a mark. -/
def State.markers (s : State) (a : Nat) : List Nat :=
  ((s.runners a).map (·.2)).filter (fun p => (s.pav p).seq.running || !(s.pav p).seq.taken.isEmpty)

/-- A section with circuits: some pavilion of it has a bound port. -/
def State.hasCircuits (s : State) (a : Nat) : Bool :=
  (s.runners a).any (fun e => !(s.pav (s.portsOf e.2)).outBind.isEmpty || !(s.pav (s.portsOf e.2)).inBind.isEmpty)

/-- Entries and keep copies of intervals that the older of the last two verified marks closes are dropped (R432, R450). -/
def Seq.dropOld (q : Seq) : Seq :=
  match q.verified[1]? with
  | none => q
  | some r => { q with taint := q.taint.filter (fun t => decide (r.number < t.interval)),
                       keep := q.keep.filter (fun k => decide (r.number < k.interval)) }

/-- The mark becomes verified in one pavilion; one without a mark of its own stands at it as it is. -/
def Pav.commitMark (x : Pav) (tag : Word) (sec n : Nat) (more : List Taint) : Pav :=
  let q := x.seq
  let r := match q.taken with
    | r :: _ => r
    | [] => { markRec x sec tag with number := n, points := [] }
  let q := ({ q with
    taken := q.taken.drop 1, verified := (r :: q.verified).take 2, interval := max q.interval (n + 1) } : Seq).dropOld
  { x with seq := q.openDigests more }

/-- The mark of a section is verified: its pavilions record it, its job counts it, and a tag with bit 31 pushes the export
windows (R395, R414, R432, R453). A replay that comes to the mark again does not count it again. -/
def State.commitMarks (s : State) (a : Nat) (tag : Word) (n : Nat) : State :=
  let ps := (s.runners a).map (·.2)
  let sec := (s.allot a).sectionPos
  let hbm := closeTaint (s.allot a).taint n
  let s := s.each ps (fun s p => s.modPav p (fun x => x.commitMark tag sec n (if ps.head? == some p then hbm else [])))
  let old := (ps.head?.bind (fun p => (s.pav p).seq.verified[1]?)).map (·.number)
  let s := s.modAllot a (fun x =>
    let x := { x with replayRow := 0, tried := [], taint := closeTaint x.taint n }
    match old with
    | some m => { x with taint := x.taint.filter (fun t => decide (m < t.interval)),
                         keep := x.keep.filter (fun k => decide (m < k.interval)) }
    | none => x)
  let fetched := (s.allot a).fetchCount
  let s := s.modLaunch a (fun j => { j with
    points := (fetched :: j.points).take 2
    marks := max j.marks n
    tags := if j.marks < n then ((tag, n) :: j.tags).take 16 else j.tags })
  let s := if tag.getLsbD 31 then s.pushExports a else s
  s.wake a

/-- The section's marks agree, and its circuits are empty (R276). -/
def State.settleMarks (s : State) (a : Nat) : State :=
  let ps := s.markers a
  match ps.head?.bind (fun p => (s.pav p).seq.taken.head?) with
  | none => s
  | some r =>
    let agree := ps.all (fun p => match (s.pav p).seq.taken with
      | m :: _ => m.own && m.tag == r.tag
      | [] => false)
    let empty := !s.hasCircuits a || (s.plotsOf a).all (fun plot => s.leftBeats plot == 0)
    if agree && empty then s.commitMarks a r.tag r.number else s

/-- A mark's own pavilion has finished everything before it: the 16 counters are recorded as they stand (R196). -/
def MarkRec.closed (r : MarkRec) (ctrs : List Word) : MarkRec := if r.own then r else { r with own := true, ctrs := ctrs }

/-- R196, R434: a pavilion's oldest mark has finished, and with it perhaps the section's. -/
def execMarkVerified (p : PavIx) (s : State) : Res :=
  let x := s.pav p.val
  match x.seq.taken, s.allotOfPav p.val with
  | r :: t, some a =>
    if x.seq.frozen || x.seq.stopped || x.seq.d1Pending || x.seq.d2Pending || !x.markFinished r then .next s
    else .next ((s.modSeq p.val (fun q => { q with taken := r.closed q.ctrs :: t })).settleMarks a)
  | _, _ => .next s

/-! ### Digests (R433–R435) -/

/-- A later interval has written a row of an entry, or a core has since the last mark (log 72). -/
def Seq.overlaid (q : Seq) (dirty : Tab (BitVec 64)) (t : Taint) : Bool :=
  q.taint.any (fun u => u.space == t.space && decide (t.interval < u.interval ∧ u.base < t.limit ∧ t.base < u.limit)) ||
  (t.space == 0 && dirty.any (fun e => (bitRuns e.2).any (fun r =>
    decide (4096 * e.1 + 64 * r.1 < t.limit ∧ t.base < 4096 * e.1 + 64 * r.2))))

/-- The digest of rows as their correctors deliver them (R433). -/
def rangeDigest (base : Nat) (rows : List (List Byte × Bool)) : BitVec 64 :=
  BitVec.ofNat 64 (sumBy ((List.range rows.length).zip rows) (fun e => rowDigest (base + e.1) e.2.1))

/-- Reads the rows of an entry back. -/
def State.taintRows (s : State) (p : Nat) (t : Taint) : List (List Byte × Bool) × State :=
  if t.space = 2 then s.linesRead t.base (t.limit - t.base) else s.rowsRead p (t.space == 1) t.base (t.limit - t.base)

/-- An entry with its first digest, or superseded when a later write has overlaid it. -/
def Taint.digested (t : Taint) (superseded : Bool) (d : BitVec 64) : Taint :=
  if superseded then { t with state := 3 } else { t with state := 2, d1 := d }

/-- A comparison fails: dw against d1 in 51 bits, or d1 against d2. -/
def Taint.mismatch (t : Taint) (c : DigestCmp) (d : BitVec 64) : Bool :=
  match c with
  | .d1 => !t.rew && t.dw != d.setWidth 51
  | .d2 => t.state == 2 && t.d1 != d

/-- A digest fault (R434): a record, the range poisoned, and replay from the older mark. -/
def State.digestFault (s : State) (p : Nat) (t : Taint) (c : DigestCmp) : State :=
  let cls := if t.space = 2 then 11 else if t.space = 1 then 5 else 6
  let base := { s.pavRec p 0x09 1 cls (match c with
    | .d1 => 0
    | .d2 => 1) with address := BitVec.ofNat 64 t.base }
  let s := s.record (if t.space = 2 then { base with subunit := BitVec.ofNat 16 (hbmHash (64 * t.base)).1 } else base)
  let rows := (List.range (t.limit - t.base)).map (· + t.base)
  let s := s.each rows (fun s r =>
    if t.space = 2 then { s with hbm := s.hbm.poisonRow r } else s.poisonLocal p (t.space == 1, r))
  s.recoverPav p .digestFault

/-- Compares one entry: the entry as it is then, and the first mismatch kept. -/
def State.compareEntry (s : State) (p : Nat) (c : DigestCmp) (dirty : Tab (BitVec 64)) (q : Seq)
    (m : List Taint × Option Taint) (t : Taint) : (List Taint × Option Taint) × State :=
  if q.overlaid dirty t then ((m.1 ++ [t.digested true 0], m.2), s)
  else
    let r := s.taintRows p t
    let d := rangeDigest t.base r.1
    let bad := t.mismatch c d
    let u := match c with
      | .d1 => t.digested false d
      | .d2 => t
    ((m.1 ++ [u], if bad then m.2.or (some t) else m.2), r.2)

/-- Compares the entries of an interval in a taint record. -/
def State.compareAll (s : State) (p : Nat) (c : DigestCmp) (dirty : Tab (BitVec 64)) (q : Seq) (n : Nat) :
    (List Taint × Option Taint) × State :=
  q.taint.foldl (fun (m : (List Taint × Option Taint) × State) t =>
    if t.interval = n ∧ t.state ≠ 3 then m.2.compareEntry p c dirty q m.1 t else ((m.1.1 ++ [t], m.1.2), m.2)) (([], none), s)

/-- Reads back the interval of the last verified mark: the pavilion's entries and, with the section's first pavilion, the
allotment's (log 71). -/
def State.readBack (s : State) (p a : Nat) (c : DigestCmp) (n : Nat) : State :=
  let x := s.pav p
  let r := s.compareAll p c x.dirty x.seq n
  let s := r.2.modSeq p (fun q => { q with taint := r.1.1 })
  let lead := ((s.runners a).map (·.2)).head? == some p
  let h := if lead then s.compareAll p c [] { x.seq with taint := (s.allot a).taint } n else (((s.allot a).taint, none), s)
  let s := h.2.modAllot a (fun y => { y with taint := h.1.1 })
  let s := s.modSeq p (fun q => match c with
    | .d1 => { q with d1Pending := false }
    | .d2 => { q with d2Pending := false })
  match r.1.2.or h.1.2 with
  | some t => s.digestFault p t c
  | none => s

/-- R433, R434: the read-back of an interval for its first digest after its mark's verification, or for its second while the
next mark is verified. -/
def execDigestReadback (p : PavIx) (c : DigestCmp) (s : State) : Res :=
  let q := (s.pav p.val).seq
  match q.verified.head?, s.allotOfPav p.val with
  | some r, some a =>
    let now := match c with
      | .d1 => q.d1Pending
      | .d2 => !q.d1Pending && q.d2Pending && !q.taken.isEmpty
    onlyIf (now && !q.frozen && !q.stopped) s (s.readBack p.val a c r.number)
  | _, _ => .next s

end Sys2Proof.Machine
end

