-- ==== Sys2Proof/Machine/Promenade.lean ====
section
/-! DEFINITION. The Promenade (R130–R133, R251–R279): beats at a switch, steering and merge units, and the ends of sections. -/

namespace Sys2Proof

open Machine

/-- Data beats that follow the header of a merge item (R130). -/
def Beat.mBeats (b : Beat) : Nat := bits b.data.toNat 447 441

end Sys2Proof

namespace Sys2Proof.Machine

/-! ### Circuits (R254–R260) -/

/-- The output port, and the cid there, of the circuit that a source and cid feed (R256, R257). -/
def PromSet.circuit (x : PromSet) (src cid : Nat) : Option (Nat × Nat) :=
  (x.slots.find? (fun e => e.2.getLsbD 31 && bits e.2.toNat 30 22 == src && bits e.2.toNat 21 16 == cid)).map
    (fun e => (e.1 / 64, bits e.2.toNat 15 10))

/-- The plot beyond an edge channel and the source at which its beats arrive there (R254, R255); none on the wafer's rim. -/
def edgeNext (plot port : Nat) : Option (Nat × Nat) :=
  (edgeTo plot (port / 64)).map (fun q => (q, 64 * ((port / 64 + 2) % 4) + port % 64))

/-- The key of a source's waiting beats: outputs of units carry cid 0 (log 60). -/
def beatKey (src : Nat) (b : Beat) : Nat := 64 * src + (if 320 ≤ src then 0 else b.cid)

/-- The beats of a unit's output that its circuit can still take (R259; log 60). -/
def State.outRoom (s : State) (plot src : Nat) : Nat := s.beatRoom plot (64 * src)

/-- Takes the first waiting beat of a source. -/
def State.popBeat (s : State) (plot key : Nat) : State :=
  s.modPlot plot (fun x => { x with circuits := tmod [] x.circuits key (List.drop 1) })

/-- A hop that cannot be taken goes on over a tunnel (R460). -/
def State.noteTunnel (s : State) (a plot port : Nat) : State :=
  s.modAllot a (fun x => if x.tunnels.contains (Tunnel.mk plot port) then x
    else { x with tunnels := x.tunnels ++ [Tunnel.mk plot port] })

/-- The allotment of a plot, when its sections run and its switch sends: not frozen (R277), with its H domain on (R278). -/
def State.switchOf (s : State) (plot : Nat) : Option Nat :=
  match s.ownerOf plot with
  | some a => if (s.plot plot).h.on && (s.allot a).frozen.isNone then some a else none
  | none => none

/-- The pavilion that works at the ports of index `home` now (R457, R462). -/
def State.portWorker (s : State) (a home : Nat) : Nat := (s.allot a).mapped home

/-- A beat leaves over an edge channel, against a credit of its circuit at the next hop (R259). -/
def State.beatToEdge (s : State) (a plot key port cid : Nat) (b : Beat) : Option State :=
  match edgeNext plot port with
  | none => none
  | some (q, src) =>
    let k := 64 * src + cid
    if s.ownerOf q == some a && (s.plot q).h.on && s.beatRoom q k != 0 then
      let s := (s.popBeat plot key).putBeats q src cid [b.withCid cid]
      some (if (s.plot plot).promWithdrawn.getLsbD port then s.noteTunnel a plot port else s)
    else none

/-- A beat reaches an in port of a pavilion: 32 buffers, or the PRECV that runs there (R259, R262); a pavilion that is switched
out or off takes none (R278, R464). -/
def State.beatToPav (s : State) (a plot key port : Nat) (b : Beat) : Option State :=
  let home := 4 * plot + (port - 256) / 16
  let c := (port - 256) % 16
  let w := s.portWorker a home
  if !s.switchedOut home && (s.plot (plotOf w)).e.on &&
      (decide ((tget [] (s.pav home).inBuf c).length < 32) || ((s.pav w).seq.onPort .precv c).isSome) then
    let s := (s.popBeat plot key).modPav home (fun v => { v with inBuf := tmod [] v.inBuf c (· ++ [b]) })
    some (if w = home then s else s.noteTunnel a plot port)
  else none

/-! ### Steering units (R263–R272) -/

/-- A steering unit as a section begins (R264). -/
def Steer.start : Steer :=
  { r := none, next := List.replicate 3 none, bufs := List.replicate 3 [], since := 0, stream := [], stall := none }

def Plot.steer (x : Plot) (u : Nat) : Steer := tget Steer.start x.steers u
def Plot.setSteer (x : Plot) (u : Nat) (t : Steer) : Plot := { x with steers := tset x.steers u t }

/-- The mode of a unit: 0 off, 1 SELECT, 2 STEER (R263). -/
def Plot.steerMode (x : Plot) (u : Nat) : Nat := bits (tget 0 x.prom.steer u).toNat 31 30

def Steer.buf (x : Steer) (i : Nat) : List Beat := lget [] x.bufs i

/-- What a unit does with an offered beat: it waits upstream, it raises a skew fault on (input, expected tag, offered tag), or the
unit takes it. -/
inductive Offered (α : Type) where
  | held (x : α)
  | fault (input expected offered : Nat)
  | took (x : α)
  deriving DecidableEq, Repr

/-- The first tags of the inputs: once every used input has admitted an item, they must agree (R264). -/
def Steer.unify (x : Steer) (used : List Nat) : Offered Steer :=
  if x.r.isSome || used.any (fun i => (x.buf i).isEmpty) then .took x
  else
    let tag := fun i => ((x.buf i).head?.map Beat.tag).getD 0
    let first := tag (used.headD 0)
    match used.find? (fun i => tag i ≠ first) with
    | some i => .fault i first (tag i)
    | none => .took { x with r := some (BitVec.ofNat 16 first) }

/-- R264, R270: an input of a steering unit is offered a beat. -/
def Steer.offer (x : Steer) (used : List Nat) (i : Nat) (b : Beat) (ns : Nat) : Offered Steer :=
  let buf := x.buf i
  let put : Steer := { x with bufs := x.bufs.set i (buf ++ [b]) }
  let begins := match buf.getLast? with
    | some l => l.last
    | none => !x.stream.any (fun e => e.1 == i)
  if begins then
    let due := (lget none x.next i).map BitVec.toNat
    if due.any (fun n => n ≠ b.tag) then .fault i (due.getD 0) b.tag
    else
      let base := (x.r.map BitVec.toNat).getD ((buf.head?.map Beat.tag).getD b.tag)
      if (65536 + b.tag - base) % 65536 ≤ 7 ∧ buf.length < 32 then
        let y := { put with
          next := x.next.set i (some (BitVec.ofNat 16 (b.tag + 1)))
          since := if x.bufs.all List.isEmpty then ns else x.since }
        y.unify used
      else .held { x with next := x.next.set i (some (BitVec.ofNat 16 b.tag)) }
  else if buf.length < 32 then .took put else .held x

/-- The skew-stall count of a join while an input holds an item back and another has nothing (R271). `empty` tells whether some
used input is empty; the answer is the new start, and the F-cycles to count. -/
def stallStep (stall : Option Nat) (held empty : Bool) (ns : Nat) : Option Nat × Nat :=
  match stall with
  | some t => if empty then (some t, 0) else (none, stallCycles t ns)
  | none => (if held && empty then some ns else none, 0)

def Steer.anyEmpty (x : Steer) (used : List Nat) : Bool := used.any (fun i => (x.buf i).isEmpty)

/-- Sends what a unit has put out, as (output, beat). -/
def State.sendUnit (s : State) (plot src : Nat) (l : List (Nat × Beat)) : State :=
  s.each l (fun s e => s.putBeats plot (src + e.1) 0 [e.2.withCid 0])

/-- The beats of the first item of a buffer that have come, the rest, and whether the item is complete. -/
def splitItem : List Beat → List Beat × List Beat × Bool
  | [] => ([], [], false)
  | b :: t => if b.last then ([b], t, true) else
    let r := splitItem t
    (b :: r.1, r.2.1, r.2.2)

/-- The rest of a resolved item goes on, as far as it has come and its outputs have room, or is discarded (R270). -/
def Steer.flowOne (x : Steer) (e : Nat × List Nat × Bool) (room : Nat → Nat) : Steer × List (Nat × Beat) :=
  let buf := x.buf e.1
  let n := e.2.1.foldl (fun n o => min n (room o)) buf.length
  let p := splitItem (buf.take n)
  ({ x with
      bufs := x.bufs.set e.1 (buf.drop p.1.length)
      stream := if p.2.2 then x.stream.erase e else x.stream },
    e.2.1.flatMap (fun o => p.1.map (fun b => (o, if e.2.2 then b.setPoison else b))))

/-- All resolved items of a unit go on. -/
def Steer.flow (x : Steer) (room : Nat → Nat) : Steer × List (Nat × Beat) :=
  x.stream.foldl (fun r e =>
    let q := r.1.flowOne e room
    (q.1, r.2 ++ q.2)) (x, [])

/-- A steering unit sends what it can. -/
def State.steerFlow (s : State) (plot u : Nat) : State :=
  let f := ((s.plot plot).steer u).flow (fun o => s.outRoom plot (320 + 2 * u + o))
  (s.modPlot plot (fun y => y.setSteer u f.1)).sendUnit plot (320 + 2 * u) f.2

/-- A beat is offered to a steering unit. -/
def State.beatToSteer (s : State) (plot key port : Nat) (b : Beat) : State :=
  let u := (port - 320) / 3
  let used := steerInputs ((s.plot plot).steerMode u)
  let i := (port - 320) % 3
  let set := fun (s : State) (x : Steer) (held : Bool) => s.modPlot plot (fun y =>
    let st := stallStep x.stall held (x.anyEmpty used) s.ns
    (y.setSteer u { x with stall := st.1 }).countStall u st.2)
  if !used.contains i then s
  else match ((s.plot plot).steer u).offer used i b s.ns with
    | .held x => set s x true
    | .fault i e o => (s.popBeat plot key).skewFault plot (320 + 3 * u + i) e o
    | .took x => (set (s.popBeat plot key) x false).steerFlow plot u

/-- What *Steering outcomes* gives for a tag: where each input's item goes, and the beats that the unit sends of its own, or a
skew fault at an input. -/
inductive Outcome2 where
  | fault (input : Nat)
  | go (items : List (Nat × List Nat × Bool)) (own : List (Nat × Nat))
  deriving DecidableEq, Repr

/-- R265, SELECT: the kinds of the items of a, b and the predicate, its token and poison. -/
def selectOutcome (a b p : Nat) (v poison : Bool) : Outcome2 :=
  if a = kEND ∧ b = kEND ∧ p = kEND then .go [(0, [], false), (1, [], false), (2, [], false)] [(0, kEND)]
  else if a = kEND ∨ b = kEND ∨ p = kEND then .fault (if p = kEND then 2 else if a = kEND then 0 else 1)
  else if p = kSKIP then .go [(0, [], false), (1, [], false), (2, [], false)] [(0, kSKIP)]
  else if p = kTOKEN then
    if poison then .go [(0, [0], true), (1, [], false), (2, [], false)] []
    else if v then .go [(0, [0], false), (1, [], false), (2, [], false)] []
    else .go [(1, [0], false), (0, [], false), (2, [], false)] []
  else .fault 2

/-- R265, STEER: the outcome that the token selects is 0, 1, or another code to drop (log 88). -/
def steerOutcome (d p on poison : Nat) : Outcome2 :=
  if d = kEND ∧ p = kEND then .go [(0, [], false), (2, [], false)] [(0, kEND), (1, kEND)]
  else if d = kEND ∨ p = kEND then .fault (if p = kEND then 2 else 0)
  else if p = kDATA then .fault 2
  else if p = kSKIP ∨ d = kSKIP then .go [(0, [], false), (2, [], false)] [(0, kSKIP), (1, kSKIP)]
  else if poison = 1 then .go [(0, [0, 1], true), (2, [], false)] []
  else match on with
    | 0 => .go [(0, [0], false), (2, [], false)] [(1, kSKIP)]
    | 1 => .go [(0, [1], false), (2, [], false)] [(0, kSKIP)]
    | _ => .go [(0, [], false), (2, [], false)] [(0, kSKIP), (1, kSKIP)]

/-- The outcome of tag r at a unit, from the first beats at its inputs. -/
def Steer.outcome (x : Steer) (mode w : Nat) : Outcome2 :=
  let h := fun i => (x.buf i).headD { data := 0, side := 0 }
  let t := (h 2).data.getLsbD 0 != bit w 29
  if mode = 1 then selectOutcome (h 0).kind (h 1).kind (h 2).kind t (h 2).poison
  else steerOutcome (h 0).kind (h 2).kind (if t then bits w 28 27 else bits w 26 25) (if (h 2).poison then 1 else 0)

/-- R264, R265: a steering unit that holds the first beat of item r on every used input resolves r, once the item before it has left
and its outputs have room (R259). -/
def execSteeringResolve (p : PlotIx) (u : Fin 32) (s : State) : Res :=
  let x := (s.plot p.val).steer u.val
  let mode := (s.plot p.val).steerMode u.val
  let used := steerInputs mode
  match x.r with
  | none => .next s
  | some r =>
    let blocked := (steerOutputs mode).any (fun o => s.outRoom p.val (320 + 2 * u.val + o) == 0)
    if (s.switchOf p.val).isNone || used.isEmpty || x.anyEmpty used || !x.stream.isEmpty || blocked then .next s
    else match x.outcome mode (tget 0 (s.plot p.val).prom.steer u.val).toNat with
      | .fault i => .next (s.skewFault p.val (320 + 3 * u.val + i) r.toNat r.toNat)
      | .go items own =>
        let y := { x with stream := items, r := some (r + 1), since := s.ns }
        let s := s.modPlot p.val (fun z => z.setSteer u.val y)
        .next ((s.sendUnit p.val (320 + 2 * u.val) (own.map (fun e =>
          (e.1, mkBeat 0 0 r.toNat e.2 true false)))).steerFlow p.val u.val)

/-! ### Merge units (R130–R133, R273) -/

/-- A merge unit as a section begins. -/
def Merge.start : Merge :=
  { seq := none, next := [none, none], bufs := [[], []], lastIn := [none, none], flags := [0, 0], drop := [0, 0], since := 0
    stall := none, cur := none }

def Plot.mergeUnit (x : Plot) (m : Nat) : Merge := tget Merge.start x.merges m
def Plot.setMerge (x : Plot) (m : Nat) (t : Merge) : Plot := { x with merges := tset x.merges m t }

def Merge.buf (x : Merge) (i : Nat) : List Beat := lget [] x.bufs i

/-- Data beats still to come of the last item of a buffer that begins with k data beats. -/
def mergeTail : Nat → List Beat → Nat
  | k, [] => k
  | 0, h :: t => mergeTail h.mBeats t
  | k + 1, _ :: t => mergeTail k t

/-- Data beats of the item in progress that an input has still to give. -/
def Merge.left (x : Merge) (i : Nat) : Nat :=
  match x.cur with
  | some (ins, n, _) => if ins.contains i then n else 0
  | none => 0

/-- The flags that a discarded item leaves for the END of its stream: POISON and INDEX (R132). -/
def badFlags : BitVec 8 := 3

/-- A header beat with flags added. -/
def addMergeFlags (b : Beat) (f : BitVec 8) : Beat := { b with data := b.data ||| (f.setWidth 512 <<< 448) }

/-- The first seq of both inputs must agree (R264, R273). -/
def Merge.unify (x : Merge) : Offered Merge :=
  match x.seq, (x.buf 0).head?, (x.buf 1).head? with
  | none, some a, some b =>
    if a.mSeq = b.mSeq then .took { x with seq := some (BitVec.ofNat 16 a.mSeq) } else .fault 1 a.mSeq b.mSeq
  | _, _, _ => .took x

/-- R131, R132, R273: an input of a merge unit is offered a beat. A data item whose index is out of extent at a leaf's first unit,
or not above the one before it, and an item of a reserved kind (log 89), is discarded. -/
def Merge.offer (x : Merge) (set : MergeSet) (i : Nat) (b : Beat) (ns : Nat) : Offered Merge :=
  let buf := x.buf i
  let put := fun (y : Merge) (b : Beat) => { y with bufs := y.bufs.set i (buf ++ [b]) }
  if lget 0 x.drop i ≠ 0 then .took { x with drop := x.drop.set i (lget 0 x.drop i - 1) }
  else if mergeTail (x.left i) buf ≠ 0 then (if buf.length < 32 then .took (put x b) else .held x)
  else
    let due := (lget none x.next i).map BitVec.toNat
    if due.any (fun n => n ≠ b.mSeq) then .fault i (due.getD 0) b.mSeq
    else
      let base := (x.seq.map BitVec.toNat).getD ((buf.head?.map Beat.mSeq).getD b.mSeq)
      let goOn := { x with
        next := x.next.set i (some (BitVec.ofNat 16 b.mSeq))
        since := if x.bufs.all List.isEmpty && x.cur.isNone then ns else x.since }
      if (65536 + b.mSeq - base) % 65536 ≤ 7 ∧ buf.length < 32 then
        match b.mKind with
        | 1 =>
          let seen := { goOn with lastIn := goOn.lastIn.set i (some (BitVec.ofNat 32 b.mIndex)) }
          let order := ((lget none x.lastIn i).map (fun l => decide (b.mIndex ≤ l.toNat))).getD false
          if (set.leaf && decide (set.e ≤ b.mIndex)) || order then
            .took { seen with drop := seen.drop.set i b.mBeats, flags := seen.flags.set i badFlags }
          else (put seen b).unify
        | 2 => (put goOn b).unify
        | 3 =>
          (put { goOn with
            next := x.next.set i (some (BitVec.ofNat 16 (b.mSeq + 1)))
            lastIn := goOn.lastIn.set i none, flags := goOn.flags.set i 0 } (addMergeFlags b (lget 0 x.flags i))).unify
        | _ => .took { goOn with drop := goOn.drop.set i b.mBeats, flags := goOn.flags.set i badFlags }
      else .held goOn

def Merge.anyEmpty (x : Merge) : Bool := x.bufs.any List.isEmpty

/-- A beat is offered to a merge unit. -/
def State.beatToMerge (s : State) (plot key port : Nat) (b : Beat) : State :=
  let m := (port - 416) / 2
  let set := fun (s : State) (x : Merge) (held : Bool) => s.modPlot plot (fun y =>
    let st := stallStep x.stall held x.anyEmpty s.ns
    (y.setMerge m { x with stall := st.1 }).countStall (32 + m) st.2)
  match tget? (s.plot plot).prom.merge m with
  | none => s
  | some ms => match ((s.plot plot).mergeUnit m).offer ms ((port - 416) % 2) b s.ns with
    | .held x => set s x true
    | .fault i e o => (s.popBeat plot key).skewFault plot (416 + 2 * m + i) e o
    | .took x => set (s.popBeat plot key) x false

/-- A header beat that a merge unit sends (R130). -/
def mergeHeader (index seq kind flags beats : Nat) (last : Bool) : Beat :=
  mkBeat (2 ^ 480 * index + 2 ^ 464 * seq + 2 ^ 456 * kind + 2 ^ 448 * flags + 2 ^ 441 * beats) 0 seq kDATA last
    (flags.testBit 0)

/-- The sum of data beats, 8 double-word elements each, in input order (R56, R131). A merge unit has no flag word: the INVALID
of opposite infinities (R57) leaves the NaN and no other trace (DESIGN CHOICE, log 48). -/
def sumBeats (l : List Beat) : Nat :=
  match l with
  | [] => 0
  | b :: t => t.foldl (fun a c => sumBy (List.range 8) (fun j =>
      (dwAdd (bits a (64 * j + 63) (64 * j)) (bits c.data.toNat (64 * j + 63) (64 * j))).1 * 2 ^ (64 * j))) b.data.toNat

/-- Sends the data beats of the item in progress that every input of it has given, as far as there is room (R259, R273). -/
def Merge.stream (x : Merge) (room : Nat) : Merge × List Beat :=
  match x.cur with
  | none => (x, [])
  | some (ins, n, poison) =>
    let k := ins.foldl (fun k i => min k (x.buf i).length) (min n room)
    let at_ := fun j => ins.map (fun i => lget { data := 0, side := 0 } (x.buf i) j)
    let seq := (x.seq.map BitVec.toNat).getD 0
    ({ x with
        bufs := (List.range 2).map (fun i => if ins.contains i then (x.buf i).drop k else x.buf i)
        cur := if k = n then none else some (ins, n - k, poison) },
      (List.range k).map (fun j => mkBeat (sumBeats (at_ j)) 0 seq kDATA (decide (j + 1 = n))
        (poison || (at_ j).any Beat.poison)))

/-- The next output of R131 from the heads of both inputs: the unit, what it sends, and whether poison has entered a sum. -/
def Merge.emit (x : Merge) (a b : Beat) (ns room : Nat) : Merge × List Beat × Bool :=
  let seq := (x.seq.map BitVec.toNat).getD 0
  let heads := [(0, a), (1, b)]
  let pop := fun (y : Merge) (l : List Nat) => { y with
    bufs := (List.range 2).map (fun i => if l.contains i then (y.buf i).drop 1 else y.buf i), since := ns }
  if a.mKind = 3 ∧ b.mKind = 3 then
    ({ pop x [0, 1] with seq := some (BitVec.ofNat 16 (seq + 1)) }, [mergeHeader 0 seq 3 (a.mFlags ||| b.mFlags) 0 true], false)
  else
    let live := heads.filter (fun e => e.2.mKind ≠ 3)
    let h := live.foldl (fun m e => min m e.2.mIndex) (2 ^ 32)
    let data := live.filter (fun e => e.2.mKind = 1 ∧ e.2.mIndex = h)
    if data.isEmpty then
      (pop x ((live.filter (fun e => e.2.mIndex = h)).map (·.1)), [mergeHeader h seq 2 0 0 true], false)
    else
      let ins := data.map (·.1)
      let flags := data.foldl (fun f e => f ||| e.2.mFlags) 0
      let n := (data.headD (0, a)).2.mBeats
      let poison := flags.testBit 0 || data.any (fun e => e.2.poison)
      let y := { pop x ins with cur := if n = 0 then none else some (ins, n, poison) }
      let t := y.stream (room - 1)
      (t.1, mergeHeader h seq 1 (flags ||| if poison then 1 else 0) n (decide (n = 0)) :: t.2, poison && decide (1 < ins.length))

/-- Poisoned data has entered a sum of a merge unit: replay when none has been tried for it, then stop (R132, R437–R439). -/
def State.consumeMerge (s : State) (a plot m : Nat) : State :=
  if s.failFast a then s.recover a .poison
  else
    let key := (1000 + 16 * plot + m, 0)
    if !(s.allot a).tried.contains key then (s.modAllot a (fun x => { x with tried := key :: x.tried })).recover a .poison
    else
      let r := { s.plotRec plot 0x0E 2 9 6 with subunit := BitVec.ofNat 16 (384 + m) }
      (s.record r).stopJob a stPoisoned (s.recordNumber r)

/-- R131, R273: a merge unit with heads on both inputs sends the least item, as far as its beats have come; one in the middle of an
item sends the beats that have come since; either as far as its output has room (R259). `ok`: the unit and its duplicate agree on
what is sent; where they do not, a circuit fault stands in its place (R423). -/
def execMergeEmit (p : PlotIx) (m : Fin 16) (ok : Bool) (s : State) : Res :=
  let x := (s.plot p.val).mergeUnit m.val
  let put := fun (s : State) (y : Merge) (l : List Beat) =>
    (s.modPlot p.val (fun z => z.setMerge m.val y)).putBeats p.val (384 + m.val) 0 l
  let room := s.outRoom p.val (384 + m.val)
  match s.switchOf p.val, tget? (s.plot p.val).prom.merge m.val with
  | some al, some _ =>
    match x.cur with
    | some _ =>
      let r := x.stream room
      .next (if !ok && !r.2.isEmpty then s.circuitFault p.val 1 (384 + m.val) else put s r.1 r.2)
    | none =>
      if room = 0 then .next s else
      match (x.buf 0).head?, (x.buf 1).head? with
      | some a, some b =>
        let r := x.emit a b s.ns room
        if !ok && !r.2.1.isEmpty then .next (s.circuitFault p.val 1 (384 + m.val)) else
        let t := put s r.1 r.2.1
        .next (if r.2.2 then t.consumeMerge al p.val m.val else t)
      | _, _ => .next s
  | _, _ => .next s

/-! ### Beats at a switch (R253, R256, R259) -/

/-- A beat goes on along its circuit, or waits where it is. -/
def State.beatOn (s : State) (a plot src : Nat) (b : Beat) : State :=
  let key := beatKey src b
  match (s.plot plot).prom.circuit src (if 320 ≤ src then 0 else b.cid) with
  | none => s
  | some (port, cid) =>
    if port < 256 then (s.beatToEdge a plot key port cid b).getD s
    else if port < 320 then (s.beatToPav a plot key port (b.withCid cid)).getD s
    else if port < 416 then s.beatToSteer plot key port (b.withCid cid)
    else s.beatToMerge plot key port (b.withCid cid)

/-- A source whose first beat has left has a buffer free: the PSEND at that out port, or the steering unit, goes on (R259, R262). -/
def State.sourceGo (s : State) (a plot src : Nat) : State :=
  if 256 ≤ src ∧ src < 320 then
    let home := 4 * plot + (src - 256) / 16
    let w := s.portWorker a home
    if s.switchedOut home then s
    else s.each [0, 1, 2, 3] (fun s k => match (s.pav w).seq.place k with
      | some d => if d.kind == .psend && (pxferOf d.w.toNat).port == src % 16 then
          s.psendPump w k (pxferOf d.w.toNat).rounds else s
      | none => s)
  else if 320 ≤ src ∧ src < 384 then s.steerFlow plot ((src - 320) / 2)
  else s

/-- A beat has left a source when fewer wait there. -/
def State.beatGone (s t : State) (plot key : Nat) : Bool :=
  decide ((tget [] (t.plot plot).circuits key).length < (tget [] (s.plot plot).circuits key).length)

/-- R253, R256, R259: a beat arrives at a switch: the first that waits at its source for its circuit. It is corrected, or raises a
circuit fault, and goes on. -/
def execBeatArrival (p : PlotIx) (src : Fin 512) (b : Beat) (e : BeatErr) (s : State) : Res :=
  let key := beatKey src.val b
  match s.switchOf p.val, (tget [] (s.plot p.val).circuits key).head? with
  | some a, some h =>
    if h ≠ b then .next s
    else match e with
      | .uncorrectable => .next ((s.popBeat p.val key).circuitFault p.val 0 src.val)
      | .corrected =>
        let t := s.beatOn a p.val src.val b
        .next (if s.beatGone t p.val key then
          (t.modPlot p.val (fun x => { x with promCorrected := satInc x.promCorrected })).sourceGo a p.val src.val else t)
      | .clean =>
        let t := s.beatOn a p.val src.val b
        .next (if s.beatGone t p.val key then t.sourceGo a p.val src.val else t)
  | _, _ => .next s

/-! ### Skew timeout (R272) -/

/-- The skew timeout of a join in ns: of the run of a pavilion whose port feeds it or that it feeds, else as written
(R272, R355; log 96). -/
def State.skewNs (s : State) (plot port src ins outs : Nat) : Nat :=
  let l := match [0, 1, 2, 3].find? (fun q => (s.pav (4 * plot + q)).seq.running && (s.plot plot).prom.joins q port src ins outs) with
    | some q => s.limits (4 * plot + q)
    | none => s.lodge.limits
  fcycles (2 ^ l.skew.toNat)

/-- A join waits on a context that is switched out: one at a pavilion port that feeds it or that it feeds (R464). -/
def State.joinPaused (s : State) (plot port src ins outs : Nat) : Bool :=
  [0, 1, 2, 3].any (fun q => s.switchedOut (4 * plot + q) && (s.plot plot).prom.joins q port src ins outs)

/-- R272: a tag has stayed unresolved past the skew timeout while an input holds an item. Joins 0–31 are the steering units,
32–47 the merge units. -/
def execSkewTimeout (p : PlotIx) (join : Fin 48) (s : State) : Res :=
  let x := s.plot p.val
  if (s.switchOf p.val).isNone then .next s
  else if join.val < 32 then
    let u := join.val
    let t := x.steer u
    let used := steerInputs (x.steerMode u)
    onlyIf (used.any (fun i => !(t.buf i).isEmpty) && decide (t.since + s.skewNs p.val (320 + 3 * u) (320 + 2 * u) 3 2 ≤ s.ns) &&
        !s.joinPaused p.val (320 + 3 * u) (320 + 2 * u) 3 2) s
      (s.skewFault p.val (320 + 3 * u + (used.find? (fun i => (t.buf i).isEmpty)).getD 0) ((t.r.map BitVec.toNat).getD 0)
        ((t.r.map BitVec.toNat).getD 0))
  else
    let m := join.val - 32
    let t := x.mergeUnit m
    onlyIf (t.bufs.any (fun b => !b.isEmpty) && t.cur.isNone && decide (t.since + s.skewNs p.val (416 + 2 * m) (384 + m) 2 1 ≤ s.ns) &&
        !s.joinPaused p.val (416 + 2 * m) (384 + m) 2 1) s
      (s.skewFault p.val (416 + 2 * m + (if (t.buf 0).isEmpty then 0 else 1)) ((t.seq.map BitVec.toNat).getD 0)
        ((t.seq.map BitVec.toNat).getD 0))

/-! ### Sections (R274, R277) -/

/-- An allotment in direct attachment that no longer meets R312 goes over to spreading, with a record that names it
(combination note q; log 92). -/
def State.dropAttach (s : State) (a : Nat) : State :=
  if (s.allot a).attach == 1 && !s.directOk (s.allot a).plots then
    (s.modAllot a (fun x => { x with attach := 0 })).record { ErrRec.base with
      ty := 0x16, severity := 1, allotment := BitVec.ofNat 5 a }
  else s

/-- Settings that wait for a section boundary take effect (R312, R371). -/
def State.boundary (s : State) (a : Nat) : State :=
  let s := if (s.allot a).overlayPending.isSome then
      (s.takeOverlay a).each (s.plotsOf a) (fun s plot => s.modPlot plot (fun x => { x with promIdle := none }))
    else s
  (s.modAllot a (fun x => { x with attach := x.attachPending.getD x.attach, attachPending := none })).dropAttach a

/-- Tunnels whose hop the settings in force no longer use are given up (R460). -/
def State.dropTunnels (s : State) (a : Nat) : State :=
  s.modAllot a (fun x => { x with tunnels := x.tunnels.filter (fun t =>
    (s.plot t.plot).prom.slots.any (fun e => e.1 / 64 == t.port && e.2.getLsbD 31)) })

/-- Every run of the allotment's section has ended (R197, R274). -/
def State.sectionOver (s : State) (a : Nat) : Bool :=
  let x := s.allot a
  x.sectionActive && x.frozen.isNone && x.jobs.any (fun j => j.launch && j.ended.isNone) &&
  (s.runners a).all (fun e => !(s.pav e.2).seq.running && !(s.pav e.2).seq.due)

/-- R274, R392: a section ends; the next one starts, and with the last one the job has ended. -/
def execSectionEnd (a : AllotIx) (s : State) : Res :=
  if !s.sectionOver a.val then .next s
  else
    let s := (s.discardBeats a.val true).boundary a.val
    let next := (s.allot a.val).sectionPos + 1
    if next < (s.allot a.val).sections.length then .next ((s.enterSection a.val next).dropTunnels a.val)
    else .next ((s.modLaunch a.val (fun j => { j with ended := some 0 })).modAllot a.val (fun x => { x with
      sectionActive := false }))

/-- R277: a fault or a unit's death freezes the section for replay. -/
def execSectionFreeze (a : AllotIx) (c : FreezeCause) (s : State) : Res :=
  onlyIf ((s.allot a.val).sectionActive && (s.allot a.val).jobs.any (fun j => j.launch && j.ended.isNone)) s (s.recover a.val c)

end Sys2Proof.Machine
end

