-- ==== Sys2Proof/Machine/Ring.lean ====
section
/-! DEFINITION. The Holcel ring: relay, frames, services, events and time (R332–R344, R347). -/

namespace Sys2Proof.Machine

/-! ### Relay (R333, R334) -/

/-- R333: once both PHYs are up after Lodge boot, the relay opens. -/
def execRelayOpen (s : State) : Res :=
  let l := s.lodge
  onlyIf (l.booted && l.portA && l.portB && !l.watchdogFired && l.relay) s
    (((s.modLodge (fun l => { l with relay := false, watchdogFrom := s.ns })).emit (.relay false)).settleStep1)

/-- R334: the watchdog, which firmware last restarted at a time that the command tells, closes the relay until the Lodge is reset
when its period has passed (log 123). -/
def execWatchdogExpiry (restarted : Nat) (s : State) : Res :=
  let since := max restarted s.lodge.watchdogFrom
  onlyIf (!s.lodge.relay && decide (since + 1000000 * s.lodge.set.watchdog.toNat ≤ s.ns)) s ((s.modLodge (fun l => { l with relay := true, watchdogFired := true })).emit (.relay true))

/-! ### Frames (R338, R339, R347) -/

/-- The module's station number, none while it is unassigned (R337). -/
def Lodge.here (l : Lodge) : Option Nat := if l.set.station = 0x7E then none else some l.set.station.toNat

/-- The frame is the module's own; one of an unassigned station is known by its MAC address. -/
def Lodge.sent (l : Lodge) (f : HFrame) : Bool :=
  match l.here with
  | some n => f.src.toNat == n
  | none => f.src == 0x7E && (f.macSrc == Config.ringMac false || f.macSrc == Config.ringMac true)

/-- The last 256 (src, seq) pairs of each source (R339). -/
def noteSeen (l : List (BitVec 7 × BitVec 16)) (src : BitVec 7) (seq : BitVec 16) : List (BitVec 7 × BitVec 16) :=
  let mine := (l.filter (fun e => e.1 == src)).take 255
  (src, seq) :: mine ++ l.filter (fun e => e.1 != src)

/-- A frame f arrives: it is forwarded on the other port as g, and delivered when it is the first good copy for this module
with a right tag. A session that is over ends with it (R532). The answer tells whether it is delivered. An Ethernet frame that is no Holcel frame, or whose lengths are not R338's,
is neither (DESIGN CHOICE, log 122). -/
def State.arriveAs (s : State) (f g : HFrame) : Bool × State :=
  let l := s.lodge
  if l.relay || !l.booted || (f.fcsOk && !f.wf) then (false, s)
  else
    let mine := l.here == some f.dst.toNat
    let s := if !mine && !l.sent f && f.hops != 0 then s.emit (.ring (!f.onB) { g with hops := f.hops - 1 }) else s
    if !f.fcsOk then (false, s.modLodge (fun l => { l with framesBad := satInc l.framesBad }))
    else if f.version ≠ 1 ∨ (!mine && f.dst != 0x7F) ∨ l.sent f ∨ l.seen.contains (f.src, f.seq) then
      (false, s)
    else match l.sessions.find? (fun x => x.number == f.session && x.station == f.src && f.session != 0) with
      | some x =>
        if !x.live s.ns then
          (true, (s.endSession x.number).modLodge (fun l => { l with seen := noteSeen l.seen f.src f.seq }))
        else if f.tag ≠ f.mac x.ka then (false, s.modLodge (fun l => { l with tagsBad := satInc l.tagsBad }))
        else (true, s.modLodge (fun l => { l with
          seen := noteSeen l.seen f.src f.seq
          sessions := l.sessions.map (fun y =>
            if y.number = x.number then { y with framesIn := y.framesIn + 1, last := s.ns } else y) }))
      | none => (true, s.modLodge (fun l => { l with seen := noteSeen l.seen f.src f.seq }))

/-- A frame arrives and is forwarded as it is. -/
def State.arrive (s : State) (f : HFrame) : Bool × State := s.arriveAs f f

/-- A SYNC message (R344). -/
def isSync (f : HFrame) : Bool := f.service == 6 && !f.rsp && f.param == 0

/-- A SYNC as it is forwarded, with the station's residence time in ns added (R344). -/
def stayed (f : HFrame) (residence : Nat) : HFrame := { f with payload := natLE 8 (leNat f.payload + residence) }

/-- An unassigned module answers only reads of 0x1000–0x10FF (R337). -/
def State.silent (s : State) (f : HFrame) (write : Bool) : Bool :=
  s.lodge.set.station == 0x7E && (write || !decide (0x1000 ≤ f.index.toNat ∧ f.index.toNat ≤ 0x10FF))

/-! ### Expedited services (R340) -/

/-- An expedited read; an object longer than 8 bytes aborts with 0x0A02. -/
def State.expRead (s : State) (f : HFrame) : State :=
  if s.silent f false then s
  else
    let i := f.index.toNat
    let sub := f.sub.toNat
    let c := s.readCheck (ringFrom f) i sub
    let long := ((objAt i sub).map (fun o => decide (8 < o.size))).getD false ||
      decide (8 < (s.objValue (ringFrom f) i sub).length) || (i == 0x6000 && sub == 2)
    if c ≠ 0 then s.respond f c []
    else if long then s.respond f 0x0A02 []
    else
      let w := s.dictRead (ringFrom f) i sub
      w.2.2.respond f w.1 w.2.1

/-- An expedited write of 1–8 bytes. -/
def State.expWrite (s : State) (f : HFrame) : State :=
  if s.silent f true then s
  else
    let i := f.index.toNat
    let sub := f.sub.toNat
    let long := ((objAt i sub).map (fun o => decide (8 < o.size))).getD false
    let c := s.writeCheck (ringFrom f) i sub f.payload.length
    if c ≠ 0 ∧ c ≠ 0x0A02 then s.respond f c []
    else if long ∨ f.payload.isEmpty ∨ 8 < f.payload.length then s.respond f 0x0A02 []
    else
      let w := s.dictWrite (ringFrom f) i sub f.payload false
      w.2.respond f w.1 []

/-! ### Segmented transfers (R341) -/

def State.transfer (s : State) (f : HFrame) : Option Transfer :=
  s.lodge.transfers.find? (fun t => t.reader == .station f.src.toNat && t.index == f.index && t.sub == f.sub)

def State.dropTransfer (s : State) (reader : Reader) (index : BitVec 16) (sub : BitVec 8) : State :=
  s.modLodge (fun l => { l with
    transfers := l.transfers.filter (fun t => !(t.reader == reader && t.index == index && t.sub == sub)) })

/-- A station holds at most one transfer per object: a new one replaces it. -/
def State.putTransfer (s : State) (t : Transfer) : State :=
  (s.dropTransfer t.reader t.index t.sub).modLodge (fun l => { l with transfers := l.transfers ++ [t] })

def State.newTransfer (s : State) (f : HFrame) (write block : Bool) (total : Nat) (segs : Tab (List Byte)) : Transfer :=
  { reader := .station f.src.toNat, write := write, index := f.index, sub := f.sub, block := block, total := total,
    segments := segs, since := s.ns }

/-- The bytes of a transfer's segments, in order. -/
def Transfer.bytes (t : Transfer) : List Byte := (t.segments.map (·.2)).flatten

/-- Segment k of a read: the first takes the value; the last has fewer than 1,024 bytes. -/
def State.segRead (s : State) (f : HFrame) : State :=
  if s.silent f false then s
  else
    let k := f.param.toNat
    let give := fun (s : State) (d : List Byte) =>
      let seg := (d.drop (1024 * k)).take 1024
      let s := if seg.length < 1024 then s.dropTransfer (.station f.src.toNat) f.index f.sub else s
      s.respond f 0 seg
    if k = 0 then
      let w := s.dictRead (ringFrom f) f.index.toNat f.sub.toNat
      if w.1 ≠ 0 then w.2.2.respond f w.1 []
      else give (w.2.2.putTransfer (w.2.2.newTransfer f false false w.2.1.length [(0, w.2.1)])) w.2.1
    else match s.transfer f with
      | some t =>
        let c := s.readCheck (ringFrom f) f.index.toNat f.sub.toNat
        if c ≠ 0 then s.respond f c []
        else if t.write then s.respond f 0x0A04 [] else give (s.putTransfer { t with since := s.ns }) t.bytes
      | none => s.respond f 0x0A04 []

/-- The write takes effect at the last byte, all at once. -/
def State.endWrite (s : State) (f : HFrame) (d : List Byte) (block : Bool) : State :=
  let s := s.dropTransfer (.station f.src.toNat) f.index f.sub
  let w := s.dictWrite (ringFrom f) f.index.toNat f.sub.toNat d block
  w.2.respond f w.1 []

/-- Initiate (param 0xFFFF) or segment of a write, in order. -/
def State.segWrite (s : State) (f : HFrame) : State :=
  if s.silent f true then s
  else if f.param = 0xFFFF then
    let total := leNat f.payload
    let c := s.writeCheck (ringFrom f) f.index.toNat f.sub.toNat total
    if c ≠ 0 then s.respond f c []
    else if f.payload.length ≠ 4 then s.respond f 0x0A02 []
    else if blockOnly f.index.toNat f.sub.toNat then s.respond f 0x0A01 []
    else if total = 0 then s.endWrite f [] false
    else (s.putTransfer (s.newTransfer f true false total [])).respond f 0 []
  else match s.transfer f with
    | some t =>
      let k := f.param.toNat
      if !s.authentic f then s.respond f 0x0A07 []
      else if !t.write || t.block || decide (t.segments.length < k) then s.respond f 0x0A04 []
      else
        let t := { t with segments := tset t.segments k f.payload, since := s.ns }
        let d := t.bytes
        if t.total < d.length then (s.dropTransfer t.reader t.index t.sub).respond f 0x0A02 []
        else if d.length = t.total then s.endWrite f d false
        else (s.putTransfer t).respond f 0 []
    | none =>
      s.respond f (let c := s.writeCheck (ringFrom f) f.index.toNat f.sub.toNat f.payload.length
        if c = 0 ∨ c = 0x0A02 then 0x0A04 else c) []

/-! ### Block writes (R342) -/

/-- Early refusals of an image write (R365). -/
def State.blockRefused (s : State) (f : HFrame) (total : Nat) : Nat :=
  let i := f.index.toNat
  if 64 * 2 ^ 20 < total then 0x0A03
  else if 0x4000 < i ∧ i < 0x4040 then
    let n := i - 0x4000
    if !s.imageFits n total then 0x0A03 else if s.slotInUse n then 0x0A04 else if s.holdupLow then 0x0A05 else 0
  else 0

/-- Initiate (param 0) and end (param 1) of a block write. -/
def State.blockCtl (s : State) (f : HFrame) : State :=
  if s.silent f true then s
  else if f.param = 0 then
    let total := leNat f.payload
    let c := s.writeCheck (ringFrom f) f.index.toNat f.sub.toNat total
    let c := if c ≠ 0 then c else if f.payload.length ≠ 4 then 0x0A02 else s.blockRefused f total
    if c ≠ 0 then s.respond f c []
    else (s.putTransfer (s.newTransfer f true true total [])).respond f 0 []
  else match s.transfer f with
    | some t =>
      if !s.authentic f then s.respond f 0x0A07 []
      else if !t.block then s.respond f 0x0A04 []
      else
        let d := t.bytes
        if d.length = t.total ∧ shake256 d 32 = f.payload then s.endWrite f d true
        else (s.dropTransfer t.reader t.index t.sub).respond f 0x0A03 []
    | none => s.respond f (if !s.authentic f then 0x0A07 else 0x0A04) []

/-- The segments of a block that the module holds, as a U64. -/
def Transfer.blockMap (t : Transfer) (block : Nat) : Nat :=
  sumBy (List.range 64) (fun i => if (tget? t.segments (64 * block + i)).isSome then 2 ^ i else 0)

/-- A data segment; the module answers after each block, and when a re-sent segment completes one. -/
def State.blockData (s : State) (f : HFrame) : State :=
  match s.transfer f with
  | some t =>
    let k := f.param.toNat
    let n := (t.total + 1023) / 1024
    if !s.authentic f then s.respond f 0x0A07 []
    else if !t.block then s.respond f 0x0A04 []
    else if n ≤ k ∨ f.payload.length ≠ min 1024 (t.total - 1024 * k) then s.respond f 0x0A02 []
    else
      let t := { t with segments := tset t.segments k f.payload, since := s.ns }
      let s := s.putTransfer t
      let m := t.blockMap (k / 64)
      let whole := decide (popcount64 (BitVec.ofNat 64 m) = min 64 (n - 64 * (k / 64)))
      if k % 64 = 63 ∨ k + 1 = n ∨ whole then s.respond f 0 (natLE 8 m) else s
  | none => if s.silent f true then s else s.respond f (if !s.authentic f then 0x0A07 else 0x0A04) []

/-! ### Events (R343) -/

/-- An empty response with an event's seq from the station that events go to ends its wait. -/
def State.ackEvent (s : State) (f : HFrame) : State :=
  let dest := s.lodge.set.eventStation
  if f.rsp ∧ f.service = 5 ∧ f.payload.isEmpty ∧ (dest = 0x7F ∨ f.src.toNat = dest.toNat) then
    s.modLodge (fun l => { l with events := l.events.filter (fun e => e.seq != f.seq) })
  else s

/-! ### Time (R344) -/

/-- The link of a port. -/
def Lodge.link (l : Lodge) (onB : Bool) : RingLink := if onB then l.linkB else l.linkA

def Lodge.setLink (l : Lodge) (onB : Bool) (x : RingLink) : Lodge := if onB then { l with linkB := x } else { l with linkA := x }

/-- A SYNC of the followed master: the counter slews toward its time, and steps forward only at the first lock. Its time
holds the residence in the stations on the way; the delay is that of the link it came over. -/
def State.followSync (s : State) (f : HFrame) : State :=
  let l := s.lodge
  if f.param ≠ 0 ∨ f.src.toNat ≠ l.timeMaster.toNat then s
  else
    let t := leNat f.payload + (l.link f.onB).delay.toNat
    let back := l.everLocked && !l.timeLocked
    let s : State := if !l.everLocked ∧ s.ns < t then { s with ns := t } else s
    let s := s.modLodge (fun l => { l with
      slew := (t : Int) - (s.ns : Int), timeLocked := true, everLocked := true, lastSync := s.ns })
    if back then s.event 0x000B 1 0x1100 8 0x1F else s

/-- A DELAY_REQ is answered with the module's time. -/
def State.answerDelay (s : State) (f : HFrame) : State :=
  if f.param = 1 then s.sendRing (s.ringFrame true 6 f.src.toNat 0 2 f.seq 0 (natLE 8 s.ns)) else s

/-- A DELAY_RESP to the module's own request gives that link's delay: half of the round trip. -/
def State.takeDelay (s : State) (f : HFrame) : State :=
  s.each [false, true] (fun s b =>
    let x := s.lodge.link b
    match x.req with
    | some (q, t) => if f.seq = q then
        s.modLodge (fun l => l.setLink b { x with delay := BitVec.ofNat 64 ((s.ns - t) / 2), req := none }) else s
    | none => s)

/-! ### Assignment (R337, R347) -/

/-- A segmented write of 9 bytes to 0x1100:02 of all stations, without a session: an unassigned module with that serial takes the
number, stores it and answers; every other ignores it. -/
def State.assign (s : State) (f : HFrame) : State :=
  if f.dst = 0x7F ∧ f.index = 0x1100 ∧ f.sub = 2 ∧ f.session = 0 ∧ s.assigned f.payload then
    (s.setStation (leNat (f.payload.drop 8))).respond f 0 []
  else s

/-- R339, R347: an abort within a session ends the transfer that it names. -/
def State.abortFrame (s : State) (f : HFrame) : State :=
  if s.authentic f then s.dropTransfer (.station f.src.toNat) f.index f.sub else s.respond f 0x0A07 []

/-! ### Delivery -/

/-- What a delivered frame does, by its service. An unassigned module answers reads and its assignment, and no other request
(R337). -/
def State.serve (s : State) (f : HFrame) : State :=
  let mute := s.lodge.set.station == 0x7E
  match f.service.toNat, f.rsp with
  | 0, false => s.expRead f
  | 1, false => s.expWrite f
  | 2, false => s.segRead f
  | 3, false => if f.session = 0 ∧ f.index = 0x1100 ∧ f.sub = 2 then s.assign f else s.segWrite f
  | 4, false => s.blockData f
  | 5, true => s.ackEvent f
  | 6, false => if f.param = 0 then s.followSync f else if mute then s else s.answerDelay f
  | 6, true => s.takeDelay f
  | 7, false => if mute then s else s.stepFragment f
  | 8, false => if mute then s else s.abortFrame f
  | 9, false => s.blockCtl f
  | _, _ => s

/-- A frame arrives: forwarded, and served when delivered. -/
def State.ringIn (s : State) (f : HFrame) : State :=
  let w := s.arrive f
  if w.1 then w.2.serve f else w.2

/-- A frame of one service arrives; a command whose frame is of another is not that command, and does nothing. -/
def ringCmd (f : HFrame) (service : Nat) (rsp : Bool) (s : State) : Res :=
  onlyIf (f.service.toNat == service && f.rsp == rsp) s (s.ringIn f)

/-- A fragment of one session step arrives. -/
def sessionCmd (f : HFrame) (step : Nat) (s : State) : Res :=
  onlyIf (f.service.toNat == 7 && !f.rsp && bits f.param.toNat 15 8 == step) s (s.ringIn f)

/-! ### The commands -/

/-- R340: an expedited read arrives. -/
def execExpeditedRead (f : HFrame) (s : State) : Res := ringCmd f 0 false s

/-- R340: an expedited write arrives. -/
def execExpeditedWrite (f : HFrame) (s : State) : Res := ringCmd f 1 false s

/-- R341: a request for a segment arrives. -/
def execSegmentedRead (f : HFrame) (s : State) : Res := ringCmd f 2 false s

/-- R341: an initiate or a segment of a write arrives. -/
def execSegmentedWrite (f : HFrame) (s : State) : Res := ringCmd f 3 false s

/-- R341: a transfer idle for 100 ms is dropped. -/
def execSegmentedTransferDrop (station : BitVec 7) (index : BitVec 16) (sub : BitVec 8) (s : State) : Res :=
  let idle := s.lodge.transfers.any (fun t => t.reader == .station station.toNat && t.index == index && t.sub == sub &&
    decide (10 ^ 8 + t.since ≤ s.ns))
  onlyIf idle s (s.dropTransfer (.station station.toNat) index sub)

/-- R342: an initiate or end frame of a block write arrives. -/
def execBlockControl (f : HFrame) (s : State) : Res := ringCmd f 9 false s

/-- R342: a data segment of a block write arrives. -/
def execBlockWrite (f : HFrame) (s : State) : Res := ringCmd f 4 false s

/-- R339: an abort ends the transfer that it names. -/
def execAbort (f : HFrame) (s : State) : Res := ringCmd f 8 false s

/-- R343: an acknowledgement of an event arrives. -/
def execEventAck (f : HFrame) (s : State) : Res := ringCmd f 5 true s

/-- R343: an event without acknowledgement is sent again every 100 ms, and given up after 10 attempts. -/
def execEventResend (seq : BitVec 16) (s : State) : Res :=
  match s.lodge.events.find? (fun e => e.seq == seq) with
  | some e =>
    if s.ns < 10 ^ 8 + e.sent then .next s
    else if 10 ≤ e.attempts then .next (s.modLodge (fun l => { l with events := l.events.filter (fun x => x.seq != seq) }))
    else
      let s := s.modLodge (fun l => { l with events := l.events.map (fun x =>
        if x.seq = seq then { x with attempts := x.attempts + 1, sent := s.ns } else x) })
      .next (s.ringOut (eventFrame (s.lodge.set.station.setWidth 7) (s.lodge.set.eventStation.setWidth 7) seq e.event))
  | none => .next s

/-- R344: a SYNC arrives; it is forwarded with its residence time added, and followed. -/
def execSync (f : HFrame) (residence : BitVec 64) (s : State) : Res :=
  onlyIf (isSync f) s (let w := s.arriveAs f (stayed f residence.toNat); if w.1 then w.2.followSync f else w.2)

/-- R344: as time master, the module sends SYNC to all stations, every interval. -/
def execSyncSend (s : State) : Res :=
  let l := s.lodge
  let due := match l.syncSent with
    | some t => decide (t + 1000000 * l.syncInterval.toNat ≤ s.ns)
    | none => true
  if l.booted && !l.relay && l.timeMaster == l.set.station && due then
    let q := s.nextSeq
    .next ((q.2.sendRing (q.2.ringFrame false 6 0x7F 0 0 q.1 0 (natLE 8 s.ns))).modLodge (fun l => { l with
      lastSync := s.ns, syncSent := some s.ns }))
  else .next s

/-- R344: a DELAY_REQ arrives and is answered; one of the module's own is sent, once per second for each link: the frame's port tells
which (log 125). -/
def execDelayReq (f : HFrame) (s : State) : Res :=
  let l := s.lodge
  let x := l.link f.onB
  let due := match x.asked with
    | some t => decide (t + 10 ^ 9 ≤ s.ns)
    | none => true
  if f.service ≠ 6 ∨ f.param ≠ 1 ∨ f.rsp then .next s
  else if l.sent f ∧ l.here.isSome ∧ l.booted ∧ !l.relay then
    let q := s.nextSeq
    onlyIf due s ((q.2.sendRing (q.2.ringFrame false 6 f.dst.toNat 0 1 q.1 0 (natLE 8 s.ns))).modLodge (fun l =>
      l.setLink f.onB { x with req := some (q.1, s.ns), asked := some s.ns }))
  else .next (s.ringIn f)

/-- R344: the answer to a delay request arrives. -/
def execDelayResp (f : HFrame) (s : State) : Res := ringCmd f 6 true s

/-- R344: no SYNC for 10 s. -/
def execSyncLost (s : State) : Res :=
  onlyIf (s.lodge.timeLocked && decide (10 ^ 10 + s.lodge.lastSync ≤ s.ns)) s
    ((s.modLodge (fun l => { l with timeLocked := false, slew := 0 })).event 0x000B 0 0x1100 8 0x1F)

/-- R339: any frame is forwarded, and served when it is delivered; the residence of a SYNC is free here. -/
def execFrameForward (f : HFrame) (s : State) : Res :=
  .next (
    let r := s.fresh
    let w := if isSync f then r.2.arriveAs f (stayed f (Config.free16 r.1).toNat) else s.arrive f
    if w.1 then w.2.serve f else w.2)

/-- R337: an assignment by serial number arrives. -/
def execStationAssign (f : HFrame) (s : State) : Res :=
  onlyIf (f.service.toNat == 3 && !f.rsp && f.session == 0 && f.index == 0x1100 && f.sub == 2) s (s.ringIn f)

/-! ### Session steps (R527–R535) -/

/-- R530: a HELLO arrives. -/
def execHello (f : HFrame) (s : State) : Res := sessionCmd f 0x01 s

/-- R531: an ACCEPT arrives. -/
def execAccept (f : HFrame) (s : State) : Res := sessionCmd f 0x03 s

/-- R532: a CLOSE arrives. -/
def execClose (f : HFrame) (s : State) : Res := sessionCmd f 0x10 s

/-- R535: a WKEY_SET arrives. -/
def execWkeySet (f : HFrame) (s : State) : Res := sessionCmd f 0x20 s

/-- R535: a WKEY_DEL arrives. -/
def execWkeyDel (f : HFrame) (s : State) : Res := sessionCmd f 0x21 s

/-- R527: an OWNERS_SET arrives. -/
def execOwnersSet (f : HFrame) (s : State) : Res := sessionCmd f 0x30 s

end Sys2Proof.Machine
end

