-- ==== Sys2Proof/Machine/Routing.lean ====
section
/-! DEFINITION. Routing on the cell torus, the express torus and the Colonnade (R280–R283, R297–R301, R312–R314,
R553): the ways by which a packet may leave a router, and the packets that wait at one (R297, R302). -/

namespace Sys2Proof.Machine

/-! ### Rings (R280, R300, R301) -/

/-- Hops from position i to position j of a ring of n, going up and going down; none where a hop is withdrawn. -/
def ringRuns (n : Nat) (cutUp cutDown : Nat → Bool) (i j : Nat) : Option Nat × Option Nat :=
  let up := (j + n - i) % n
  let down := (i + n - j) % n
  (if (List.range up).any (fun k => cutUp ((i + k) % n)) then none else some up,
    if (List.range down).any (fun k => cutDown ((i + n - k) % n)) then none else some down)

/-- The torus distance along one ring (R280), the other way round past a withdrawn hop (R301). -/
def runDist : Option Nat × Option Nat → Option Nat
  | (some u, some d) => some (min u d)
  | (some u, none) => some u
  | (none, r) => r

/-- The directions that reduce the distance (R298), true toward the next position; where both do, that one comes first
(R297). -/
def runWays : Option Nat × Option Nat → List Bool
  | (some u, some d) => if u = 0 then [] else if u < d then [true] else if d < u then [false] else [true, false]
  | (some u, none) => if u = 0 then [] else [true]
  | (none, some d) => if d = 0 then [] else [false]
  | (none, none) => []

/-- The live coordinates of a folded ring in the order of their positions (R280): dead routers are spliced out (R300). -/
def liveRing (n : Nat) (dead : Nat → Bool) : List Nat :=
  ((List.range n).map (fun i => if 2 * i < n then 2 * i else 2 * (n - 1 - i) + 1)).filter (fun a => !dead a)

/-- The runs between two coordinates of a ring. -/
def coordRuns (ring : List Nat) (cut : Nat → Bool → Bool) (a b : Nat) : Option Nat × Option Nat :=
  match ring.findIdx? (· == a), ring.findIdx? (· == b) with
  | some i, some j => ringRuns ring.length (fun k => cut (lget 0 ring k) true) (fun k => cut (lget 0 ring k) false) i j
  | _, _ => (none, none)

/-- A dead router that skip links splice out of its rings: any but a port cell's (R25, R300). -/
def Plot.spliced (x : Plot) (l : Nat × Nat) : Bool :=
  x.deadRouters.contains l && !(List.range 4).any (fun q => portCell q == l)

/-- No hop passes a dead router that is not spliced. -/
def cutAt (ring : List Nat) (dead : Nat → Bool) (a : Nat) (up : Bool) : Bool :=
  let n := ring.length
  let i := (ring.findIdx? (· == a)).getD 0
  dead a || dead (lget 0 ring (if up then (i + 1) % n else (i + n - 1) % n))

/-- The runs of the cell torus of a plot in one dimension: along the row, or along the column. -/
def Plot.cellRuns (x : Plot) (column : Bool) (at_ dest : Nat × Nat) : Option Nat × Option Nat :=
  if column then
    let ring := liveRing 68 (fun y => x.spliced (at_.1, y))
    coordRuns ring (cutAt ring (fun y => x.deadRouters.contains (at_.1, y))) at_.2 dest.2
  else
    let ring := liveRing 64 (fun a => x.spliced (a, at_.2))
    coordRuns ring (cutAt ring (fun a => x.deadRouters.contains (a, at_.2))) at_.1 dest.1

/-- All four links of an express hop are withdrawn (R301). -/
def State.hopCut (s : State) (p d : Nat) : Bool :=
  (List.range 4).all (fun j => (s.link (.express (Fin.ofNat 56 p) (Fin.ofNat 4 d) (Fin.ofNat 4 j))).state == 2)

/-- The runs of the express torus in one dimension (R29, R280, R301). -/
def State.gateRuns (s : State) (column : Bool) (p q : Nat) : Option Nat × Option Nat :=
  if column then coordRuns (liveRing 7 (fun _ => false)) (fun r up => s.hopCut (8 * r + p % 8) (if up then 2 else 0)) (p / 8) (q / 8)
  else coordRuns (liveRing 8 (fun _ => false)) (fun c up => s.hopCut (8 * (p / 8) + c) (if up then 1 else 3)) (p % 8) (q % 8)

/-- The runs of the Colonnade, up being clockwise (R34, R301). -/
def State.rimRuns (s : State) (m n : Nat) : Option Nat × Option Nat :=
  let cut := fun (r : Fin 2) (k : Nat) => (s.link (.colonnade (Fin.ofNat 8 k) r)).state == 2
  ringRuns 8 (cut 0) (cut 1) m n

/-! ### Where a packet goes (R22, R282, R283, R299, R457) -/

/-- A packet's destination on the wafer. -/
inductive Dest where
  | cell (plot lx ly : Nat)
  | dma (plot q : Nat)
  | gate (plot : Nat)
  | port (seg : Nat)
  | elsewhere
  deriving DecidableEq, Repr

/-- A cell address leads to the cell that answers for it, by the pavilion map and the remap table (R299, R457); the
coordinates of a dummy lead to the dummy. -/
def State.destCell (s : State) (a x y : Nat) : Dest :=
  let q := quadOf (x % 64) (y % 68)
  match cellNumber q (x % 64) (y % 68) with
  | some n =>
    let p := (s.allot a).mapped (4 * plotOfCell x y + q)
    let l := physLocal (p % 4) (s.physCell p n)
    .cell (plotOf p) l.1 l.2
  | none => .cell (plotOfCell x y) (x % 64) (y % 68)

/-- A packet's destination; the path of a GRANULE packet is not given (log 94). -/
def State.destOf (s : State) (k : Packet) : Dest :=
  let a := (s.packetAllot k).getD 16
  let r := if k.ptype == 3 || k.ptype == 4 then senderAt k.dstX k.dstY k.tag.toNat else receiverAt k.dstX k.dstY k.sel
  match r with
  | some (.cell c) => s.destCell a c.x.val c.y.val
  | some (.dma p) => let m := (s.allot a).mapped p.val; .dma (plotOf m) (m % 4)
  | some (.agent p) => .gate p.val
  | some (.host h) => if k.ptype = 7 then .elsewhere else .port (2 * h.val + 1)
  | some (.server n) => if k.ptype = 7 then .elsewhere else .port (n.val / 2)
  | none => if k.dstY = 480 ∧ k.dstX.toNat < 56 then .gate k.dstX.toNat else .elsewhere

/-- The plot that a destination lies in. -/
def Dest.plot? : Dest → Option Nat
  | .cell p _ _ | .dma p _ | .gate p => some p
  | _ => none

/-- A link carries packets: it is not withdrawn (R301). -/
def State.linkUp (s : State) (l : LinkId) : Bool := (s.link l).state != 2

/-- The attachment cells of a plot whose routers work (R22, R300), by cell number. -/
def Plot.attachCells (x : Plot) : List (Nat × Nat) :=
  [(32, 34), (33, 34), (30, 34), (31, 34), (32, 35), (33, 35), (30, 35), (31, 35), (32, 32), (33, 32), (30, 32),
    (31, 32), (32, 33), (33, 33), (30, 33), (31, 33)].filter (fun l => !x.deadRouters.contains l)

/-- The torus distance between two cells of a plot (R280). -/
def Plot.cellDist (x : Plot) (u v : Nat × Nat) : Nat :=
  (runDist (x.cellRuns false u v)).getD 64 + (runDist (x.cellRuns true u v)).getD 68

/-- The attachment cell nearest to a cell whose link into the gate, or out of it, works, the lowest cell number on a tie
(R282, R301). -/
def State.nearAttach (s : State) (p : Nat) (up : Bool) (u : Nat × Nat) : Option (Nat × Nat) :=
  let x := s.plot p
  (x.attachCells.filter (fun l => s.linkUp (.attach (Fin.ofNat 56 p) (Fin.ofNat 16 (4 * (l.2 - 32) + l.1 - 30)) up))).foldl (fun m l => match m with
    | none => some l
    | some b => if x.cellDist u l < x.cellDist u b then some l else some b) none

/-- The attachments that an allotment's port traffic uses, as segment and gate: all 32, or its own edge gates in direct
attachment; in the order of R553 (R312–R314). -/
def State.attachments (s : State) (a : Nat) : List (Nat × Nat) :=
  let all := (List.range 8).flatMap (fun n => (gatesOfSeg n).map (fun g => (n, g)))
  if (s.allot a).attach = 1 then all.filter (fun e => (s.allot a).plots.getLsbD e.2) else all

/-- The attachment that a packet between a port and the wafer takes (R313, R314, R553). -/
def State.attachmentOf (s : State) (k : Packet) : Option (Nat × Nat) :=
  let l := s.attachments ((s.packetAllot k).getD 16)
  l[attachHash k.srcX k.srcY k.tag k.seq l.length]?

/-! ### The ways out of a router (R297, R298) -/

/-- Both dimensions' ways, the row's first unless the packet rides the column ring (R297, R298). -/
def bothWays (column : Bool) (row col : List Bool) : List Way :=
  let r := row.map (Way.hop false)
  let c := col.map (Way.hop true)
  if column then c ++ r else r ++ c

/-- The ways by which a packet may leave a cell's router: its productive outputs, toward its destination in the plot or
toward the attachment cell nearest to it (R282, R298). -/
def State.cellWays (s : State) (p : Nat) (at_ : Nat × Nat) (d : Dest) : List Way :=
  let x := s.plot p
  let toward := fun (dest : Nat × Nat) (last : Way) =>
    if at_ = dest then [last]
    else bothWays false (runWays (x.cellRuns false at_ dest)) (runWays (x.cellRuns true at_ dest))
  let leave := match s.nearAttach p true at_ with
    | some c => toward c .gate
    | none => []
  match d with
  | .cell q lx ly => if q = p then toward (lx, ly) .eject else leave
  | .elsewhere => []
  | _ => leave

/-- Some link of the attachment of a segment to a gate works (R32, R301). -/
def State.attachUp (s : State) (n g : Nat) : Bool :=
  (List.range 16).any (fun j => s.linkUp (.segGate (Fin.ofNat 8 n) (Fin.ofNat 4 ((gatesOfSeg n).idxOf g)) (Fin.ofNat 16 j)))

/-- The gate one express hop away, and whether the hop stays between gates of an allotment, with a link that works (R313). -/
def State.ownHop (s : State) (a p d : Nat) : Option Nat :=
  let ring := liveRing (if d % 2 = 0 then 7 else 8) (fun _ => false)
  let at_ := if d % 2 = 0 then p / 8 else p % 8
  let i := (ring.findIdx? (· == at_)).getD 0
  let c := lget 0 ring (if d = 1 ∨ d = 2 then (i + 1) % ring.length else (i + ring.length - 1) % ring.length)
  let q := if d % 2 = 0 then 8 * c + p % 8 else 8 * (p / 8) + c
  if s.hopCut p d ∨ (s.allot a).plots.getLsbD q = false then none else some q

/-- The gates of an allotment within n express hops of gate q, over its own gates alone. -/
def State.ownWithin (s : State) (a q : Nat) : Nat → List Nat
  | 0 => [q]
  | n + 1 =>
    let l := s.ownWithin a q n
    below 56 (fun p => l.contains p ||
      (s.allot a).plots.getLsbD p && [0, 1, 2, 3].any (fun d => (s.ownHop a p d).any l.contains))

/-- The ways of a packet of direct attachment from gate p to gate q: those that shorten its path over the allotment's own gates,
at most 8 of them (R298, R312, R313). -/
def State.ownWays (s : State) (a p q : Nat) (column : Bool) : List Way :=
  match (List.range 8).find? (fun n => (s.ownWithin a q n).contains p) with
  | some (n + 1) =>
    let good := fun (d : Nat) => (s.ownHop a p d).any (s.ownWithin a q n).contains
    bothWays column ([(1, true), (3, false)].filterMap (fun e => if good e.1 then some e.2 else none))
      ([(2, true), (0, false)].filterMap (fun e => if good e.1 then some e.2 else none))
  | _ => []

/-- Traffic of a port, which an allotment's attachment mode governs (R312–R314). -/
def portTraffic (k : Packet) : Bool :=
  [receiverAt k.srcX k.srcY false, receiverAt k.dstX k.dstY false].any (fun r => match r with
    | some (.host _) | some (.server _) => true
    | _ => false)

/-- The ways by which a packet may leave a gate: on the express torus, or into its plot or its segment (R282, R298, R301).
A packet on the column ring stays on it first. -/
def State.gateWays (s : State) (p : Nat) (column : Bool) (d : Dest) (k : Packet) : List Way :=
  let a := (s.packetAllot k).getD 16
  let toward := fun (q : Nat) =>
    if portTraffic k ∧ (s.allot a).attach = 1 then s.ownWays a p q column
    else bothWays column (runWays (s.gateRuns false p q)) (runWays (s.gateRuns true p q))
  match d with
  | .cell q lx ly =>
    if q ≠ p then toward q
    else match s.nearAttach p false (lx, ly) with
      | some c => [.cell (Fin.ofNat 64 c.1) (Fin.ofNat 68 c.2)]
      | none => []
  | .dma q i => if q = p then
      (if s.linkUp (.port (Fin.ofNat 224 (4 * q + i)) false) then [.dma (Fin.ofNat 4 i)] else []) else toward q
  | .gate q => if q = p then [.eject] else toward q
  | .port _ => match s.attachmentOf k with
    | some e => if e.2 = p then (if s.attachUp e.1 p then [.segment (Fin.ofNat 8 e.1)] else []) else toward e.2
    | none => []
  | .elsewhere => []

/-- The ways by which a packet may leave a segment: along the Colonnade by the shorter direction, clockwise on a tie, or to
an attached gate or a port (R313, R314). -/
def State.segWays (s : State) (n : Nat) (d : Dest) (k : Packet) : List Way :=
  let toward := fun (m : Nat) (last : Way) =>
    if n = m then [last] else ((runWays (s.rimRuns n m)).map Way.colonnade).take 1
  match d with
  | .port m => toward m .eject
  | .elsewhere => []
  | _ => match s.attachmentOf k with
    | some e => if n = e.1 ∧ s.attachUp n e.2 = false then [] else toward e.1 (.plot (Fin.ofNat 56 e.2))
    | none => []

/-- The ways by which a packet may leave a router, the escape route's first (R297, R298). -/
def State.waysFrom (s : State) (r : Router) (column : Bool) (k : Packet) : List Way :=
  let d := s.destOf k
  match r with
  | .cell p lx ly => s.cellWays p.val (lx.val, ly.val) d
  | .gate p => s.gateWays p.val column d k
  | .segment n => s.segWays n.val d k

/-! ### A packet at a router (R297, R299, R302) -/

/-- The plot that a router serves. -/
def routerPlot : Router → Option Nat
  | .cell p _ _ | .gate p => some p.val
  | .segment _ => none

/-- R299: in the destination's plot, dst becomes the coordinates of the cell that answers, with a CRC of its own. -/
def State.rewritten (s : State) (r : Router) (k : Packet) : Packet :=
  match s.destOf k with
  | .cell p lx ly =>
    if routerPlot r = some p then
      let m : Packet := { k with dstX := BitVec.ofNat 9 (64 * (p % 8) + lx), dstY := BitVec.ofNat 9 (68 * (p / 8) + ly) }
      if m = k then k else { m with crc := crc32c m.crcBytes }
    else k
  | _ => k

/-- Age by one more, which saturates at 63 (R302). -/
def olderPacket (k : Packet) : Packet := { k with age := if k.age = 63 then 63 else k.age + 1 }

/-- A way that passes the packet to another router. -/
def Way.isHop : Way → Bool
  | .eject | .dma _ => false
  | _ => true

/-- R297: a head packet that has had no productive output for 32 F-cycles sets ESCAPE and follows the escape route: the
shorter direction of its row ring until the column matches, then of its column ring, ties to the next ring position; on
the express torus first along the ring it is on. It leaves a hop older (R302), and addressed as R299 says. -/
def execEscapeSet (r : Router) (column : Bool) (k : Packet) (s : State) : Res :=
  let w := (s.waysFrom r column k).head?
  let m := s.rewritten r { k with escape := true }
  onlyIf (!k.escape) s (s.emit (.hop r w (if w.any Way.isHop then olderPacket m else m)))

/-- R302: a waiting head packet's age rises by 1 and saturates at 63. -/
def execAgeRaise (k : Packet) (s : State) : Res :=
  .next (s.emit (.forward (olderPacket k)))

end Sys2Proof.Machine
end

