-- ==== Sys2Proof/Machine/Dispatch.lean ====
section
/-! DEFINITION. The dispatch of a command to its meaning: one arm per row of the command table. -/

namespace Sys2Proof.Machine

open Sys2Proof

/-- The effect of a command on everything but the queue. -/
def exec (i : Instr) (s : State) : Host.Outcome State Fault Refusal :=
  match i with
  | .mgeom p st w => Sys2Proof.Machine.execMgeom p st w s
  | .mload p st w => Sys2Proof.Machine.execMload p st w s
  | .tileLoadDone p => Sys2Proof.Machine.execTileLoadDone p s
  | .moset p st w => Sys2Proof.Machine.execMoset p st w s
  | .mpset p st w => Sys2Proof.Machine.execMpset p st w s
  | .mfset p st w => Sys2Proof.Machine.execMfset p st w s
  | .mrun p st w => Sys2Proof.Machine.execMrun p st w s
  | .macc p st w => Sys2Proof.Machine.execMacc p st w s
  | .rowIssue p => Sys2Proof.Machine.execRowIssue p s
  | .rowVerdict p o => Sys2Proof.Machine.execRowVerdict p o s
  | .shadowShift p o => Sys2Proof.Machine.execShadowShift p o s
  | .drainStart p => Sys2Proof.Machine.execDrainStart p s
  | .lineRetirement p column line => Sys2Proof.Machine.execLineRetirement p column line s
  | .forecastSlotDisabled p slot => Sys2Proof.Machine.execForecastSlotDisabled p slot s
  | .forecastWindowEnd p slot => Sys2Proof.Machine.execForecastWindowEnd p slot s
  | .munpk p st w c => Sys2Proof.Machine.execMunpk p st w c s
  | .mpack p st w c => Sys2Proof.Machine.execMpack p st w c s
  | .vadd p st w c => Sys2Proof.Machine.execVadd p st w c s
  | .vsub p st w c => Sys2Proof.Machine.execVsub p st w c s
  | .vmul p st w c => Sys2Proof.Machine.execVmul p st w c s
  | .vfma p st w c => Sys2Proof.Machine.execVfma p st w c s
  | .vfmai p st w c => Sys2Proof.Machine.execVfmai p st w c s
  | .vaddi p st w c => Sys2Proof.Machine.execVaddi p st w c s
  | .vmuli p st w c => Sys2Proof.Machine.execVmuli p st w c s
  | .vmax p st w c => Sys2Proof.Machine.execVmax p st w c s
  | .vmin p st w c => Sys2Proof.Machine.execVmin p st w c s
  | .vabs p st w c => Sys2Proof.Machine.execVabs p st w c s
  | .vneg p st w c => Sys2Proof.Machine.execVneg p st w c s
  | .vbcast p st w c => Sys2Proof.Machine.execVbcast p st w c s
  | .viadd p st w c => Sys2Proof.Machine.execViadd p st w c s
  | .vimul p st w c => Sys2Proof.Machine.execVimul p st w c s
  | .vilog p st w c => Sys2Proof.Machine.execVilog p st w c s
  | .vishi p st w c => Sys2Proof.Machine.execVishi p st w c s
  | .vcmp p st w c => Sys2Proof.Machine.execVcmp p st w c s
  | .vcmpi p st w c => Sys2Proof.Machine.execVcmpi p st w c s
  | .vicmp p st w c => Sys2Proof.Machine.execVicmp p st w c s
  | .vsel p st w c => Sys2Proof.Machine.execVsel p st w c s
  | .vpst p st w c => Sys2Proof.Machine.execVpst p st w c s
  | .vpld p st w c => Sys2Proof.Machine.execVpld p st w c s
  | .vpcnt p st w c => Sys2Proof.Machine.execVpcnt p st w c s
  | .vcvt p st w c => Sys2Proof.Machine.execVcvt p st w c s
  | .vpkmx p st w c => Sys2Proof.Machine.execVpkmx p st w c s
  | .vupmx p st w c => Sys2Proof.Machine.execVupmx p st w c s
  | .vsplit p st w c => Sys2Proof.Machine.execVsplit p st w c s
  | .vi2f p st w c => Sys2Proof.Machine.execVi2f p st w c s
  | .vf2i p st w c => Sys2Proof.Machine.execVf2i p st w c s
  | .vrcp p st w c => Sys2Proof.Machine.execVrcp p st w c s
  | .vrsqrt p st w c => Sys2Proof.Machine.execVrsqrt p st w c s
  | .vexp2 p st w c => Sys2Proof.Machine.execVexp2 p st w c s
  | .vlog2 p st w c => Sys2Proof.Machine.execVlog2 p st w c s
  | .vtanh p st w c => Sys2Proof.Machine.execVtanh p st w c s
  | .vsigm p st w c => Sys2Proof.Machine.execVsigm p st w c s
  | .vred p st w c => Sys2Proof.Machine.execVred p st w c s
  | .vscan p st w c => Sys2Proof.Machine.execVscan p st w c s
  | .vgath p st w c => Sys2Proof.Machine.execVgath p st w c s
  | .vflags p st w c => Sys2Proof.Machine.execVflags p st w c s
  | .dcopy p st w => Sys2Proof.Machine.execDcopy p st w s
  | .dcopyFinish p k e => Sys2Proof.Machine.execDcopyFinish p k e s
  | .psend p st w => Sys2Proof.Machine.execPsend p st w s
  | .precv p st w => Sys2Proof.Machine.execPrecv p st w s
  | .precvItem p port => Sys2Proof.Machine.execPrecvItem p port s
  | .nop p st w => Sys2Proof.Machine.execNop p st w s
  | .wait p st w => Sys2Proof.Machine.execWait p st w s
  | .waitEnd p st => Sys2Proof.Machine.execWaitEnd p st s
  | .halt p st w => Sys2Proof.Machine.execHalt p st w s
  | .loop p st w => Sys2Proof.Machine.execLoop p st w s
  | .syncw p st w => Sys2Proof.Machine.execSyncw p st w s
  | .syncwRelease p st => Sys2Proof.Machine.execSyncwRelease p st s
  | .synca p st w => Sys2Proof.Machine.execSynca p st w s
  | .cpost p st w => Sys2Proof.Machine.execCpost p st w s
  | .fence p st w => Sys2Proof.Machine.execFence p st w s
  | .markp p st w => Sys2Proof.Machine.execMarkp p st w s
  | .stalledIssue p st => Sys2Proof.Machine.execStalledIssue p st s
  | .stallLimit p st => Sys2Proof.Machine.execStallLimit p st s
  | .runStart p => Sys2Proof.Machine.execRunStart p s
  | .runEnd p => Sys2Proof.Machine.execRunEnd p s
  | .markTaken p => Sys2Proof.Machine.execMarkTaken p s
  | .markVerified p => Sys2Proof.Machine.execMarkVerified p s
  | .digestReadback p c => Sys2Proof.Machine.execDigestReadback p c s
  | .add c gd ga b => Sys2Proof.Machine.execAdd c gd ga b s
  | .sub c gd ga b => Sys2Proof.Machine.execSub c gd ga b s
  | .and c gd ga b => Sys2Proof.Machine.execAnd c gd ga b s
  | .or c gd ga b => Sys2Proof.Machine.execOr c gd ga b s
  | .xor c gd ga b => Sys2Proof.Machine.execXor c gd ga b s
  | .shifts c k gd ga b => Sys2Proof.Machine.execShifts c k gd ga b s
  | .setLessThan c unsigned gd ga b => Sys2Proof.Machine.execSetLessThan c unsigned gd ga b s
  | .min c gd ga b => Sys2Proof.Machine.execMin c gd ga b s
  | .max c gd ga b => Sys2Proof.Machine.execMax c gd ga b s
  | .loadUpperImmediate c gd imm => Sys2Proof.Machine.execLoadUpperImmediate c gd imm s
  | .mul c gd ga gb => Sys2Proof.Machine.execMul c gd ga gb s
  | .mulh c gd ga gb => Sys2Proof.Machine.execMulh c gd ga gb s
  | .mulhu c gd ga gb => Sys2Proof.Machine.execMulhu c gd ga gb s
  | .div c gd ga gb => Sys2Proof.Machine.execDiv c gd ga gb s
  | .divu c gd ga gb => Sys2Proof.Machine.execDivu c gd ga gb s
  | .rem c gd ga gb => Sys2Proof.Machine.execRem c gd ga gb s
  | .remu c gd ga gb => Sys2Proof.Machine.execRemu c gd ga gb s
  | .fadd c gd ga gb => Sys2Proof.Machine.execFadd c gd ga gb s
  | .fsub c gd ga gb => Sys2Proof.Machine.execFsub c gd ga gb s
  | .fmul c gd ga gb => Sys2Proof.Machine.execFmul c gd ga gb s
  | .ffma c gd ga gb => Sys2Proof.Machine.execFfma c gd ga gb s
  | .fmin c gd ga gb => Sys2Proof.Machine.execFmin c gd ga gb s
  | .fmax c gd ga gb => Sys2Proof.Machine.execFmax c gd ga gb s
  | .fcmp c r gd ga gb => Sys2Proof.Machine.execFcmp c r gd ga gb s
  | .fcvt c d gd ga => Sys2Proof.Machine.execFcvt c d gd ga s
  | .fdiv c gd ga gb => Sys2Proof.Machine.execFdiv c gd ga gb s
  | .fsqrt c gd ga => Sys2Proof.Machine.execFsqrt c gd ga s
  | .ld c z gd ga off => Sys2Proof.Machine.execLd c z gd ga off s
  | .st c z gd ga off => Sys2Proof.Machine.execSt c z gd ga off s
  | .ldp c gd ga off => Sys2Proof.Machine.execLdp c gd ga off s
  | .stp c gd ga off => Sys2Proof.Machine.execStp c gd ga off s
  | .compareAndBranch c k ga gb off => Sys2Proof.Machine.execCompareAndBranch c k ga gb off s
  | .jump c off => Sys2Proof.Machine.execJump c off s
  | .jumpAndLink c off => Sys2Proof.Machine.execJumpAndLink c off s
  | .movq c ga => Sys2Proof.Machine.execMovq c ga s
  | .sigc c ga gb => Sys2Proof.Machine.execSigc c ga gb s
  | .rdctr c gd ga => Sys2Proof.Machine.execRdctr c gd ga s
  | .wfe c => Sys2Proof.Machine.execWfe c s
  | .wfeWake c => Sys2Proof.Machine.execWfeWake c s
  | .csrr c gd n => Sys2Proof.Machine.execCsrr c gd n s
  | .csrw c ga n => Sys2Proof.Machine.execCsrw c ga n s
  | .trap c => Sys2Proof.Machine.execTrap c s
  | .tret c => Sys2Proof.Machine.execTret c s
  | .coreFence c => Sys2Proof.Machine.execCoreFence c s
  | .moveTransferStart c => Sys2Proof.Machine.execMoveTransferStart c s
  | .moveTransferFinish c k e => Sys2Proof.Machine.execMoveTransferFinish c k e s
  | .correctionWriteBack p cell bank => Sys2Proof.Machine.execCorrectionWriteBack p cell bank s
  | .gardenPatrolScrub p cell bank => Sys2Proof.Machine.execGardenPatrolScrub p cell bank s
  | .tagWaitEnd p tag => Sys2Proof.Machine.execTagWaitEnd p tag s
  | .tagTimeout p tag => Sys2Proof.Machine.execTagTimeout p tag s
  | .plotScrub p => Sys2Proof.Machine.execPlotScrub p s
  | .plotScrubDone p failedPavs failedCells => Sys2Proof.Machine.execPlotScrubDone p failedPavs failedCells s
  | .beatArrival p src b e => Sys2Proof.Machine.execBeatArrival p src b e s
  | .steeringResolve p u => Sys2Proof.Machine.execSteeringResolve p u s
  | .skewTimeout p join => Sys2Proof.Machine.execSkewTimeout p join s
  | .mergeEmit p m ok => Sys2Proof.Machine.execMergeEmit p m ok s
  | .sectionEnd a => Sys2Proof.Machine.execSectionEnd a s
  | .sectionFreeze a c => Sys2Proof.Machine.execSectionFreeze a c s
  | .req k => Sys2Proof.Machine.execReq k s
  | .read k => Sys2Proof.Machine.execRead k s
  | .reply k => Sys2Proof.Machine.execReply k s
  | .data k => Sys2Proof.Machine.execData k s
  | .nack k => Sys2Proof.Machine.execNack k s
  | .signalPacket k => Sys2Proof.Machine.execSignalPacket k s
  | .control k => Sys2Proof.Machine.execControl k s
  | .granule k => Sys2Proof.Machine.execGranule k s
  | .heldGrant r => Sys2Proof.Machine.execHeldGrant r s
  | .fullRetry r tag => Sys2Proof.Machine.execFullRetry r tag s
  | .requestTimeout r tag => Sys2Proof.Machine.execRequestTimeout r tag s
  | .landingTimeout r entry => Sys2Proof.Machine.execLandingTimeout r entry s
  | .doneQuery r tag => Sys2Proof.Machine.execDoneQuery r tag s
  | .escapeSet r column k => Sys2Proof.Machine.execEscapeSet r column k s
  | .ageRaise k => Sys2Proof.Machine.execAgeRaise k s
  | .linkErrorWindow l failures bits => Sys2Proof.Machine.execLinkErrorWindow l failures bits s
  | .linkWithdrawal l vc => Sys2Proof.Machine.execLinkWithdrawal l vc s
  | .granuleResend p tag => Sys2Proof.Machine.execGranuleResend p tag s
  | .hbmPatrolScrub k line => Sys2Proof.Machine.execHbmPatrolScrub k line s
  | .pcReplacement k pc => Sys2Proof.Machine.execPcReplacement k pc s
  | .stackFailed k => Sys2Proof.Machine.execStackFailed k s
  | .hbmRetrain k temp ok => Sys2Proof.Machine.execHbmRetrain k temp ok s
  | .hbmZeroingDone a => Sys2Proof.Machine.execHbmZeroingDone a s
  | .relayOpen => Sys2Proof.Machine.execRelayOpen s
  | .watchdogExpiry restarted => Sys2Proof.Machine.execWatchdogExpiry restarted s
  | .expeditedRead f => Sys2Proof.Machine.execExpeditedRead f s
  | .expeditedWrite f => Sys2Proof.Machine.execExpeditedWrite f s
  | .segmentedRead f => Sys2Proof.Machine.execSegmentedRead f s
  | .segmentedWrite f => Sys2Proof.Machine.execSegmentedWrite f s
  | .segmentedTransferDrop station index sub => Sys2Proof.Machine.execSegmentedTransferDrop station index sub s
  | .blockControl f => Sys2Proof.Machine.execBlockControl f s
  | .blockWrite f => Sys2Proof.Machine.execBlockWrite f s
  | .abort f => Sys2Proof.Machine.execAbort f s
  | .eventAck f => Sys2Proof.Machine.execEventAck f s
  | .eventResend seq => Sys2Proof.Machine.execEventResend seq s
  | .sync f residence => Sys2Proof.Machine.execSync f residence s
  | .syncSend => Sys2Proof.Machine.execSyncSend s
  | .delayReq f => Sys2Proof.Machine.execDelayReq f s
  | .delayResp f => Sys2Proof.Machine.execDelayResp f s
  | .syncLost => Sys2Proof.Machine.execSyncLost s
  | .frameForward f => Sys2Proof.Machine.execFrameForward f s
  | .stationAssign f => Sys2Proof.Machine.execStationAssign f s
  | .objectWrite r index sub v => Sys2Proof.Machine.execObjectWrite r index sub v s
  | .counterReadClear r index sub => Sys2Proof.Machine.execCounterReadClear r index sub s
  | .moduleStop r => Sys2Proof.Machine.execModuleStop r s
  | .moduleOperate r => Sys2Proof.Machine.execModuleOperate r s
  | .allotmentOpen r a => Sys2Proof.Machine.execAllotmentOpen r a s
  | .allotmentClose r a => Sys2Proof.Machine.execAllotmentClose r a s
  | .allotmentOpenDone a ok => Sys2Proof.Machine.execAllotmentOpenDone a ok s
  | .allotmentCloseDone a => Sys2Proof.Machine.execAllotmentCloseDone a s
  | .plotDisable r p => Sys2Proof.Machine.execPlotDisable r p s
  | .plotEnable r p failedDrill => Sys2Proof.Machine.execPlotEnable r p failedDrill s
  | .pavilionDisable r p => Sys2Proof.Machine.execPavilionDisable r p s
  | .pavilionEnable r p drillOk => Sys2Proof.Machine.execPavilionEnable r p drillOk s
  | .hostPortDisable r h => Sys2Proof.Machine.execHostPortDisable r h s
  | .hostPortEnable r h => Sys2Proof.Machine.execHostPortEnable r h s
  | .serverPortDisable r st => Sys2Proof.Machine.execServerPortDisable r st s
  | .serverPortEnable r st => Sys2Proof.Machine.execServerPortEnable r st s
  | .forecastRearm r p bits => Sys2Proof.Machine.execForecastRearm r p bits s
  | .overlaySelect r a slot => Sys2Proof.Machine.execOverlaySelect r a slot s
  | .parcelRedeal a => Sys2Proof.Machine.execParcelRedeal a s
  | .attachWrite r a v => Sys2Proof.Machine.execAttachWrite r a v s
  | .serverPortsWrite r a v => Sys2Proof.Machine.execServerPortsWrite r a v s
  | .powerCapWrite r v => Sys2Proof.Machine.execPowerCapWrite r v s
  | .activeBaseWrite r v => Sys2Proof.Machine.execActiveBaseWrite r v s
  | .imageErase r n v => Sys2Proof.Machine.execImageErase r n v s
  | .imageCheckDone n => Sys2Proof.Machine.execImageCheckDone n s
  | .logRecordRead r => Sys2Proof.Machine.execLogRecordRead r s
  | .logPositionWrite r v => Sys2Proof.Machine.execLogPositionWrite r v s
  | .logLostRead r => Sys2Proof.Machine.execLogLostRead r s
  | .logClear r v => Sys2Proof.Machine.execLogClear r v s
  | .nonceWrite r nonce => Sys2Proof.Machine.execNonceWrite r nonce s
  | .reportRead r => Sys2Proof.Machine.execReportRead r s
  | .serviceUnlock r token => Sys2Proof.Machine.execServiceUnlock r token s
  | .serviceUnlockExpiry => Sys2Proof.Machine.execServiceUnlockExpiry s
  | .debugOpen r token => Sys2Proof.Machine.execDebugOpen r token s
  | .firmwareWrite r image => Sys2Proof.Machine.execFirmwareWrite r image s
  | .drillPackageCheckDone => Sys2Proof.Machine.execDrillPackageCheckDone s
  | .hello f => Sys2Proof.Machine.execHello f s
  | .accept f => Sys2Proof.Machine.execAccept f s
  | .close f => Sys2Proof.Machine.execClose f s
  | .wkeySet f => Sys2Proof.Machine.execWkeySet f s
  | .wkeyDel f => Sys2Proof.Machine.execWkeyDel f s
  | .ownersSet f => Sys2Proof.Machine.execOwnersSet f s
  | .sessionTimeout session => Sys2Proof.Machine.execSessionTimeout session s
  | .handshakeTimeout station => Sys2Proof.Machine.execHandshakeTimeout station s
  | .getMeasurements h f mlDsa => Sys2Proof.Machine.execGetMeasurements h f mlDsa s
  | .mailboxRead h f ctrl => Sys2Proof.Machine.execMailboxRead h f ctrl s
  | .mailboxWrite h f ctrl => Sys2Proof.Machine.execMailboxWrite h f ctrl s
  | .registerWrite h f off v wide => Sys2Proof.Machine.execRegisterWrite h f off v wide s
  | .evqCtrlWrite h f v => Sys2Proof.Machine.execEvqCtrlWrite h f v s
  | .evqHeadWrite h f v => Sys2Proof.Machine.execEvqHeadWrite h f v s
  | .eventRingWrite h f => Sys2Proof.Machine.execEventRingWrite h f s
  | .queueOpen h f => Sys2Proof.Machine.execQueueOpen h f s
  | .queueClose h f => Sys2Proof.Machine.execQueueClose h f s
  | .submissionDoorbell h f q v => Sys2Proof.Machine.execSubmissionDoorbell h f q v s
  | .completionDoorbell h f q v => Sys2Proof.Machine.execCompletionDoorbell h f q v s
  | .commandFetch h f q e memError => Sys2Proof.Machine.execCommandFetch h f q e memError s
  | .interruptCoalesceTimeout h f q => Sys2Proof.Machine.execInterruptCoalesceTimeout h f q s
  | .bar4Read h f off len => Sys2Proof.Machine.execBar4Read h f off len s
  | .bar4Write h f off v poisoned => Sys2Proof.Machine.execBar4Write h f off v poisoned s
  | .launch a q => Sys2Proof.Machine.execLaunch a q s
  | .jobEnd a job => Sys2Proof.Machine.execJobEnd a job s
  | .copy a q hd => Sys2Proof.Machine.execCopy a q hd s
  | .wopen a q => Sys2Proof.Machine.execWopen a q s
  | .wclose a q => Sys2Proof.Machine.execWclose a q s
  | .mark a q => Sys2Proof.Machine.execMark a q s
  | .hostFence a q => Sys2Proof.Machine.execHostFence a q s
  | .waitEvent a q => Sys2Proof.Machine.execWaitEvent a q s
  | .waitEventTimeout a q => Sys2Proof.Machine.execWaitEventTimeout a q s
  | .signal a q => Sys2Proof.Machine.execSignal a q s
  | .loadImage a q hd => Sys2Proof.Machine.execLoadImage a q hd s
  | .queryProgress a q => Sys2Proof.Machine.execQueryProgress a q s
  | .abortJob a q => Sys2Proof.Machine.execAbortJob a q s
  | .perstAssert h => Sys2Proof.Machine.execPerstAssert h s
  | .perstRelease h => Sys2Proof.Machine.execPerstRelease h s
  | .linkDown h surprise => Sys2Proof.Machine.execLinkDown h surprise s
  | .linkUp h width rate => Sys2Proof.Machine.execLinkUp h width rate s
  | .flr h f => Sys2Proof.Machine.execFlr h f s
  | .d3hotEntry h f => Sys2Proof.Machine.execD3hotEntry h f s
  | .transportWrite st f => Sys2Proof.Machine.execTransportWrite st f s
  | .transportRead st f => Sys2Proof.Machine.execTransportRead st f s
  | .bind st f => Sys2Proof.Machine.execBind st f s
  | .done st f => Sys2Proof.Machine.execDone st f s
  | .transportNack st f => Sys2Proof.Machine.execTransportNack st f s
  | .transferTimer st peer xid handle => Sys2Proof.Machine.execTransferTimer st peer xid handle s
  | .outgoingResend st xid => Sys2Proof.Machine.execOutgoingResend st xid s
  | .busyRetry st xid expired => Sys2Proof.Machine.execBusyRetry st xid expired s
  | .windowClosed st entry => Sys2Proof.Machine.execWindowClosed st entry s
  | .serverPortRetrain st ber => Sys2Proof.Machine.execServerPortRetrain st ber s
  | .footbridgeRetrain n errors bits lanes => Sys2Proof.Machine.execFootbridgeRetrain n errors bits lanes s
  | .drill u pass again => Sys2Proof.Machine.execDrill u pass again s
  | .forcedDrill p => Sys2Proof.Machine.execForcedDrill p s
  | .coalescerSend n => Sys2Proof.Machine.execCoalescerSend n s
  | .recordArrival => Sys2Proof.Machine.execRecordArrival s
  | .replay a => Sys2Proof.Machine.execReplay a s
  | .freezeAbandon a => Sys2Proof.Machine.execFreezeAbandon a s
  | .cellShuffle p cell coreOnly dummy => Sys2Proof.Machine.execCellShuffle p cell coreOnly dummy s
  | .pavilionShuffle p => Sys2Proof.Machine.execPavilionShuffle p s
  | .plotShuffle p => Sys2Proof.Machine.execPlotShuffle p s
  | .doubling p => Sys2Proof.Machine.execDoubling p s
  | .contextSwitch p => Sys2Proof.Machine.execContextSwitch p s
  | .standInFailure p => Sys2Proof.Machine.execStandInFailure p s
  | .doublingEnd reserve => Sys2Proof.Machine.execDoublingEnd reserve s
  | .powerControlTick readings => Sys2Proof.Machine.execPowerControlTick readings s
  | .alertLow g => Sys2Proof.Machine.execAlertLow g s
  | .alertClear g => Sys2Proof.Machine.execAlertClear g s
  | .avsStep rail mv => Sys2Proof.Machine.execAvsStep rail mv s
  | .shortDetected d => Sys2Proof.Machine.execShortDetected d s
  | .pgLoss g => Sys2Proof.Machine.execPgLoss g s
  | .pllLockLoss p => Sys2Proof.Machine.execPllLockLoss p s
  | .pllRelock p bistOk => Sys2Proof.Machine.execPllRelock p bistOk s
  | .derate p => Sys2Proof.Machine.execDerate p s
  | .thermalWarning p temp => Sys2Proof.Machine.execThermalWarning p temp s
  | .thermalDutyStep p temp => Sys2Proof.Machine.execThermalDutyStep p temp s
  | .shed p temp => Sys2Proof.Machine.execShed p temp s
  | .cut p temp => Sys2Proof.Machine.execCut p temp s
  | .thermTrip st temp => Sys2Proof.Machine.execThermTrip st temp s
  | .thermTripRelease => Sys2Proof.Machine.execThermTripRelease s
  | .plotReturn p temp => Sys2Proof.Machine.execPlotReturn p temp s
  | .ageingMeasurement m => Sys2Proof.Machine.execAgeingMeasurement m s
  | .flashSectorWrite => Sys2Proof.Machine.execFlashSectorWrite s
  | .auxPowerOn => Sys2Proof.Machine.execAuxPowerOn s
  | .auxPowerLoss => Sys2Proof.Machine.execAuxPowerLoss s
  | .lodgeResetAssert => Sys2Proof.Machine.execLodgeResetAssert s
  | .lodgeResetRelease => Sys2Proof.Machine.execLodgeResetRelease s
  | .segmentPowerOn => Sys2Proof.Machine.execSegmentPowerOn s
  | .plotWave w => Sys2Proof.Machine.execPlotWave w s
  | .bistDone p r => Sys2Proof.Machine.execBistDone p r s
  | .dealStart a => Sys2Proof.Machine.execDealStart a s
  | .card c missed => Sys2Proof.Machine.execCard c missed s
  | .deckEnd => Sys2Proof.Machine.execDeckEnd s
  | .dealRoundEnd p => Sys2Proof.Machine.execDealRoundEnd p s
  | .linkCheck l ok okAgain lanes again => Sys2Proof.Machine.execLinkCheck l ok okAgain lanes again s
  | .moduleReady => Sys2Proof.Machine.execModuleReady s
  | .ringPortLinkChange portB up => Sys2Proof.Machine.execRingPortLinkChange portB up s
  | .spineBreak east point => Sys2Proof.Machine.execSpineBreak east point s
  | .powerGood g => Sys2Proof.Machine.execPowerGood g s
  | .startupStepBound n => Sys2Proof.Machine.execStartupStepBound n s
  | .segmentTrainingDone n stacksOk => Sys2Proof.Machine.execSegmentTrainingDone n stacksOk s
  | .holdUpCharged mJ full => Sys2Proof.Machine.execHoldUpCharged mJ full s
  | .pcieCompletionTimeout a q => Sys2Proof.Machine.execPcieCompletionTimeout a q s
  | .progressIndexRelease k => Sys2Proof.Machine.execProgressIndexRelease k s
  | .serverLinkTraining st ok gelbuson => Sys2Proof.Machine.execServerLinkTraining st ok gelbuson s
  | .ideKmKeyProg h f key => Sys2Proof.Machine.execIdeKmKeyProg h f key s

end Sys2Proof.Machine
end

