-- ==== Sys2Proof/Machine/Tick.lean ====
section
/-! DEFINITION. The passage of time: what a step does on an empty queue (log 1). -/

namespace Sys2Proof.Machine

/-- The ns counter runs from Lodge boot on (R344, R497). The counter slews toward the master's time by at most
100 µs per second, one part in 10,000: it gains or withholds one ns in 10,000 while a difference remains. -/
def State.tick (s : State) : State :=
  match s.lodge.phase with
  | .off | .held | .rom => s
  | _ =>
    if s.lodge.slew = 0 ∨ s.ns % 10000 ≠ 9999 then { s with ns := s.ns + 1 }
    else if 0 < s.lodge.slew then
      { (s.modLodge (fun l => { l with slew := l.slew - 1 })) with ns := s.ns + 2 }
    else (s.modLodge (fun l => { l with slew := l.slew + 1 }))

end Sys2Proof.Machine
end

