-- ==== Sys2Proof/Safety.lean ====
section
/-! DEFINITION. What counts as a safe state and a contained step, in the terms that the statements use. -/

namespace Sys2Proof.Machine

/-! ### The canonical form -/

/-- The row states of a store: strictly ascending rows from a bound on, none of them as an unlisted row reads. -/
def rowsWfFrom : Nat → Tab RowMeta → Bool
  | _, [] => true
  | lo, (j, x) :: t => decide (lo ≤ j) && decide (x ≠ RowMeta.clean) && rowsWfFrom (j + 1) t

/-- A store is in canonical form: its bytes (`Memory.wf`), and its row states. -/
def Store.wf (m : Store) : Bool := Memory.wf m.bytes && rowsWfFrom 0 m.rows

/-- The invariant of HBM: it is in canonical form, so that equal contents are equal data. -/
def State.safe (s : State) : Bool := s.hbm.wf

/-! ### Contained steps -/

/-- Only pavilion p may differ. -/
def onlyPav (p : Nat) (s t : State) : Prop := t = { s with pavs := t.pavs } ∧ ∀ q, q ≠ p → t.pav q = s.pav q

/-- Only plot p may differ. -/
def onlyPlot (p : Nat) (s t : State) : Prop := t = { s with plots := t.plots } ∧ ∀ q, q ≠ p → t.plot q = s.plot q

/-- Only the Lodge may differ. -/
def onlyLodge (s t : State) : Prop := t = { s with lodge := t.lodge }

/-- Only allotment a may differ. -/
def onlyAllot (a : Nat) (s t : State) : Prop := t = { s with allots := t.allots } ∧ ∀ b, b ≠ a → t.allot b = s.allot b

/-! ### Issue -/

/-- The sequencer of a pavilion with the cadence charged for an instruction, when the cadence lets it go (R167). -/
def State.cadGo (s : State) (p i : Nat) (c : Cad) : Option Seq :=
  match (s.pav p).seq.cadAsk (s.tileLeft p) i c with
  | .go r => some r
  | _ => none

/-- Stream i's next instruction issues now, with its row of the program store clean: the stream offers it, the cadence lets it
go, its port accepts it, nothing refuses it, the scoreboard passes it, and the records of writes have room (R65, R166, R189,
R190, R202). -/
def State.canIssue (s : State) (p i op w : Nat) (x : Issue) : Bool :=
  let q := (s.pav p).seq
  s.offers p i op w && decide ((s.pav p).stage.rowMeta (slotRow (q.stream i).slot) = RowMeta.clean) &&
    (s.cadGo p i x.cad).isSome && x.ready &&
    (x.refuse.or (x.rngs.findSome? (Rng.code (q.tagged && x.unit != 4)))).isNone &&
    q.passes (entryRngs q.tagged x.unit x.rngs) && s.writeRoom p x.rngs

/-- The scoreboard entries that an issuing instruction takes, and the state in which its effect runs: the stream has moved past
it, its port's rotation, the cadence and the issue count have moved on (R167, R189, R192, R202). -/
def State.moved (s : State) (p i op : Nat) (x : Issue) : List Nat × State :=
  let q := (s.pav p).seq
  let t := ((s.cadGo p i x.cad).getD q).take x.unit i (entryRngs q.tagged x.unit x.rngs)
  (t.1, s.depart p i op t.2)

/-- The instruction to issue ends a cadence entry whose last MRUN leaves an accumulation open (R169). -/
def State.passOpen (s : State) (p i : Nat) (x : Issue) : Bool :=
  let q := (s.pav p).seq
  q.openBoundary ((s.cadGo p i x.cad).getD q) x.cad

/-- The state after a tile pass that has issued with effect eff: one that closes a cadence entry under an open accumulation
meets the cadence fault as well (R169). -/
def State.passAfter (s : State) (p i op : Nat) (x : Issue) (eff : List Nat → State → State) : State :=
  let m := s.moved p i op x
  let t := eff m.1 m.2
  if s.passOpen p i x then t.cadenceFault p ((s.pav p).seq.stream i).slot op else t

/-- The state after a vector-engine instruction whose effect is eff has issued and run. -/
def State.veAfter (s : State) (p i : Nat) (v : Vop) (c : Chk) (eff : State → State) : State :=
  let m := s.moved p i v.op (s.veIssue p v)
  (eff m.2).veDone p v (s.vePass p v) (s.veRows p v) (s.veImm p v) c m.1

/-- The vector-engine instruction with opcode op and effect eff completes whenever it can issue: its effect runs, then its entries
go and its check is taken. -/
def VeCompletes (mk : PavIx → StreamIx → Body → Chk → Instr) (op : Nat) (eff : Nat → Nat → Vop → State → State) : Prop :=
  ∀ (p : PavIx) (i : StreamIx) (w : Body) (c : Chk) (s : State), let v := vopOf op w.toNat
    s.canIssue p.val i.val op w.toNat (s.veIssue p.val v) = true →
    exec (mk p i w c) s = .next (s.veAfter p.val i.val v c (eff p.val i.val v))

end Sys2Proof.Machine
end

