-- ==== Sys2Proof/Certificates/Slice0/Obligations.lean ====
section
/-! DEFINITION. The statements for the provers, by part of the module. Each cites the rules of spec/ that it formalises. -/

open Sys2Proof Sys2Proof.Machine

/-! ### The matrix engine and its set-up (R65–R128) -/

/-- R68, R71, R108, R124, R69: a set-up instruction or a tile load that can issue completes: MGEOM sets the three pitches of its
stream; MOSET writes the output context it names from its fields, with pruning off; MPSET writes the pruning mode and the index
address of its context alone; MFSET starts or stops its recorder; MLOAD starts its load. -/
def Obligations.MatrixSetUpCompletes : Prop :=
  ∀ (p : PavIx) (i : StreamIx) (w : Body) (s : State),
    let n := w.toNat
    (s.canIssue p.val i.val 0x38 n (mgeomIssue n) = true →
      exec (.mgeom p i w) s = .next ((s.moved p.val i.val 0x38 (mgeomIssue n)).2.modStream p.val i.val (fun t => { t with
        xpitch := BitVec.ofNat 16 (bits n 119 104), wpitch := BitVec.ofNat 16 (bits n 103 88)
        ypitch := BitVec.ofNat 16 (bits n 87 72) }))) ∧
    (s.canIssue p.val i.val 0x30 n (mosetIssue n) = true →
      let m := s.moved p.val i.val 0x30 (mosetIssue n)
      exec (.moset p i w) s = .next (mosetEff p.val n m.1 m.2)) ∧
    (s.canIssue p.val i.val 0x34 n (mpsetIssue n) = true →
      let m := (s.moved p.val i.val 0x34 (mpsetIssue n)).2
      exec (.mpset p i w) s = .next (m.setCtx p.val (bits n 119 118) { (m.pav p.val).me.ctx (bits n 119 118) with
        pmode := BitVec.ofNat 3 (bits n 117 115), iaddr := BitVec.ofNat 32 (bits n 103 72) })) ∧
    (s.canIssue p.val i.val 0x3C n (mfsetIssue n) = true →
      let m := s.moved p.val i.val 0x3C (mfsetIssue n)
      exec (.mfset p i w) s = .next (mfsetEff p.val i.val n m.1 m.2)) ∧
    (s.canIssue p.val i.val 0x10 n (s.mloadIssue p.val i.val n) = true →
      let t := (s.pav p.val).seq.stream i.val
      let m := s.moved p.val i.val 0x10 (s.mloadIssue p.val i.val n)
      exec (.mload p i w) s = .next (m.2.mload p.val i.val (mloadOf n) (64 * t.wpitch.toNat) t.slot m.1))

/-- R72, R74: an MRUN or an MACC that can issue completes: its pass starts or waits behind the one that runs. -/
def Obligations.MatrixPassCompletes : Prop :=
  ∀ (p : PavIx) (i : StreamIx) (w : Body) (s : State),
    let n := w.toNat
    let xr := s.mrunIssue p.val i.val n
    let xa := s.maccIssue p.val i.val n
    (s.canIssue p.val i.val 0x20 n xr = true →
      exec (.mrun p i w) s = .next (s.passAfter p.val i.val 0x20 xr (mrunEff p.val i.val n (s.pav p.val) xr.rngs))) ∧
    (s.canIssue p.val i.val 0x28 n xa = true →
      exec (.macc p i w) s = .next (s.passAfter p.val i.val 0x28 xa (maccEff p.val i.val n (s.pav p.val) xa.rngs)))

/-- R72, R75, R77, R83, R91, R94, R122, R126: the matrix engine's own events complete. The loader's end leaves no load running and its entries
released; a drain that has begun, else the running pass, issues its rows; a drain begins once no check shadow and no pruned
row is in its way; a verdict takes the oldest row in flight, and a row that fails it is poisoned and reported. A clean shift takes the oldest
check shadow; a retirement between passes that the repair map takes writes the map and its record; an overfull forecast slot is disabled,
recorded and reported; a window's end takes one window of audited outputs off, with the misses among them. -/
def Obligations.MatrixEventsComplete : Prop :=
  ∀ (p : PavIx) (s : State), let x := s.pav p.val
    let m := x.me
    (m.loading = true → (∀ r, m.running = some r → r.macc = false ∨ r.issued = 0) →
      exec (.tileLoadDone p) s = .next (((s.modME p.val (fun e => { e with loading := false, loadEntries := [] })).release
        p.val m.loadEntries).settlePosts p.val)) ∧
    (∀ r k, (s.plot (plotOf p.val)).e.on = true → m.drain = some (r, true, k) →
      exec (.rowIssue p) s = .next (s.drainRows p.val r k 513)) ∧
    (∀ r, (s.plot (plotOf p.val)).e.on = true → (∀ d k, m.drain ≠ some (d, true, k)) → m.running = some r →
      exec (.rowIssue p) s = .next (if r.macc then s.maccStep p.val r else s.mrunStep p.val r)) ∧
    (∀ r k, (s.plot (plotOf p.val)).e.on = true → m.drain = some (r, false, k) → m.shadows = [] → m.prune = [] →
      exec (.drainStart p) s = .next (s.drainRows p.val r k 513)) ∧
    (∀ f rest o, m.inFlight = f :: rest →
      let u := s.modME p.val (fun m => { m with inFlight := rest })
      let v := if f.finding o = .clean then u
        else (u.poisonRow p.val f rest).meFault p.val f.macc ((f.dest.head?.map (·.2)).getD 0) (f.finding o)
      (f.last = false → exec (.rowVerdict p o) s = .next v) ∧
      (∀ r, f.last = true → (v.pav p.val).me.finishing.find? (fun r => r.id == f.pass) = some r →
        exec (.rowVerdict p o) s = .next (v.passDone p.val r))) ∧
    (∀ h rest os, m.shadows = h :: rest → h.findings os = [] → h.last = false →
      exec (.shadowShift p os) s = .next (s.modME p.val (fun m => { m with shadows := rest }))) ∧
    (∀ (column : Bool) (line : Fin 530) m, x.me.retiring = [(column, line.val)] → x.me.running = none →
      line.val < (if column then 530 else 528) → retireIn x.repair column line.val = some m → s.allotOfPav p.val = none →
      exec (.lineRetirement p column line) s = .next (((s.modME p.val (fun e => { e with retiring := [] })).modPav p.val
        (fun v => { v with repair := m })).retireRec p.val 1 3)) ∧
    (∀ slot : Fin 64, let c := tget FcSlot.cleared x.forecast slot.val
      s.tooMany p.val c = true → c.disabled = false →
      exec (.forecastSlotDisabled p slot) s =
        .next (let t := s.modPav p.val (fun x => { x with
            forecast := tmod .cleared x.forecast slot.val (fun c => { c with disabled := true }) })
          (t.record (t.pavRec p.val 0x15 0 2 slot.val)).event 0x0002 (64 * p.val + slot.val) (0x2200 + p.val) 8
            (((t.record (t.pavRec p.val 0x15 0 2 slot.val)).allotOfPav p.val).getD 0x1F))) ∧
    (∀ slot : Fin 64, let c := tget FcSlot.cleared x.forecast slot.val
      let n := 2 ^ (s.limits p.val).window.toNat
      n ≤ c.audited → (c.disabled = true ∨ s.tooMany p.val c = false) →
      exec (.forecastWindowEnd p slot) s = .next (s.modPav p.val (fun x => { x with
        forecast := tmod .cleared x.forecast slot.val (fun c => c.nextWindow n) })))

/-- R162, R172: an MUNPK or MPACK that can issue completes with every square of its tile. -/
def Obligations.UnpackCompletes : Prop :=
  ∀ (p : PavIx) (i : StreamIx) (w : Body) (c : Chk) (s : State),
    let n := w.toNat
    let t := (s.pav p.val).seq.stream i.val
    (s.canIssue p.val i.val 0x18 n (munpkIssue t n) = true →
      let m := s.moved p.val i.val 0x18 (munpkIssue t n)
      exec (.munpk p i w c) s = .next (munpkEff p.val i.val n c t m.1 m.2)) ∧
    (s.canIssue p.val i.val 0x1C n (mpackIssue t n) = true →
      let m := s.moved p.val i.val 0x1C (mpackIssue t n)
      exec (.mpack p i w c) s = .next (mpackEff p.val i.val n c t m.1 m.2))

/-! ### The vector engine (R134–R155) -/

/-- R135, R141: every arithmetic, select-of-extremes and move instruction of the vector engine that can issue completes with its
own effect, its scoreboard entries released. -/
def Obligations.VectorArithmeticCompletes : Prop :=
  VeCompletes .vadd 0x40 vaddEff ∧
  VeCompletes .vsub 0x41 vsubEff ∧
  VeCompletes .vmul 0x42 vmulEff ∧
  VeCompletes .vfma 0x43 vfmaEff ∧
  VeCompletes .vfmai 0x44 vfmaiEff ∧
  VeCompletes .vaddi 0x45 vaddiEff ∧
  VeCompletes .vmuli 0x46 vmuliEff ∧
  VeCompletes .vmax 0x47 vmaxEff ∧
  VeCompletes .vmin 0x48 vminEff ∧
  VeCompletes .vabs 0x49 vabsEff ∧
  VeCompletes .vneg 0x4A vnegEff ∧
  VeCompletes .vbcast 0x4B vbcastEff

/-- R138, R141, R142: every integer, compare, select and predicate instruction of the vector engine that can issue completes with its
own effect. -/
def Obligations.VectorIntegerCompletes : Prop :=
  VeCompletes .viadd 0x4C viaddEff ∧
  VeCompletes .vimul 0x4D vimulEff ∧
  VeCompletes .vilog 0x4E vilogEff ∧
  VeCompletes .vishi 0x4F vishiEff ∧
  VeCompletes .vcmp 0x50 vcmpEff ∧
  VeCompletes .vcmpi 0x51 vcmpiEff ∧
  VeCompletes .vicmp 0x52 vicmpEff ∧
  VeCompletes .vsel 0x53 vselEff ∧
  VeCompletes .vpst 0x54 vpstEff ∧
  VeCompletes .vpld 0x55 vpldEff ∧
  VeCompletes .vpcnt 0x56 vpcntEff

/-- R42, R55, R141: every conversion and every transcendental instruction of the vector engine that can issue completes with its own
effect. -/
def Obligations.VectorConvertCompletes : Prop :=
  VeCompletes .vcvt 0x58 vcvtEff ∧
  VeCompletes .vpkmx 0x59 vpkmxEff ∧
  VeCompletes .vupmx 0x5A vupmxEff ∧
  VeCompletes .vsplit 0x5B vsplitEff ∧
  VeCompletes .vi2f 0x5C vi2fEff ∧
  VeCompletes .vf2i 0x5D vf2iEff ∧
  VeCompletes .vrcp 0x60 vrcpEff ∧
  VeCompletes .vrsqrt 0x61 vrsqrtEff ∧
  VeCompletes .vexp2 0x62 vexp2Eff ∧
  VeCompletes .vlog2 0x63 vlog2Eff ∧
  VeCompletes .vtanh 0x64 vtanhEff ∧
  VeCompletes .vsigm 0x65 vsigmEff

/-- R143, R144, R146: every reduction, scan, gather and flag instruction of the vector engine that can issue completes with its own
effect. -/
def Obligations.VectorReduceCompletes : Prop :=
  VeCompletes .vred 0x68 vredEff ∧
  VeCompletes .vscan 0x69 vscanEff ∧
  VeCompletes .vgath 0x70 vgathEff ∧
  VeCompletes .vflags 0x78 vflagsEff


/-! ### The DMA engine (R193, R198, R260–R262) -/

/-- R193, R198, R260, R261, R262: a DCOPY, a PSEND and a PRECV that can issue take a free place and start; a DCOPY whose parts
or slots have all moved, its plot's E domain on, ends, with a check failure where the digests of a local one differ; a PRECV takes the first whole item
that waits at its port. -/
def Obligations.DmaCompletes : Prop :=
  (∀ (p : PavIx) (i : StreamIx) (w : Body) (s : State),
    let n := w.toNat
    let q := (s.pav p.val).seq
    let slot := (q.stream i.val).slot
    let k := q.freePlace.getD 0
    (s.canIssue p.val i.val 0x80 n (s.dcopyIssue p.val n) = true →
      let m := s.moved p.val i.val 0x80 (s.dcopyIssue p.val n)
      exec (.dcopy p i w) s = .next (dcopyEff p i.val n slot k m.1 m.2)) ∧
    (s.canIssue p.val i.val 0x81 n (s.psendIssue p.val n) = true →
      let x := s.psendIssue p.val n
      let m := s.moved p.val i.val 0x81 x
      exec (.psend p i w) s = .next (m.2.psendGo p.val k (dmaOf m.2 p.val i.val slot n .psend x.rngs m.1))) ∧
    (s.canIssue p.val i.val 0x82 n (s.precvIssue p.val n) = true →
      let x := s.precvIssue p.val n
      let m := s.moved p.val i.val 0x82 x
      exec (.precv p i w) s = .next (m.2.precvStart p.val k (dmaOf m.2 p.val i.val slot n .precv x.rngs m.1)))) ∧
  (∀ (p : PavIx) (k : Fin 4) (x : Dma) (s : State),
    (s.pav p.val).seq.place k.val = some x → x.kind = .dcopy → (s.plot (plotOf p.val)).e.on = true →
    s.dcopyDone p.val x = true →
    let al := (s.allotOfPav p.val).getD 16
    exec (.dcopyFinish p k .landed) s = .next (s.dcopyLand p.val k.val al x false) ∧
      (x.parts = none → exec (.dcopyFinish p k .digestMismatch) s = .next (s.dcopyLand p.val k.val al x true))) ∧
  (∀ (p : PavIx) (port : Fin 16) (k : Nat) (x : Dma) (item rest : List Beat) (s : State),
    let home := s.portsOf p.val
    (s.pav p.val).seq.onPort .precv port.val = some (k, x) → x.tagWait = none → (s.plot (plotOf p.val)).e.on = true →
    firstItem (tget [] (s.pav home).inBuf port.val) = some (item, rest) →
    exec (.precvItem p port) s =
      .next ((s.modPav home (fun y => { y with inBuf := tset y.inBuf port.val rest })).precvLand p.val k x item))

/-! ### Control instructions (R191–R196) -/

/-- R191, R192, R194, R196: a control instruction that can issue completes. Its stream has moved on; NOP does nothing more; WAIT
holds its stream for a non-zero count; HALT ends it; LOOP opens a level; SYNCW holds it while its counter is below the value;
SYNCA adds to a counter, modulo 2^32; FENCE holds it while earlier work is unfinished; MARKP adds a mark point and opens the
stream's next interval; CPOST joins the posts that wait for earlier work. -/
def Obligations.ControlCompletes : Prop :=
  ∀ (p : PavIx) (i : StreamIx) (w : Body) (s : State),
    let n := w.toNat
    let v := BitVec.ofNat 32 (bits n 63 32)
    let c := bits n 119 116
    let ctl := fun (op : Nat) (a b d e : Bool) => s.canIssue p.val i.val op n (ctlIssue (ctlRefuse n a b d e))
    let m := fun (op : Nat) (a b d e : Bool) => (s.moved p.val i.val op (ctlIssue (ctlRefuse n a b d e))).2
    (ctl 0 false false false false = true → exec (.nop p i w) s = .next (m 0 false false false false)) ∧
    (ctl 1 false false true false = true → exec (.wait p i w) s = .next
      (if v = 0 then m 1 false false true false else (m 1 false false true false).hold p.val i.val (.wait v))) ∧
    (ctl 2 false false false false = true → exec (.halt p i w) s = .next
      ((m 2 false false false false).modStream p.val i.val (fun t => { t with halted := true }))) ∧
    (let x := ctlIssue (loopRefuse ((s.pav p.val).seq.stream i.val) n)
     s.canIssue p.val i.val 3 n x = true → exec (.loop p i w) s = .next
        ((s.moved p.val i.val 3 x).2.modStream p.val i.val (fun u => { u with
          loops := loopLevel ((s.pav p.val).seq.stream i.val).slot n :: u.loops }))) ∧
    (ctl 4 true false true false = true → exec (.syncw p i w) s = .next (let t := m 4 true false true false
      if v.toNat ≤ (lget 0 (t.pav p.val).seq.ctrs c).toNat then t else t.hold p.val i.val (.sync c v))) ∧
    (ctl 5 true false true false = true → exec (.synca p i w) s = .next
      ((m 5 true false true false).modSeq p.val (fun q => { q with ctrs := q.ctrs.set c (lget 0 q.ctrs c + v) }))) ∧
    (s.canIssue p.val i.val 6 n (cpostIssue n) = true →
      let m := s.moved p.val i.val 6 (cpostIssue n)
      exec (.cpost p i w) s = .next ((m.2.modSeq p.val (fun q => { q with
        posts := q.posts ++ [(i.val, q.issued - 1, bits n 31 0, v, m.1.headD 0)] })).settlePosts p.val)) ∧
    (ctl 7 false false false false = true → exec (.fence p i w) s = .next (let t := m 7 false false false false
      let k := (t.pav p.val).seq.issued - 1
      if (t.pav p.val).finishedBefore k then t else t.hold p.val i.val (.fence k))) ∧
    (ctl 8 false false true false = true → (s.pav p.val).seq.streams.length = 4 →
      ∃ t, exec (.markp p i w) s = .next t ∧
        ((t.pav p.val).seq.stream i.val).interval =
          (((m 8 false false true false).pav p.val).seq.stream i.val).interval + 1 ∧
        (((t.pav p.val).seq.stream i.val).markPts.getLast?).map (·.tag) = some v)

/-- R191, R194, R195, R202: what ends or tries a hold completes: the count of a WAIT, a counter that has reached its value, a
waiting instruction that is tried again, and a stall that has outlived the stall limit, which is program fault 0x03. -/
def Obligations.HoldsComplete : Prop :=
  ∀ (p : PavIx) (i : StreamIx) (s : State),
    let q := (s.pav p.val).seq
    let t := q.stream i.val
    (∀ n, t.hold = .wait n → t.since + s.acyclesOf p.val n.toNat ≤ s.ns →
      exec (.waitEnd p i) s = .next (s.hold p.val i.val .none)) ∧
    (∀ c v, t.hold = .sync c v → v.toNat ≤ (lget 0 q.ctrs c).toNat →
      exec (.syncwRelease p i) s = .next (s.hold p.val i.val .none)) ∧
    (s.streamOpen p.val i.val = true → t.hold ≠ .none → s.yields p.val i.val (s.nextOp p.val i.val) = false →
      exec (.stalledIssue p i) s = .next (s.issueAny p i.val)) ∧
    (s.issuing p.val = true → i.val < q.nstr → t.halted = false → t.hold.counts = true →
      t.since + s.acyclesOf p.val (2 ^ (s.limits p.val).stall.toNat) ≤ s.ns →
      exec (.stallLimit p i) s = .next (s.programFault p.val 3 t.slot (s.nextOp p.val i.val)))

/-! ### Runs and marks (R186, R187, R196, R197, R433) -/

/-- R187, R196, R197, R433: a run that is due starts; one whose streams have halted and whose work has finished,
ends; a due mark is taken; the oldest mark that has finished is verified; a due read-back runs. -/
def Obligations.RunsComplete : Prop :=
  ∀ (p : PavIx) (s : State), let v := s.pav p.val
    (v.seq.due = true → v.seq.running = false → v.seq.stopped = false → v.seq.frozen = false → v.drillDue = false →
      v.enable ≠ .failed → (s.plot (plotOf p.val)).e.on = true → exec (.runStart p) s = .next (s.startRun p.val)) ∧
    (v.seq.running = true → v.seq.stopped = false → v.seq.frozen = false → v.seq.live.all (·.halted) = true →
      v.outstanding = [] → v.me.inFlight = [] →
      exec (.runEnd p) s = .next (s.endRun p.val)) ∧
    (∀ tag, v.seq.markDue = some tag → v.seq.running = true → v.seq.stopped = false → v.seq.frozen = false →
      (v.seq.nstr = 1 ∨ v.seq.cadBoundary = true ∨ v.seq.cadEnded = true) →
      exec (.markTaken p) s = .next (s.takeMark p.val tag)) ∧
    (∀ r t a, v.seq.taken = r :: t → s.allotOfPav p.val = some a → v.seq.frozen = false → v.seq.stopped = false →
      v.seq.d1Pending = false → v.seq.d2Pending = false → v.markFinished r = true →
      exec (.markVerified p) s =
        .next ((s.modSeq p.val (fun q => { q with taken := r.closed q.ctrs :: t })).settleMarks a)) ∧
    (∀ r a, v.seq.verified.head? = some r → s.allotOfPav p.val = some a → v.seq.frozen = false → v.seq.stopped = false →
      (v.seq.d1Pending = true → exec (.digestReadback p .d1) s = .next (s.readBack p.val a .d1 r.number)) ∧
      (v.seq.d1Pending = false → v.seq.d2Pending = true → v.seq.taken ≠ [] →
        exec (.digestReadback p .d2) s = .next (s.readBack p.val a .d2 r.number)))

/-! ### The cell cores (R206–R215) -/

/-- R206: what writing a result does. The register that is written reads the value, except that g0 still reads zero; every other
register, the control registers and the move engine are as before, and the core stands at the next instruction. -/
def Obligations.CoreResultWrites : Prop :=
  ∀ (k : Core) (gd g : RegIx) (v : Word), k.regs.length = 32 →
    (k.result gd v).reg g = (if g = 0 then 0 else if g = gd then v else k.reg g) ∧
    (k.result gd v).pc = k.pc + 4 ∧
    k.result gd v = { k with regs := (k.result gd v).regs, pc := k.pc + 4 } ∧
    (gd = 0 → (k.result gd v).regs = k.regs)

/-- R208, R209: at a presented position whose core can issue, every integer instruction but a shift, a division and a remainder
writes its result and goes on. -/
def Obligations.CoreIntegerCompletes : Prop :=
  ∀ (c : CellXY) (p n : Nat) (s : State), cellNo c = some (p, n) → s.coreRuns p n = true →
    ∀ (gd ga gb : RegIx) (b : Src) (imm : BitVec 21),
    let k := (s.pav p).core n
    let x := k.reg ga
    let y := k.src b
    let z := k.reg gb
    let r := fun (v : Word) => (Host.Outcome.next (s.setCore p n (k.result gd v)) : Res)
    exec (.add c gd ga b) s = r (x + y) ∧
    exec (.sub c gd ga b) s = r (x - y) ∧
    exec (.and c gd ga b) s = r (x &&& y) ∧
    exec (.or c gd ga b) s = r (x ||| y) ∧
    exec (.xor c gd ga b) s = r (x ^^^ y) ∧
    exec (.setLessThan c true gd ga b) s = r (if x.toNat < y.toNat then 1 else 0) ∧
    exec (.setLessThan c false gd ga b) s = r (if x.toInt < y.toInt then 1 else 0) ∧
    exec (.min c gd ga b) s = r (if x.toInt < y.toInt then x else y) ∧
    exec (.max c gd ga b) s = r (if x.toInt < y.toInt then y else x) ∧
    exec (.loadUpperImmediate c gd imm) s = r (BitVec.ofNat 32 (2048 * imm.toNat)) ∧
    exec (.mul c gd ga gb) s = r (BitVec.ofNat 32 (x.toNat * z.toNat)) ∧
    exec (.mulh c gd ga gb) s = r (BitVec.ofInt 32 (x.toInt * z.toInt / 2 ^ 32)) ∧
    exec (.mulhu c gd ga gb) s = r (BitVec.ofNat 32 (x.toNat * z.toNat / 2 ^ 32))

/-- R208: shifts by less than 32 and divisions whose result the manual fixes complete with that result; on other operands the
instruction completes too, with a free value that nothing constrains (log 16; the model's choice), and takes its number. -/
def Obligations.CoreDivideShiftCompletes : Prop :=
  ∀ (c : CellXY) (p n : Nat) (s : State), cellNo c = some (p, n) → s.coreRuns p n = true →
    ∀ (gd ga gb : RegIx) (b : Src),
    let k := (s.pav p).core n
    let x := k.reg ga
    let y := k.src b
    let z := k.reg gb
    let r := fun (v : Word) => (Host.Outcome.next (s.setCore p n (k.result gd v)) : Res)
    let free := fun (op : Nat) (u : Word) =>
      (Host.Outcome.next (s.fresh.2.setCore p n (k.result gd (Config.coreOpen op x u s.free))) : Res)
    (y.toNat < 32 →
      exec (.shifts c .left gd ga b) s = r (BitVec.ofNat 32 (x.toNat * 2 ^ y.toNat)) ∧
      exec (.shifts c .rightLogical gd ga b) s = r (BitVec.ofNat 32 (x.toNat / 2 ^ y.toNat)) ∧
      exec (.shifts c .rightArith gd ga b) s = r (BitVec.ofInt 32 (x.toInt / 2 ^ y.toNat))) ∧
    (32 ≤ y.toNat → exec (.shifts c .left gd ga b) s = free 1 y ∧ exec (.shifts c .rightLogical gd ga b) s = free 2 y ∧
      exec (.shifts c .rightArith gd ga b) s = free 3 y) ∧
    (z ≠ 0 → exec (.divu c gd ga gb) s = r (BitVec.ofNat 32 (x.toNat / z.toNat)) ∧
      exec (.remu c gd ga gb) s = r (BitVec.ofNat 32 (x.toNat % z.toNat))) ∧
    (0 ≤ x.toInt → 0 < z.toInt → exec (.div c gd ga gb) s = r (BitVec.ofInt 32 (x.toInt / z.toInt)) ∧
      exec (.rem c gd ga gb) s = r (BitVec.ofInt 32 (x.toInt % z.toInt))) ∧
    (∀ q : Int, z.toInt ≠ 0 → x.toInt = q * z.toInt → q < 2 ^ 31 → exec (.div c gd ga gb) s = r (BitVec.ofInt 32 q) ∧
      exec (.rem c gd ga gb) s = r 0) ∧
    (z = 0 → exec (.div c gd ga gb) s = free 4 z ∧ exec (.rem c gd ga gb) s = free 5 z ∧
      exec (.divu c gd ga gb) s = free 6 z ∧ exec (.remu c gd ga gb) s = free 7 z)

/-- R206, R208: the FP32 instructions complete: the exact result rounded once to nearest even goes to gd, and its flags join
fflags; of a NaN or two zeros of different signs FMIN and FMAX write a free value (log 16; the model's choice), as a conversion
out of the range of INT32 does. -/
def Obligations.CoreFloatCompletes : Prop :=
  ∀ (c : CellXY) (p n : Nat) (s : State), cellNo c = some (p, n) → s.coreRuns p n = true →
    ∀ (gd ga gb : RegIx) (rel : FRel),
    let k := (s.pav p).core n
    let x := k.fp ga
    let y := k.fp gb
    let r := fun (v : Word × Flags) => (Host.Outcome.next (s.setCore p n ((k.result gd v.1).flagged v.2)) : Res)
    let free := fun (op : Nat) (a b : Word) (f : Flags) => (Host.Outcome.next (s.fresh.2.setCore p n
      ((k.result gd (Config.coreOpen op a b s.free)).flagged f)) : Res)
    exec (.fadd c gd ga gb) s = r (fpRound (x.add y)) ∧
    exec (.fsub c gd ga gb) s = r (fpRound (x.add y.neg)) ∧
    exec (.fmul c gd ga gb) s = r (fpRound (x.mul y)) ∧
    exec (.ffma c gd ga gb) s = r (fpRound (x.fma y (k.fp gd))) ∧
    exec (.fdiv c gd ga gb) s = r (fpRound (x.div y)) ∧
    exec (.fsqrt c gd ga) s = r (fpRound x.sqrt) ∧
    exec (.fcmp c rel gd ga gb) s = r (if (compareFV (FRel.code rel) x y).1 then 1 else 0, (compareFV (FRel.code rel) x y).2) ∧
    (x.isNan = false → y.isNan = false → (x.isZero = false ∨ y.isZero = false) →
      exec (.fmin c gd ga gb) s = r (if x.lt y then k.reg ga else k.reg gb, 0) ∧
      exec (.fmax c gd ga gb) s = r (if x.lt y then k.reg gb else k.reg ga, 0)) ∧
    ((x.isNan = true ∨ y.isNan = true) →
      exec (.fmin c gd ga gb) s = free 8 (k.reg ga) (k.reg gb) (snanFlag [x, y]) ∧
      exec (.fmax c gd ga gb) s = free 9 (k.reg ga) (k.reg gb) (snanFlag [x, y])) ∧
    exec (.fcvt c .intToFp gd ga) s = r (fpRound (FV.ofInt (k.reg ga).toInt 0, 0)) ∧
    (∀ v f, fpToInt x = (some v, f) → exec (.fcvt c .fpToInt gd ga) s = r (v, f)) ∧
    (∀ f, fpToInt x = (none, f) → exec (.fcvt c .fpToInt gd ga) s = free 10 (k.reg ga) 0 f)

/-- R208, R210, R214: a load or a store at an aligned address of its own cell below the monitor region completes, also in task
mode: a load whose row is delivered clean writes what the row holds, a short one below bits that are free (log 16; the model's
choice); a store merges its bytes into the row. -/
def Obligations.CoreMemoryCompletes : Prop :=
  ∀ (c : CellXY) (p n : Nat) (s : State), cellNo c = some (p, n) → s.coreRuns p n = true → n < 1024 →
    ∀ (z : MemSize) (gd ga : RegIx) (off : BitVec 16),
    let k := (s.pav p).core n
    let a := k.address ga off
    let g := 0x40000 * n + a
    let row := memRead (s.pav p).garden.bytes (64 * s.gardenRow p (64 * (g / 64))) 64
    a < 0x3F000 → (s.pav p).pool.getLsbD (poolBlock n) = false →
    (a % MemSize.bytes z = 0 → (s.pav p).garden.rowMeta (s.gardenRow p (64 * (g / 64))) = RowMeta.clean →
      exec (.ld c z gd ga off) s = .next (s.fresh.2.setCore p n
        (k.result gd (loaded z (leNat (bslice row (g % 64) (MemSize.bytes z))) (Config.free32 s.free))))) ∧
    (a % MemSize.bytes z = 0 →
      exec (.st c z gd ga off) s = .next ((s.setCore p n k.advance).coreStore p g (MemSize.bytes z) (k.reg gd).toNat)) ∧
    (a % 8 = 0 → gd.val % 2 = 0 → (s.pav p).garden.rowMeta (s.gardenRow p (64 * (g / 64))) = RowMeta.clean →
      exec (.ldp c gd ga off) s = .next (s.setCore p n (((k.set gd (BitVec.ofNat 32 (leNat (bslice row (g % 64) 8)))).result
        (pairHigh gd) (BitVec.ofNat 32 (leNat (bslice row (g % 64) 8) / 2 ^ 32)))))) ∧
    (a % 8 = 0 → gd.val % 2 = 0 →
      exec (.stp c gd ga off) s = .next ((s.setCore p n k.advance).coreStore p g 8
        ((k.reg gd).toNat + 2 ^ 32 * (k.reg (pairHigh gd)).toNat)))

/-- R210, R214: where a core's access traps. A misaligned address takes cause 0x02, and one at or above the monitor region in task
mode, or beyond the cell in either mode, cause 0x03; the trap saves pc in epc and the cause, enters the monitor at 0x3F000, writes its
record and stops the job. -/
def Obligations.CoreAccessTraps : Prop :=
  ∀ (c : CellXY) (p n : Nat) (s : State), cellNo c = some (p, n) → s.coreRuns p n = true →
    ∀ (z : MemSize) (gd ga : RegIx) (off : BitVec 16),
    let k := (s.pav p).core n
    let a := k.address ga off
    let stop := fun (cause : Nat) => let r := s.trapRec p n cause k
      (Host.Outcome.next (((s.setCore p n { k with
        cause := BitVec.ofNat 32 cause, epc := k.pc, monitor := true, pc := 0x3F000, suspended := false }).record r).stopJobOf
          p stOutOfRange (s.recordNumber r)) : Res)
    (a % MemSize.bytes z ≠ 0 → exec (.ld c z gd ga off) s = stop 2 ∧ exec (.st c z gd ga off) s = stop 2) ∧
    (a % MemSize.bytes z = 0 → (s.pav p).pool.getLsbD (poolBlock n) = false →
      (0x40000 ≤ a ∨ (k.monitor = false ∧ 0x3F000 ≤ a)) →
      exec (.ld c z gd ga off) s = stop 3 ∧ exec (.st c z gd ga off) s = stop 3) ∧
    (gd.val % 2 = 1 → exec (.ldp c gd ga off) s = stop 1 ∧ exec (.stp c gd ga off) s = stop 1)

/-- R208, R209, R213: branches, jumps, signals, waits and the fence of a core that can issue complete. -/
def Obligations.CoreFlowCompletes : Prop :=
  ∀ (c : CellXY) (p n : Nat) (s : State), cellNo c = some (p, n) → s.coreRuns p n = true →
    ∀ (cond : BranchCond) (gd ga gb : RegIx) (off : BitVec 16) (far : BitVec 26),
    let k := (s.pav p).core n
    let r := fun (k : Core) => (Host.Outcome.next (s.setCore p n k) : Res)
    (branchTaken cond (k.reg ga) (k.reg gb) = true →
      exec (.compareAndBranch c cond ga gb off) s = r { k with pc := k.pc + 4 * off.signExtend 32 }) ∧
    (branchTaken cond (k.reg ga) (k.reg gb) = false → exec (.compareAndBranch c cond ga gb off) s = r k.advance) ∧
    exec (.jump c far) s = r { k with pc := k.pc + 4 * far.signExtend 32 } ∧
    exec (.jumpAndLink c far) s = r (({ k with pc := k.pc + 4 * far.signExtend 32 } : Core).set Config.linkReg (k.pc + 4)) ∧
    exec (.sigc c ga gb) s = .next ((s.setCore p n k.advance).emit
      (.packet (signalPacket p n ((k.reg ga).toNat % 16) (k.reg gb).toNat))) ∧
    exec (.rdctr c gd ga) s = r (k.result gd (lget 0 (s.pav p).seq.ctrs ((k.reg ga).toNat % 16))) ∧
    (k.watchHit = true → exec (.wfe c) s = r { k with pc := k.pc + 4, watchHit := false }) ∧
    (k.watchHit = false → exec (.wfe c) s = r { k with pc := k.pc + 4, suspended := true }) ∧
    exec (.coreFence c) s = r k.advance

/-- R213: a core that wfe has suspended goes on when its watched row has been written. -/
def Obligations.CoreWakes : Prop :=
  ∀ (c : CellXY) (p n : Nat) (s : State), cellNo c = some (p, n) →
    let k := (s.pav p).core n
    k.suspended = true → k.watchHit = true → k.held = false → (s.pav p).gated n = false →
    exec (.wfeWake c) s = .next (s.setCore p n { k with suspended := false, watchHit := false })

/-- R214, R215: csrr and csrw complete in the monitor on every listed register, in task mode on those that task code may use;
the trap instruction enters the monitor with cause 0x06, and tret in the monitor returns to epc. Elsewhere they take cause 0x01
(log 80; the model's choice for tret in task mode). -/
def Obligations.CoreSystemCompletes : Prop :=
  ∀ (c : CellXY) (p n : Nat) (s : State), cellNo c = some (p, n) → s.coreRuns p n = true →
    ∀ (g : RegIx) (a : BitVec 12),
    let k := (s.pav p).core n
    let r := fun (k : Core) => (Host.Outcome.next (s.setCore p n k) : Res)
    (∀ v, s.csr p n k a.toNat = some v → (k.monitor = true ∨ (2 ≤ a.toNat ∧ a.toNat ≤ 6)) →
      exec (.csrr c g a) s = r (k.result g v)) ∧
    ((k.monitor = true ∧ a.toNat ≤ 6) ∨ a.toNat = 2 ∨ a.toNat = 3 →
      exec (.csrw c g a) s = r (k.csrWrite a.toNat (k.reg g)).advance) ∧
    (6 < a.toNat → exec (.csrr c g a) s = .next (s.trapStop p n 1) ∧ exec (.csrw c g a) s = .next (s.trapStop p n 1)) ∧
    exec (.trap c) s = r { k with cause := 6, epc := k.pc, monitor := true, pc := 0x3F000, suspended := false } ∧
    (k.monitor = true → exec (.tret c) s = r { k with monitor := false, pc := k.epc }) ∧
    (k.monitor = false → exec (.tret c) s = .next (s.trapStop p n 1))

/-- R211, R212: movq with room in its queue takes the descriptor at ga whose row is delivered clean; a move whose descriptor is at the
head of the queue starts when a place is free and, with ord, every earlier one has finished; a move ends when its last part has landed, or in a
move fault when a part has failed. -/
def Obligations.MovesComplete : Prop :=
  ∀ (c : CellXY) (p n : Nat) (s : State), cellNo c = some (p, n) →
    let k := (s.pav p).core n
    (∀ (ga : RegIx), s.coreRuns p n = true → k.moveQueue.length < 16 → n < 1024 → (k.reg ga).toNat % 32 = 0 →
      (k.reg ga).toNat < 0x3F000 → (s.pav p).pool.getLsbD (poolBlock n) = false →
      let g := 0x40000 * n + (k.reg ga).toNat
      (s.pav p).garden.rowMeta (s.gardenRow p (64 * (g / 64))) = RowMeta.clean →
      exec (.movq c ga) s = .next (s.setCore p n { k with
        pc := k.pc + 4
        moveQueue := k.moveQueue ++ [BitVec.ofNat 256 (leNat (bslice
          (memRead (s.pav p).garden.bytes (64 * s.gardenRow p (64 * (g / 64))) 64) (g % 64) 32))] })) ∧
    (∀ d rest i, k.moveQueue = d :: rest → k.movePlace = some i → s.moverRuns p n = true →
      ((moveOf d).ord = false ∨ k.moves.all (·.isNone) = true) →
      exec (.moveTransferStart c) s = .next (s.moveStart c p n k d i)) ∧
    (∀ (i : Fin 4) x, lget none k.moves i.val = some x →
      (s.moverRuns p n = true → x.parts.over = true → x.parts.fault = 0 → exec (.moveTransferFinish c i .landed) s =
        .next (s.moveLand p n i.val ((s.allotOfPav p).getD 16) (moveOf x.d))) ∧
      (x.parts.fault ≠ 0 → exec (.moveTransferFinish c i .failed) s =
        .next ((s.setCore p n { k with moves := k.moves.set i.val none }).moveFault p n (moveOf x.d))))

/-- The core instructions that touch no memory, send nothing and cannot trap, with their cell. -/
def coreOnly : Instr → Option CellXY
  | .add c _ _ _ | .sub c _ _ _ | .and c _ _ _ | .or c _ _ _ | .xor c _ _ _ | .shifts c _ _ _ _ | .setLessThan c _ _ _ _
  | .min c _ _ _ | .max c _ _ _ | .loadUpperImmediate c _ _ | .mul c _ _ _ | .mulh c _ _ _ | .mulhu c _ _ _ | .div c _ _ _
  | .divu c _ _ _ | .rem c _ _ _ | .remu c _ _ _ | .fadd c _ _ _ | .fsub c _ _ _ | .fmul c _ _ _ | .ffma c _ _ _
  | .fmin c _ _ _ | .fmax c _ _ _ | .fcmp c _ _ _ _ | .fcvt c _ _ _ | .fdiv c _ _ _ | .fsqrt c _ _
  | .compareAndBranch c _ _ _ _ | .jump c _ | .jumpAndLink c _ | .rdctr c _ _ | .wfe c | .wfeWake c | .trap c
  | .coreFence c => some c
  | _ => none

/-- The frame of the core instructions that touch no memory (R206, R208, R209, R213): only the core itself changes, and the count of
free values. Every other core, pavilion, memory and unit is as before, and so are the core's mode, watch, epc, cause, entry and
move engine, but for the trap instruction. -/
def Obligations.CoreFrame : Prop :=
  ∀ (i : Instr) (c : CellXY) (p n : Nat) (s t : State), coreOnly i = some c → cellNo c = some (p, n) → exec i s = .next t →
    onlyPav p s { t with free := s.free } ∧
    t.pav p = { s.pav p with cores := (t.pav p).cores } ∧
    (∀ m, m ≠ n → (t.pav p).core m = (s.pav p).core m) ∧
    (let a := (s.pav p).core n
     let b := (t.pav p).core n
     b.held = a.held ∧ b.watch = a.watch ∧ b.entry = a.entry ∧ b.moveQueue = a.moveQueue ∧ b.moves = a.moves ∧
       (i ≠ .trap c → b.monitor = a.monitor ∧ b.cause = a.cause ∧ b.epc = a.epc))

/-- The frame of a store (R208, R210, R237, R450): a store at an aligned address of its own cell below the monitor region sets the
bytes that it stores and leaves every other byte of the pavilion's garden, a keep store's row aside where it adds a keep copy, and the
engine stage as they were; every other pavilion and HBM are as before. -/
def Obligations.CoreStoreFrame : Prop :=
  ∀ (c : CellXY) (p n : Nat) (s t : State), cellNo c = some (p, n) → s.coreRuns p n = true → n < 1024 →
    ∀ (z : MemSize) (gd ga : RegIx) (off : BitVec 16),
    let k := (s.pav p).core n
    let a := k.address ga off
    let g := 0x40000 * n + a
    let at_ := 64 * s.gardenRow p (64 * (g / 64)) + g % 64
    let keep := freeKeep (s.spareCells p) (s.pav p).seq.keep
    a < 0x3F000 → a % MemSize.bytes z = 0 → (s.pav p).pool.getLsbD (poolBlock n) = false →
    (s.pav p).garden.rowMeta (s.gardenRow p (64 * (g / 64))) = RowMeta.clean →
    exec (.st c z gd ga off) s = .next t →
    (∀ j, j < MemSize.bytes z → memByte (t.pav p).garden.bytes (at_ + j) = BitVec.ofNat 8 ((k.reg gd).toNat / 256 ^ j)) ∧
    (∀ b, (b < at_ ∨ at_ + MemSize.bytes z ≤ b) → ((t.pav p).seq.keep = (s.pav p).seq.keep ∨ b / 64 ≠ keep) →
      memByte (t.pav p).garden.bytes b = memByte (s.pav p).garden.bytes b) ∧
    (t.pav p).stage = (s.pav p).stage ∧ t.hbm = s.hbm ∧ (∀ q, q ≠ p → t.pav q = s.pav q) ∧
    ((t.pav p).core n).regs = k.regs

/-! ### The garden (R234–R246) -/

/-- R235, R238, R243, R245: the garden's own events complete: a queued write-back, the first that sets poison else the first, is taken and
written; a patrol whose bank has nothing more urgent reads a wide row, and its place moves on modulo 128; the end of a tag wait tries the waiters of a tag again, or fails
them at a broken tag; a tag timeout fails those that have waited long enough. -/
def Obligations.GardenCompletes : Prop :=
  ∀ (p : PavIx) (cell : Fin 1088) (bank : Fin 4) (tag : Fin 65536) (s : State),
    let b := 4 * cell.val + bank.val
    let x := s.pav p.val
    (∀ w rest, (s.plot (plotOf p.val)).g.on = true → tget [] x.writeBacks b = w :: rest → (w :: rest).find? (fun y => y.poison) = none →
      exec (.correctionWriteBack p cell bank) s = .next (s.fresh.2.modPav p.val (fun x => { x with
        writeBacks := tset x.writeBacks b rest
        garden := (wideRow w.row).foldl (fun m r => m.writeBack w s.free r) x.garden }))) ∧
    ((s.plot (plotOf p.val)).g.on = true → s.bankGated p.val cell.val = false → s.slotFree p.val b = true →
      exec (.gardenPatrolScrub p cell bank) s = .next ((s.each (wideRow (4096 * cell.val + 32 * tget 0 x.patrol b + 8 * bank.val))
        (fun s r => s.patrolRow p.val r)).modPav p.val (fun x => { x with
          patrol := tset x.patrol b ((tget 0 (s.pav p.val).patrol b + 1) % 128) }))) ∧
    ((x.tag tag.val).state ≠ tagBroken → exec (.tagWaitEnd p tag) s =
      .next (s.each (x.tagWaiters.filter (fun e => e.1 == tag.val)) (fun s e => s.retryWaiter p.val tag.val e.2.1))) ∧
    ((x.tag tag.val).state = tagBroken → exec (.tagWaitEnd p tag) s =
      .next ((s.brokenTag p.val tag.val).failTag p.val tag.val (fun _ => true))) ∧
    exec (.tagTimeout p tag) s = .next (s.failTag p.val tag.val (fun since => decide (since + s.tagNs p.val ≤ s.ns)))

/-- R248, R249: a plot that is scrubbing clears its gardens, stages, engines and tags; the end of the read-back that follows leaves it out of
scrubbing, and it joins the allotment that is opening with it, which claims it no more. -/
def Obligations.PlotScrubCompletes : Prop :=
  ∀ (p : PlotIx) (s : State), (s.plot p.val).scrubbing = true →
    exec (.plotScrub p) s = .next (((s.eachPav p.val Pav.scrub).modPlot p.val (fun x => { x with zeroed := true })).progressTo
      (1 + p.val) 1 4 5 (0x2100 + p.val)) ∧
    ((s.plot p.val).zeroed = true → exec (.plotScrubDone p [] []) s = .next ((
      let t := s.modPlot p.val (fun x => { x with scrubbing := false, zeroed := false })
      match (List.range 16).find? (fun a => (t.allot a).enable == Enable.opening && (t.allot a).plots.getLsbD p.val) with
      | some a => (t.modPlot p.val (fun x => { x with owner := some (Fin.ofNat 16 a) })).modAllot a (fun x =>
          { x with claims := x.claims &&& ~~~(BitVec.ofNat 64 (2 ^ p.val)) })
      | none => t).progressEnd (1 + p.val) 2))

/-! ### The Promenade (R250–R277) -/

/-- R131, R253, R256, R259, R265, R272: the switch of a plot that runs a section completes its events: a beat that waits first at its
source goes on along its circuit, or is dropped with a circuit fault when it cannot be corrected; a steering unit whose inputs agree and
whose outputs have room takes its items and sends its own, and a merge unit its next beats, unless an error strikes them; a join that has
waited the skew timeout for a missing input takes a skew fault. -/
def Obligations.PromenadeCompletes : Prop :=
  ∀ (p : PlotIx) (al : Nat) (s : State), s.switchOf p.val = some al →
    (∀ (src : Fin 512) (b : Beat), (tget [] (s.plot p.val).circuits (beatKey src.val b)).head? = some b →
      (let t := s.beatOn al p.val src.val b
       let gone := s.beatGone t p.val (beatKey src.val b)
       exec (.beatArrival p src b .clean) s = .next (if gone then t.sourceGo al p.val src.val else t) ∧
       exec (.beatArrival p src b .corrected) s = .next (if gone then
         (t.modPlot p.val (fun x => { x with promCorrected := satInc x.promCorrected })).sourceGo al p.val src.val else t)) ∧
      exec (.beatArrival p src b .uncorrectable) s =
        .next ((s.popBeat p.val (beatKey src.val b)).circuitFault p.val 0 src.val)) ∧
    (∀ (u : Fin 32) r items own,
      let x := (s.plot p.val).steer u.val
      let mode := (s.plot p.val).steerMode u.val
      x.r = some r → steerInputs mode ≠ [] → x.anyEmpty (steerInputs mode) = false → x.stream = [] →
      (∀ o ∈ steerOutputs mode, s.outRoom p.val (320 + 2 * u.val + o) ≠ 0) →
      x.outcome mode (tget 0 (s.plot p.val).prom.steer u.val).toNat = .go items own →
      exec (.steeringResolve p u) s = .next (((s.modPlot p.val (fun z => z.setSteer u.val
        { x with stream := items, r := some (r + 1), since := s.ns })).sendUnit p.val (320 + 2 * u.val)
          (own.map (fun e => (e.1, mkBeat 0 0 r.toNat e.2 true false)))).steerFlow p.val u.val)) ∧
    (∀ (m : Fin 16) n a b,
      let x := (s.plot p.val).mergeUnit m.val
      let room := s.outRoom p.val (384 + m.val)
      let put := fun (y : Merge) (l : List Beat) =>
        (s.modPlot p.val (fun z => z.setMerge m.val y)).putBeats p.val (384 + m.val) 0 l
      tget? (s.plot p.val).prom.merge m.val = some n →
      (x.cur ≠ none → exec (.mergeEmit p m true) s = .next (put (x.stream room).1 (x.stream room).2) ∧
        ((x.stream room).2 ≠ [] → exec (.mergeEmit p m false) s = .next (s.circuitFault p.val 1 (384 + m.val)))) ∧
      (x.cur = none → room ≠ 0 → (x.buf 0).head? = some a → (x.buf 1).head? = some b →
        let e := x.emit a b s.ns room
        exec (.mergeEmit p m true) s =
          .next (if e.2.2 then (put e.1 e.2.1).consumeMerge al p.val m.val else put e.1 e.2.1) ∧
        (e.2.1 ≠ [] → exec (.mergeEmit p m false) s = .next (s.circuitFault p.val 1 (384 + m.val))))) ∧
    (∀ (j : Fin 48), j.val < 32 →
      let t := (s.plot p.val).steer j.val
      let used := steerInputs ((s.plot p.val).steerMode j.val)
      (∃ i ∈ used, t.buf i ≠ []) → t.since + s.skewNs p.val (320 + 3 * j.val) (320 + 2 * j.val) 3 2 ≤ s.ns →
      s.joinPaused p.val (320 + 3 * j.val) (320 + 2 * j.val) 3 2 = false →
      exec (.skewTimeout p j) s = .next (s.skewFault p.val
        (320 + 3 * j.val + (used.find? (fun i => (t.buf i).isEmpty)).getD 0) ((t.r.map BitVec.toNat).getD 0)
        ((t.r.map BitVec.toNat).getD 0))) ∧
    (∀ (j : Fin 48), 32 ≤ j.val →
      let m := j.val - 32
      let t := (s.plot p.val).mergeUnit m
      (∃ l ∈ t.bufs, l ≠ []) → t.cur = none → t.since + s.skewNs p.val (416 + 2 * m) (384 + m) 2 1 ≤ s.ns →
      s.joinPaused p.val (416 + 2 * m) (384 + m) 2 1 = false →
      exec (.skewTimeout p j) s = .next (s.skewFault p.val (416 + 2 * m + (if t.buf 0 = [] then 0 else 1))
        ((t.seq.map BitVec.toNat).getD 0) ((t.seq.map BitVec.toNat).getD 0)))

/-- R273, R274, R277: a section that is over ends, the next one is entered with its tunnels dropped, or after the last the job's LAUNCH has ended with
status 0; a section that runs a job freezes for a cause. -/
def Obligations.SectionsComplete : Prop :=
  ∀ (a : AllotIx) (s : State),
    (s.sectionOver a.val = true →
      let t := (s.discardBeats a.val true).boundary a.val
      let n := (t.allot a.val).sectionPos + 1
      exec (.sectionEnd a) s = .next (if n < (t.allot a.val).sections.length then (t.enterSection a.val n).dropTunnels a.val
        else (t.modLaunch a.val (fun j => { j with ended := some 0 })).modAllot a.val (fun x => { x with sectionActive := false }))) ∧
    (∀ (c : FreezeCause) j, (s.allot a.val).sectionActive = true → j ∈ (s.allot a.val).jobs → j.launch = true → j.ended = none →
      exec (.sectionFreeze a c) s = .next (s.recover a.val c))

/-! ### The packet fabric (R278–R311) -/

/-- R285, R287, R289, R291, R306: a packet command completes: one of its own type that passes the path's checks to a receiver has its
effect there. A REQ for a free entry in reach is granted with that entry; a READ of a free place is served; a GRANTED reply
to a sender starts its data; DATA of a granted entry lands its bytes; a NACK has the missing packets sent again; a SIGNAL to a
port cell adds to its counter; a CONTROL packet for a cell or an agent goes on to it. -/
def Obligations.PacketsComplete : Prop :=
  ∀ (k : Packet) (r : Receiver) (s : State), s.passage k = .to r →
    let a := (s.packetAllot k).getD 16
    let t := s.resolve a k.reqAddress
    (k.ptype = 1 → k.reqQuery = false → (s.rx r).held = [] → (s.rx r).entryOf k.srcX k.srcY k.tag = none →
      (s.rx r).doneOf k.srcX k.srcY k.tag false = none → (∀ p, r ≠ .dma p) → s.answersFor r a t = true →
      s.answerTo r t k.reqAddress k.reqLength a = .grant →
      exec (.req k) s = .next (s.grant r (k.held s.ns) t)) ∧
    (k.ptype = 2 → (s.rx r).reads = [] → (s.rx r).readQueue = [] → 1 ≤ k.reqLength → k.reqLength ≤ 3145728 →
      s.answersFor r a t = true → s.targetFits a t k.reqLength = true → (s.readAsk r (k.held s.ns)).2 = .go →
      exec (.read k) s = .next (s.serveRead r (k.held s.ns))) ∧
    (∀ x, k.ptype = 3 → (s.rx r).answered k = some x → x.phase ≠ .sent → x.read = false → k.opq = 0 →
      let y := { x with phase := .sent, entry := BitVec.ofNat 12 (bits k.payload.toNat 383 372), last := s.ns }
      exec (.reply k) s =
        .next (((s.modRx r (fun z => { z with tx := tset z.tx k.tag.toNat y })).sendData r y false (fun _ => true)).partSent r y)) ∧
    (∀ e, k.ptype = 0 → k.tag ≠ 0xFFF → tget? (s.rx r).entries k.tag.toNat = some e → e.srcX = k.srcX → e.srcY = k.srcY →
      k.framingBad e.length = false → e.landed.testBit k.seq.toNat = false → e.count + 1 ≠ packetsOf e.length →
      s.waitsContext (s.rxAllot r) e.base.toNat = false →
      let t := s.targetPut (s.rxAllot r) (s.resolveEnd (s.rxAllot r) (e.base.toNat + 48 * k.seq.toNat)) (s.landWriter r e)
        ((natLE 48 k.payload.toNat).take k.valid.toNat) k.poison
      exec (.data k) s = .next (t.modRx r (fun x => { x with
        entries := tset x.entries k.tag.toNat { e with
          landed := e.landed + 2 ^ k.seq.toNat, count := e.count + 1, since := t.ns, poison := e.poison || k.poison } }))) ∧
    (∀ x, k.ptype = 4 → (s.rx r).answered k = some x → x.phase = .sent → x.read = false →
      exec (.nack k) s = .next ((s.modRx r (fun z => { z with tx := tset z.tx k.tag.toNat { x with last := s.ns } })).sendData
        r x true k.nackMissing)) ∧
    (∀ c, k.ptype = 5 → k.opq = 8 → r = .cell c → (c.x.val % 64, c.y.val % 68) = portCell (quadOf (c.x.val % 64) (c.y.val % 68)) →
      let i := bits k.payload.toNat 383 380
      exec (.signalPacket k) s = .next (s.modSeq (4 * plotOfCell c.x.val c.y.val + quadOf (c.x.val % 64) (c.y.val % 68))
        (fun x => { x with ctrs := x.ctrs.set i (lget 0 x.ctrs i + BitVec.ofNat 32 (bits k.payload.toNat 379 348)) }))) ∧
    (∀ c, k.ptype = 6 → r = .cell c → exec (.control k) s = .next (s.emit (.forward k)))

/-- R288, R297, R302, R305, R306, R308: what receivers, senders, routers and links do on their own completes: a held request is granted; a refused
sender asks again after 1,024 F-cycles; a request and a landing that have waited the landing timeout are asked for again; a sender
without an answer asks whether it is done; a packet takes the escape, a hop older, or ages by one up to 63; a link's window of a second ends,
with retry switched on over its limit, and a link that fails 8 times in a row under retry is withdrawn, recorded and, of a plot, reported. -/
def Obligations.FabricEventsComplete : Prop :=
  ∀ (r : Receiver) (tag : BitVec 12) (s : State),
    ((∀ n, r ≠ .server n) → exec (.heldGrant r) s = .next ((s.grantHeld r).pumpReads r)) ∧
    (∀ n, r = .server n → exec (.heldGrant r) s = .next ((((s.grantHeld r).pumpReads r).pumpIn n.val).pumpOut n.val)) ∧
    (∀ x, tget? (s.rx r).tx tag.toNat = some x →
      let set := fun (y : Tx) => s.modRx r (fun z => { z with tx := tset z.tx tag.toNat y })
      (x.phase = .full → x.fullAt + fcycles 1024 ≤ s.ns → exec (.fullRetry r tag) s =
        .next ((set { x with phase := .requested, last := s.ns }).resendReq r tag.toNat x false)) ∧
      (x.phase = .requested → x.last + s.landingAt r ≤ s.ns → s.ns < x.first + 4 * s.landingAt r →
        exec (.requestTimeout r tag) s = .next ((set { x with last := s.ns }).resendReq r tag.toNat x false)) ∧
      (x.phase = .requested → x.last + s.landingAt r ≤ s.ns → x.first + 4 * s.landingAt r ≤ s.ns →
        exec (.requestTimeout r tag) s = .next (s.failTx r tag.toNat x 2)) ∧
      (x.phase = .sent → x.read = false → x.last + 2 * s.landingAt r ≤ s.ns → s.waitsContext (s.rxAllot r) x.source.toNat = false →
        exec (.doneQuery r tag) s = .next ((set { x with last := s.ns }).resendReq r tag.toNat x true))) ∧
    (∀ e, tget? (s.rx r).entries tag.toNat = some e → e.since + s.landingAt r ≤ s.ns → e.count ≠ packetsOf e.length →
      s.waitsContext (s.rxAllot r) e.base.toNat = false → e.round < 4 →
      exec (.landingTimeout r tag) s = .next ((s.modRx r (fun x => { x with
        entries := tset x.entries tag.toNat { e with round := e.round + 1, since := s.ns } })).emits
          (nackPackets (addressOf r) (e.srcX, e.srcY) (if e.own then tag else e.tag) (packetsOf e.length) e.landed (e.round + 1)))) ∧
    (∀ (q : Router) (column : Bool) (k : Packet), k.escape = false →
      let w := (s.waysFrom q column k).head?
      let m := s.rewritten q { k with escape := true }
      exec (.escapeSet q column k) s = .next (s.emit (.hop q w (if w.any Way.isHop then olderPacket m else m)))) ∧
    (∀ k : Packet, exec (.ageRaise k) s = .next (s.emit (.forward { k with age := BitVec.ofNat 6 (min (k.age.toNat + 1) 63) }))) ∧
    (∀ (l : LinkId) (failures bits : Nat), linkExists l = true → 10 ^ 9 + (s.link l).winStart ≤ s.ns → (∀ k, l ≠ .stack k) →
      let n := (s.link l).fails + failures
      (10 ^ 12 * n ≤ bits → exec (.linkErrorWindow l failures bits) s = .next (s.modLink l (fun y => { y with
        crc := satAdd y.crc failures, bits := BitVec.ofNat 64 (min (y.bits.toNat + bits) (2 ^ 64 - 1)), winStart := s.ns
        fails := 0 }))) ∧
      (bits < 10 ^ 12 * n → (s.link l).state = 0 → ∃ t, exec (.linkErrorWindow l failures bits) s = .next t ∧
        (t.link l).state = 1)) ∧
    (∀ (l : LinkId) (vc : BitVec 2), (s.link l).state ≠ 2 → (vc = 0 ∨ (s.link l).state = 1) → linkExists l = true →
      fabricLink l = true → linkPlot (linkCanon l) = none → l ≠ .spine →
      let t := s.modLink l (fun x => { x with state := 2 })
      exec (.linkWithdrawal l vc) s = .next (t.record (t.linkRec l 0))) ∧
    (∀ (p : PlotIx) (d : Fin 4) (j : Fin 4) (vc : BitVec 2), let l := LinkId.express p d j
      let q := ((linkPlot (linkCanon l)).getD 0)
      (s.link l).state ≠ 2 → (vc = 0 ∨ (s.link l).state = 1) → linkExists l = true →
      let t := s.modLink l (fun x => { x with state := 2 })
      exec (.linkWithdrawal l vc) s = .next ((t.record (t.linkRec l 0)).event 0x0007 q (0x2100 + q) 0 ((s.ownerOf q).getD 0x1F)))

/-! ### HBM (R313–R330) -/

/-- R320, R324, R327, R328, R329, R330: HBM's own commands complete: a read GRANULE from a plot's agent with its checks passed, to a stack that
does not retrain, is answered with the lines' data; a granule without an answer for the landing timeout is asked for again, up to four times, and
then its transfer fails; a patrol reads its line and its place moves on; a pseudo-channel that fails for the first time takes a spare; a failed
stack reads failed, recorded and reported; a stack that must retrain does so, and one whose retraining succeeds serves again; an opening
allotment's ranges are zeroed. -/
def Obligations.HbmCompletes : Prop :=
  (∀ (k : Packet) (s : State), k.ptype = 7 → k.crcOk = true → k.vc = 3 → k.opq = 0 → k.srcY = 481 → k.srcX.toNat < 56 →
    let q := granuleReq k s.ns
    s.granuleAllowed k.srcX.toNat q = true → q.write = false → s.granuleWaits q.seg k = false →
    exec (.granule k) s = .next ((s.linesRead q.line.toNat q.lines).2.emits
      (granuleData (segAddress q.seg) (k.srcX, k.srcY) q.tag (s.linesRead q.line.toNat q.lines).1))) ∧
  (∀ (p : PlotIx) (tag : BitVec 12) q (s : State), (s.plot p.val).agent.find? (fun q => q.tag == tag) = some q →
    q.since + s.landingNs ≤ s.ns →
    (q.retries < 4 →
      let t := s.modPlot p.val (fun x => { x with agent := x.agent.map (fun r =>
        if r.tag = tag then { r with retries := r.retries + 1, since := s.ns, got := [] } else r) })
      exec (.granuleResend p tag) s = .next (t.emits (t.agentPackets p.val q))) ∧
    (4 ≤ q.retries → exec (.granuleResend p tag) s = .next (s.agentFail p q 6))) ∧
  (∀ (k : StackIx) (s : State),
    (∀ line, (s.stack k.val).state = 0 → (s.stack k.val).lineAt k.val (s.stack k.val).scrubPos = some line →
      let t := (s.lineRead line).2
      exec (.hbmPatrolScrub k line) s = .next (t.modStack k.val (fun x =>
        if x.scrubPos + 1 = stackLines then { x with scrubPos := 0, rowCorr := [], pcUnc := [] }
        else { x with scrubPos := x.scrubPos + 1 }))) ∧
    (∀ pc : Fin 64, (s.stack k.val).pcMove = none → (s.stack k.val).state ≠ 2 → tget? (s.stack k.val).pcMap pc.val = none →
      ((s.failPc k.val pc.val).stack k.val).state ≠ 2 → ((s.failPc k.val pc.val).stack k.val).pcReplacements < 4 →
      exec (.pcReplacement k pc) s = .next ((s.failPc k.val pc.val).modStack k.val (fun y => { y with
        pcReplacements := y.pcReplacements + 1, pcMove := some (pc.val, 0) }))) ∧
    ((s.stack k.val).state ≠ 2 → ∃ r, exec (.stackFailed k) s = .next (
      let t := (s.modStack k.val (fun x => { x with state := 2, pcMove := none })).record r
      let l := below 16 (fun a => !(t.allot a).ranges.isEmpty)
      t.each (if l.isEmpty then [0x1F] else l) (fun t a => t.event 0x0003 k.val (0x2600 + k.val) 1 a))) ∧
    (∀ temp ok, let t := s.modStack k.val (fun x => { x with temperature := temp })
      ((t.stack k.val).state = 0 → (t.stack k.val).needs = true → t.mayTrain k.val = true →
        exec (.hbmRetrain k temp ok) s = .next (t.modStack k.val (fun x => { x with state := 1 }))) ∧
      ((t.stack k.val).state = 1 → (t.stack k.val).trained = true → exec (.hbmRetrain k temp true) s =
        .next ((t.modStack k.val (fun x => { x with state := 0, lastTrainTemp := x.temperature, due := false })).granulesGoOn
          (k.val / 3))))) ∧
  (∀ (a : AllotIx) (s : State), (s.allot a.val).enable = .opening → (s.allot a.val).zeroed = false →
    exec (.hbmZeroingDone a) s = .next ((({ s with hbm := (s.allot a.val).ranges.foldl (fun m r =>
      m.zeroRows (10 ^ 9 * r.1.toNat / 64) (10 ^ 9 * r.2.toNat / 64)) s.hbm } : State).modAllot a.val
        (fun x => { x with zeroed := true })).progressEnd (0x40 + a.val) 2))

/-! ### The Holcel ring (R332–R344) -/

/-- R339, R340, R341, R342, R343: a frame of a service, delivered to this module, has that service's effect after its arrival: an
expedited read or write, a segment of a transfer, a block write's control or data; an abort within a session drops the transfer that it names; an
empty acknowledgement from the event station drops its event; a transfer idle for 100 ms is dropped; an event unacknowledged for 100 ms is sent again,
and given up after ten attempts. -/
def Obligations.RingServicesComplete : Prop :=
  (∀ (f : HFrame) (s : State), (s.arrive f).1 = true →
    let t := (s.arrive f).2
    (f.service = 0 → f.rsp = false → exec (.expeditedRead f) s = .next (t.expRead f)) ∧
    (f.service = 1 → f.rsp = false → exec (.expeditedWrite f) s = .next (t.expWrite f)) ∧
    (f.service = 2 → f.rsp = false → exec (.segmentedRead f) s = .next (t.segRead f)) ∧
    (f.service = 3 → f.rsp = false → (f.session ≠ 0 ∨ f.index ≠ 0x1100 ∨ f.sub ≠ 2) →
      exec (.segmentedWrite f) s = .next (t.segWrite f)) ∧
    (f.service = 9 → f.rsp = false → exec (.blockControl f) s = .next (t.blockCtl f)) ∧
    (f.service = 4 → f.rsp = false → exec (.blockWrite f) s = .next (t.blockData f)) ∧
    (f.service = 8 → f.rsp = false → t.lodge.set.station ≠ 0x7E → (t.sessionOf (ringFrom f)).isSome = true →
      exec (.abort f) s = .next (t.modLodge (fun l => { l with
        transfers := l.transfers.filter (fun x => !(x.reader == .station f.src.toNat && x.index == f.index && x.sub == f.sub)) }))) ∧
    (f.service = 5 → f.rsp = true → f.payload = [] → (t.lodge.set.eventStation = 0x7F ∨ f.src.toNat = t.lodge.set.eventStation.toNat) →
      exec (.eventAck f) s = .next (t.modLodge (fun l => { l with events := l.events.filter (fun e => e.seq != f.seq) })))) ∧
  (∀ (st : BitVec 7) (i : BitVec 16) (sub : BitVec 8) (x : Transfer) (s : State), x ∈ s.lodge.transfers →
    x.reader = .station st.toNat → x.index = i → x.sub = sub → 10 ^ 8 + x.since ≤ s.ns →
    exec (.segmentedTransferDrop st i sub) s = .next (s.modLodge (fun l => { l with
      transfers := l.transfers.filter (fun t => !(t.reader == .station st.toNat && t.index == i && t.sub == sub)) }))) ∧
  (∀ (seq : BitVec 16) e (s : State), s.lodge.events.find? (fun e => e.seq == seq) = some e → 10 ^ 8 + e.sent ≤ s.ns →
    (10 ≤ e.attempts → exec (.eventResend seq) s =
      .next (s.modLodge (fun l => { l with events := l.events.filter (fun x => x.seq != seq) }))) ∧
    (e.attempts < 10 → ∃ o, exec (.eventResend seq) s = .next ((s.modLodge (fun l => { l with events := l.events.map (fun x =>
      if x.seq = seq then { x with attempts := x.attempts + 1, sent := s.ns } else x) })).ringOut o)))

/-- R333, R334, R337, R339, R344: the relay, the ring's time and its other frames complete: once both PHYs are up after Lodge boot and the
watchdog has not fired, the relay opens; an open relay closes when the watchdog's period has passed since its last restart, and that is remembered; a
SYNC from the time master is forwarded with its residence added, and followed; as master with its relay open the module sends SYNC at its
interval; a DELAY_REQ of another station is answered with the module's time; one of the module's own is sent for a link, and its answer gives that
link's delay, half of the round trip; without SYNC for 10 s the lock is lost and reported; a frame of any service is forwarded and, when delivered,
served; an assignment by serial number gives an unassigned module its station. -/
def Obligations.RingTimeCompletes : Prop :=
  (∀ (s : State),
    (s.lodge.booted = true → s.lodge.portA = true → s.lodge.portB = true → s.lodge.watchdogFired = false → s.lodge.relay = true →
      exec .relayOpen s = .next (((s.modLodge (fun l => { l with relay := false, watchdogFrom := s.ns })).emit
        (.relay false)).settleStep1)) ∧
    (∀ restarted : Nat, s.lodge.relay = false →
      max restarted s.lodge.watchdogFrom + 1000000 * s.lodge.set.watchdog.toNat ≤ s.ns → exec (.watchdogExpiry restarted) s =
        .next ((s.modLodge (fun l => { l with relay := true, watchdogFired := true })).emit (.relay true)))) ∧
  (∀ (f : HFrame) (s : State),
    (∀ d : BitVec 64, isSync f = true →
      let w := s.arriveAs f { f with payload := natLE 8 (leNat f.payload + d.toNat) }
      w.1 = true → exec (.sync f d) s = .next (w.2.followSync f)) ∧
    (f.service = 6 → f.rsp = false → f.param = 1 → (s.arrive f).1 = true → (s.arrive f).2.lodge.set.station ≠ 0x7E →
      let t := (s.arrive f).2
      exec (.delayReq f) s = .next (t.sendRing (t.ringFrame true 6 f.src.toNat 0 2 f.seq 0 (natLE 8 t.ns)))) ∧
    (f.service = 6 → f.rsp = false → f.param = 1 → s.lodge.sent f = true → s.lodge.here.isSome = true → s.lodge.booted = true →
      s.lodge.relay = false → (s.lodge.link f.onB).asked = none →
      let q := s.nextSeq
      exec (.delayReq f) s = .next ((q.2.sendRing (q.2.ringFrame false 6 f.dst.toNat 0 1 q.1 0 (natLE 8 s.ns))).modLodge (fun l =>
        l.setLink f.onB { s.lodge.link f.onB with req := some (q.1, s.ns), asked := some s.ns }))) ∧
    (∀ b t0, f.service = 6 → f.rsp = true → (s.arrive f).1 = true →
      let t := (s.arrive f).2
      (t.lodge.link b).req = some (f.seq, t0) → (t.lodge.link (!b)).req = none → exec (.delayResp f) s =
        .next (t.modLodge (fun l => l.setLink b { t.lodge.link b with
          delay := BitVec.ofNat 64 ((t.ns - t0) / 2), req := none }))) ∧
    (isSync f = false → (s.arrive f).1 = true → exec (.frameForward f) s = .next ((s.arrive f).2.serve f)) ∧
    (isSync f = false → (s.arrive f).1 = false → exec (.frameForward f) s = .next (s.arrive f).2) ∧
    (f.service = 3 → f.rsp = false → f.dst = 0x7F → f.session = 0 → f.index = 0x1100 → f.sub = 2 → (s.arrive f).1 = true →
      (s.arrive f).2.assigned f.payload = true → exec (.stationAssign f) s =
        .next (((s.arrive f).2.setStation (leNat (f.payload.drop 8))).respond f 0 []))) ∧
  (∀ (s : State),
    (s.lodge.booted = true → s.lodge.relay = false → s.lodge.timeMaster = s.lodge.set.station →
      (∀ t, s.lodge.syncSent = some t → t + 1000000 * s.lodge.syncInterval.toNat ≤ s.ns) →
      exec .syncSend s = .next ((s.nextSeq.2.sendRing (s.nextSeq.2.ringFrame false 6 0x7F 0 0 s.nextSeq.1 0
        (natLE 8 s.ns))).modLodge (fun l => { l with lastSync := s.ns, syncSent := some s.ns }))) ∧
    (s.lodge.timeLocked = true → 10 ^ 10 + s.lodge.lastSync ≤ s.ns →
      exec .syncLost s = .next ((s.modLodge (fun l => { l with timeLocked := false, slew := 0 })).event 0x000B 0 0x1100 8 0x1F)))

/-! ### The dictionary (R345–R359) -/

/-- R345–R348: a write of any object by any requester completes with exactly one answer: the abort code of the check that fails, with
nothing else changed, or what the object's write gives. -/
def Obligations.ObjectWriteCompletes : Prop :=
  ∀ (r : Requester) (i : BitVec 16) (sub : BitVec 8) (v : List Byte) (s : State),
    let c := s.writeCheck r i.toNat sub.toNat v.length
    (c ≠ 0 → exec (.objectWrite r i sub v) s = .next (s.emit (.answer r (BitVec.ofNat 16 c) []))) ∧
    (c = 0 → let w := s.writeObject r i.toNat sub.toNat v false
      exec (.objectWrite r i sub v) s = .next (w.2.emit (.answer r (BitVec.ofNat 16 w.1) [])))

/-- R355, R379, R382, R383, R384, R400, R417, R509, R511: writes that pass their checks and turn the module, an allotment, a plot, a pavilion or a port on or off complete: the module stops
when no job runs, and operates from stopped through a compute reset; a closed allotment that may open starts to; an open plot closes and a
closed one opens; a pavilion likewise; an open host port closes with its functions quiesced, an open server port closes its windows, and either
opens again. -/
def Obligations.EnablesComplete : Prop :=
  ∀ (r : Requester) (s : State),
    let ok := fun (i sub n : Nat) => s.writeCheck r i sub n = 0
    let done := fun (t : State) => (Host.Outcome.next (t.emit (.answer r 0 [])) : Res)
    (ok 0x2000 1 1 → s.lodge.moduleState = 3 → (List.range 16).all (fun a => (s.allot a).jobs.isEmpty) = true →
      exec (.moduleStop r) s = done (s.toState 1)) ∧
    (ok 0x2000 1 1 → s.lodge.moduleState = 1 → s.anyLive = false → exec (.moduleOperate r) s = done s.computeReset) ∧
    (∀ a : AllotIx, ok (0x2400 + a.val) 1 1 → s.lodge.computeReset = false →
      (let w := s.allotEnable a.val
       exec (.allotmentOpen r a) s = .next (w.2.emit (.answer r (BitVec.ofNat 16 w.1) []))) ∧
      (let w := s.allotDisable a.val
       exec (.allotmentClose r a) s = .next (w.2.emit (.answer r (BitVec.ofNat 16 w.1) [])))) ∧
    (∀ p : PlotIx, ok (0x2100 + p.val) 1 1 →
      ((s.plot p.val).enable = .open_ → s.shuffleIn p.val = false → exec (.plotDisable r p) s =
        done ((s.modPlot p.val (fun x => { x with enable := .closing })).closePlot p.val)) ∧
      ((s.plot p.val).enable = .closed → exec (.plotEnable r p []) s = done (s.openPlot p.val []))) ∧
    (∀ (p : PavIx), ok (0x2200 + p.val) 2 1 → s.lodge.computeReset = false →
      ((s.pav p.val).enable = .open_ → s.shuffleIn (plotOf p.val) = false → exec (.pavilionDisable r p) s = done (s.closePav p.val)) ∧
      (∀ drillOk, (s.pav p.val).enable = .closed → (s.pav p.val).role ≠ .retired →
        exec (.pavilionEnable r p drillOk) s = done (s.openPav p.val drillOk))) ∧
    (∀ h : PortIx, ok (0x2500 + h.val) 1 1 →
      ((s.hostPort h.val).enable = .open_ → exec (.hostPortDisable r h) s =
        done (((s.quiescePort h.val).modHost h.val
          (fun x => { x with enable := .closed, linkUp := false })).latchBars h.val)) ∧
      ((s.hostPort h.val).enable = .closed → exec (.hostPortEnable r h) s =
        done (s.modHost h.val (fun x => { x with enable := .open_ })))) ∧
    (∀ n : SrvIx, ok (0x2510 + n.val) 2 1 →
      ((s.srv n.val).enable = .open_ → exec (.serverPortDisable r n) s = done
        (((s.modSrv n.val (fun x => { x with enable := .closing })).closeWindows n.val (fun _ => true)).settleSrv n.val)) ∧
      ((s.srv n.val).enable = .closed → exec (.serverPortEnable r n) s =
        done (s.modSrv n.val (fun x => { x with enable := .open_ }))))

/-- R126, R312, R355, R356, R367, R370, R417, R473: the writes of settings complete when they pass their checks: re-armed forecast slots lose their counts; an
allotment takes its overlay, attach mode and server ports; the power cap and the active base are kept in flash; a slot is erased; a reader's
position is set and the log cleared. -/
def Obligations.SettingsComplete : Prop :=
  ∀ (r : Requester) (s : State),
    let ok := fun (i sub n : Nat) => s.writeCheck r i sub n = 0
    let done := fun (t : State) => (Host.Outcome.next (t.emit (.answer r 0 [])) : Res)
    let give := fun (w : Nat × State) => (Host.Outcome.next (w.2.emit (.answer r (BitVec.ofNat 16 w.1) [])) : Res)
    (∀ (p : PavIx) (b : BitVec 64), ok (0x2200 + p.val) 9 8 → exec (.forecastRearm r p b) s = done (s.modPav p.val (fun x => { x with
      forecast := x.forecast.filter (fun e => !b.getLsbD e.1) }))) ∧
    (∀ (a : AllotIx) (v : BitVec 8), ok (0x2400 + a.val) 13 1 → exec (.overlaySelect r a v) s = give (s.overlayWrite a.val v.toNat)) ∧
    (∀ (a : AllotIx) (v : BitVec 8), ok (0x2400 + a.val) 7 1 → v.toNat ≤ 1 → s.directOk (s.allot a.val).plots = true →
      (s.allot a.val).launchJob = none → exec (.attachWrite r a v) s =
        done (s.modAllot a.val (fun y => { y with attach := v, attachPending := none }))) ∧
    (∀ (a : AllotIx) (v : BitVec 16), ok (0x2400 + a.val) 10 2 →
      exec (.serverPortsWrite r a v) s = give (s.portsWrite a.val v)) ∧
    (∀ v : BitVec 32, ok 0x3000 1 4 → 16000 ≤ v.toNat → v.toNat ≤ 46000 → exec (.powerCapWrite r v) s =
      done (s.keepSet (fun x => { x with powerCap := v }))) ∧
    (∀ v : BitVec 8, ok 0x4000 3 1 → v.toNat ≤ 63 → exec (.activeBaseWrite r v) s =
      done (s.keepSet (fun x => { x with activeBase := v }))) ∧
    (∀ n : Fin 64, n.val ≠ 0 → ok (0x4000 + n.val) 6 1 → s.slotInUse n.val = false →
      exec (.imageErase r n 1) s = done (s.emptySlot n.val)) ∧
    (∀ v : BitVec 32, ok 0x5080 2 4 → exec (.logPositionWrite r v) s = done (s.setPosition r v.toNat)) ∧
    (ok 0x5080 5 1 → exec (.logClear r 1) s = done s.clearLog)

/-- R346, R356, R536: reads with an effect complete when they pass their checks: a counter that clears on a read reads its value and is cleared; the record at a reader's
position is read and the position moves on; the lost count is read and cleared; a report takes the reader's nonce. -/
def Obligations.ReadsComplete : Prop :=
  ∀ (r : Requester) (s : State),
    (∀ (i : BitVec 16) (sub : BitVec 8), s.readCheck r i.toNat sub.toNat = 0 → clearsOnRead i.toNat sub.toNat = true →
      exec (.counterReadClear r i sub) s = .next ((s.clearCounter i.toNat sub.toNat).emit
        (.answer r 0 (s.objValue r i.toNat sub.toNat)))) ∧
    (s.readCheck r 0x5080 3 = 0 → ∀ e, (s.recordsFor (s.readerOf r)).find? (fun e => e.1 == s.readPos (s.readerOf r)) = some e →
      exec (.logRecordRead r) s = .next ((s.modLodge (fun l => { l with readers := (aset l.readers (s.readerOf r)
        { (aget ReaderPos.start l.readers (s.readerOf r)) with position := s.readPos (s.readerOf r) + 1 }) })).emit
          (.answer r 0 (natLE 64 e.2.toBits.toNat)))) ∧
    (s.readCheck r 0x5080 4 = 0 → exec (.logLostRead r) s = .next ((s.modLodge (fun l => { l with readers := (aset l.readers (s.readerOf r)
        { (aget ReaderPos.start s.lodge.readers (s.readerOf r)) with lost := 0 }) })).emit
          (.answer r 0 (natLE 4 (aget ReaderPos.start s.lodge.readers (s.readerOf r)).lost.toNat)))) ∧
    (s.readCheck r 0x6000 2 = 0 → ∀ e, s.lodge.nonces.find? (fun e => e.1 == s.readerOf r) = some e →
      exec (.reportRead r) s = .next ((s.modLodge (fun l => { l with nonces := l.nonces.filter (fun x => x.1 != s.readerOf r) })).emit
        (.answer r 0 (s.report (s.mailAllot r) e.2))))

/-- R365, R371, R444, R526, R536, R539, R540: the security and image commands complete: a nonce of 32 bytes is kept for its reader; an unlock or debug token is judged, and an unlock ends
when its hour is over; a firmware image that verifies is kept as the next one; an image and a drill package that have been checked read valid or rejected, and a valid package of a newer serial is kept in flash; an
overlay of another base is queued for its deal once no job remains. -/
def Obligations.ImagesComplete : Prop :=
  ∀ (r : Requester) (s : State),
    (∀ n, n.length = 32 → s.writeCheck r 0x6000 1 32 = 0 → exec (.nonceWrite r n) s =
      .next ((s.setNonce r n).emit (.answer r 0 []))) ∧
    (∀ v, s.writeCheck r 0x6000 5 v.length = 0 → let w := s.unlockWrite r v
      exec (.serviceUnlock r v) s = .next (w.2.emit (.answer r (BitVec.ofNat 16 w.1) [])) ∧
      exec (.debugOpen r v) s = .next (w.2.emit (.answer r (BitVec.ofNat 16 w.1) []))) ∧
    (exec .serviceUnlockExpiry s = .next (s.modLodge (fun l => { l with sessions := l.sessions.map (fun x => { x with
      unlock := x.unlock.filter (fun t => decide (s.ns < t)) }) }))) ∧
    (∀ v, s.writeCheck r 0x7F00 1 v.length = 0 → trailerOk 0 [] v = true → v.length ≤ 8 * 2 ^ 20 → s.holdupLow = false →
      exec (.firmwareWrite r v) s = .next (((s.modLodge (fun l => { l with fwNext := some (firmwareOf v) })).flashWrite
        .firmware 0 (sectorsOf v.length)).emit (.answer r 0 []))) ∧
    (∀ n : Fin 64, (s.image n.val).status = 1 → s.lodge.flashJobs.any (fun j => j.region == .images && j.slot == n.val) = false →
      let ok := trailerOk 2 s.lodge.sec.owners (s.image n.val).content && imgOk (s.image n.val).content
      exec (.imageCheckDone n) s = .next ((s.modLodge (fun l => { l with
        images := tset l.images n.val { s.image n.val with status := if ok then 2 else 3 } })).progressEnd 0x50 (if ok then 2 else 3))) ∧
    (∀ d, s.lodge.drillNew = some d →
      (trailerOk 1 [] d = false → exec .drillPackageCheckDone s =
        .next ((s.modLodge (fun l => { l with drillNew := none, drillStatus := 3 })).progressEnd 0x50 3)) ∧
      ((packageHead d).1 = true → trailerOk 1 [] d = true → (∀ x, s.lodge.drill = some x → x.serial.toNat < (packageHead d).2.1) →
        1 ≤ (packageHead d).2.1 → (packageHead d).2.2 ≤ s.lodge.fw.version.toNat → exec .drillPackageCheckDone s =
          .next (((s.modLodge (fun l => { l with
            drill := some { content := d, serial := BitVec.ofNat 32 (packageHead d).2.1 }, drillNew := none
            drillStatus := 2 })).flashWrite .drill 0 (sectorsOf d.length)).progressEnd 0x50 2))) ∧
    (∀ a : AllotIx, (s.allot a.val).enable = .open_ → (s.allot a.val).redealDue = true → (s.allot a.val).jobs = [] →
      (s.allot a.val).dealing = false → (s.parcelFor a.val).isSome = true → exec (.parcelRedeal a) s =
        .next ((s.modAllot a.val (fun y => { y with dealing := true })).modLodge (fun l =>
          { l with dealQueue := l.dealQueue ++ [a] })))

/-! ### Allotments and sessions (R382–R384, R527–R540) -/

/-- R383, R384: an opening allotment whose last step fails reads failed, its keys destroyed and its plots scrubbed; a closing one whose
plots have left and been scrubbed reads closed. -/
def Obligations.AllotmentStepsComplete : Prop :=
  ∀ (a : AllotIx) (s : State), let x := s.allot a.val
    (x.enable = .opening → x.pendOpen = false → exec (.allotmentOpenDone a false) s =
      .next (let t := (s.dropDeal a.val).modAllot a.val (fun x => { x with enable := .failed, key := none, wkeys := [], claims := 0, zeroed := false })
        t.each ((plotsIn x.plots).filter (fun p => t.ownerOf p == some a.val)) State.scrubStart)) ∧
    (x.enable = .opening → x.pendOpen = false → (plotsIn x.plots).all (fun p => s.ownerOf p == some a.val) = true →
      (plotsIn x.plots).any (fun p => (s.plot p).out) = false → x.zeroed = true → x.claims = 0 → s.parcelFor a.val = none → exec (.allotmentOpenDone a true) s =
        .next ((((s.putParcel a.val).modAllot a.val (fun x => { x with
          enable := .open_, dealing := false, pendOpen := false, counters := [], queues := [], evq := [] })).replaceFailed
            a.val (fun _ => true)).idleFn x.hostPort.toNat x.pf.toNat)) ∧
    (x.enable = .closing → x.closeDue = false → s.closedOut a.val = true →
      (plotsIn x.plots).all (fun p => s.ownerOf p != some a.val && !(s.plot p).scrubbing) = true →
      ∃ t : State, exec (.allotmentCloseDone a) s = .next (t.modAllot a.val (fun y => { y with
        enable := .closed, key := none, wkeys := [], queues := [], jobs := [], evq := [], counters := [], parcel := none
        chunks := [], sections := [], sectionActive := false, frozen := none, frozenNext := [], pavMap := [], tunnels := []
        spills := [], taint := [], keep := [], zeroed := false, tried := [], overlayPending := none, redealDue := false
        attachPending := none })))

/-- The delivered fragment f is the last of its session step, whose data as a whole is d (*Session steps*). -/
def lastFragment (t : State) (f : HFrame) (d : List Byte) : Prop :=
  let k := bits f.param.toNat 7 0
  f.service = 7 ∧ f.rsp = false ∧ f.payload.length < 1024 ∧ t.lodge.set.station ≠ 0x7E ∧ ((k = 0 ∧ d = f.payload) ∨
    ∃ x, t.lodge.stepsIn.find? (fun x => x.station == f.src && x.session == f.session && x.step == bits f.param.toNat 15 8) = some x ∧
      k ≠ 0 ∧ x.next = k ∧ d = x.data ++ f.payload)

/-- R527, R530, R531, R532, R535: the session steps complete at the last fragment of each, after the frame's arrival. A HELLO with a named owner
key and a free session is answered with the handshake's part, signed; an ACCEPT whose signature verifies opens the session with the derived keys;
CLOSE ends a session; a wrapped key that unwraps joins an open allotment's keys, and an unused one leaves them; owner keys signed by an owner replace
the owners. Sessions that are over, and handshakes older than 10 s with what has come of their steps, end. -/
def Obligations.SessionsComplete : Prop :=
  (∀ (f : HFrame) (d : List Byte) (s : State), (s.arrive f).1 = true → lastFragment (s.arrive f).2 f d →
    let step := bits f.param.toNat 15 8
    let t := (s.arrive f).2.modLodge (fun l => { l with
      stepsIn := l.stepsIn.filter (fun x => !(x.station == f.src && x.session == f.session)) })
    (∀ pub, step = 0x01 → f.session = 0 → t.sessionOf (ringFrom f) = none → d.length = 33 → t.hasIdentity = true →
      t.lodge.sessions.length + (t.lodge.handshakes.filter (fun h => h.station != f.src)).length < 8 → d.head? ≠ some 0xFF →
      t.lodge.sec.owners[((d.head?).getD 0).toNat]? = some pub →
      let u := t.fresh.2.fresh.2
      let k := u.freeSession
      let part := natLE 2 k ++ Config.drbg t.free 32 ++ Config.mlKemKey (t.free + 1)
      exec (.hello f) s = .next (((u.modLodge (fun l => { l with
        nextSession := k
        handshakes := l.handshakes.filter (fun h => h.station != f.src) ++
          [{ station := f.src, key := (d.head?).getD 0, pub := pub, draw := t.free + 1, nr := d.drop 1, number := BitVec.ofNat 16 k
             nm := Config.drbg t.free 32, ek := Config.mlKemKey (t.free + 1), transcript := d ++ part, since := u.ns }]
        })).respond f 0 []).sendStep 2 f.src.toNat 0 (part ++ Config.mlDsaSign (roleContext 5) (d ++ part)))) ∧
    (∀ h, step = 0x03 → f.session = 0 → t.sessionOf (ringFrom f) = none → d.length = 4397 →
      t.lodge.handshakes.find? (fun h => h.station == f.src) = some h → h.key ≠ 0xFF →
      Config.mlDsaVerify (roleContext 5) h.pub (h.transcript ++ d.take 1088) (d.drop 1088) = true →
      let k := shake256 (Config.mlKemDecaps h.draw (d.take 1088) ++ shake256 (h.transcript ++ d.take 1088) 32 ++
        ascii "Holcel session") 64
      exec (.accept f) s = .next ((((t.modLodge (fun l => { l with
        handshakes := l.handshakes.filter (fun x => x.station != f.src) })).modLodge (fun l => { l with
          sessions := l.sessions ++ [{ number := h.number, station := f.src, ka := k.take 32, kw := k.drop 32, framesIn := 0
                                       framesOut := 0, last := t.ns, claim := false, unlock := none }] })).respond f 0 []).sendStep
            4 f.src.toNat h.number.toNat [])) ∧
    (∀ x, (s.arrive f).2.authentic f = true → t.sessionOf (ringFrom f) = some x →
      (step = 0x10 → d = [] → exec (.close f) s = .next ((t.respond f 0 []).endSession f.session)) ∧
      (let a := leNat (d.take 1)
       let id := BitVec.ofNat 32 (leNat (bslice d 1 4))
       (∀ k, step = 0x20 → x.claim = false → d.length = 45 → id ≠ 0 → a < 16 → (t.allot a).enable = .open_ →
          (t.allot a).wkeys.length < 64 → (t.allot a).wkeys.any (fun k => k.1 == id) = false →
          Config.aesUnwrap x.kw (d.drop 5) = some k → exec (.wkeySet f) s = .next ((t.modAllot a (fun y => { y with
            wkeys := y.wkeys ++ [(id, k)] })).respond f 0 [])) ∧
        (step = 0x21 → x.claim = false → d.length = 5 → a < 16 → (t.allot a).wkeys.any (fun k => k.1 == id) = true →
          (∀ m, m < 16 → (t.srv m).windows = []) → exec (.wkeyDel f) s = .next ((t.modAllot a (fun y => { y with
            wkeys := y.wkeys.filter (fun k => k.1 != id) })).respond f 0 []))) ∧
      (∀ (n : Nat) o, step = 0x30 → x.claim = false → n ≤ 4 → d.length = 1952 * n + 3309 → o ∈ t.lodge.sec.owners →
        Config.mlDsaVerify (roleContext 2) o (d.take (1952 * n)) (d.drop (1952 * n)) = true → t.holdupLow = false →
        exec (.ownersSet f) s = .next (((t.modLodge (fun l => { l with sec := { l.sec with
          owners := (List.range n).map (fun i => bslice (d.take (1952 * n)) (1952 * i) 1952) } })).flashWrite
            .security 0 1).respond f 0 [])))) ∧
  (∀ (n : BitVec 16) x (s : State), s.session n = some x →
    (600 * 10 ^ 9 + x.last ≤ s.ns ∨ 65536 ≤ x.framesIn ∨ 65536 ≤ x.framesOut → exec (.sessionTimeout n) s = .next (s.endSession n))) ∧
  (∀ (st : BitVec 7) (s : State), exec (.handshakeTimeout st) s = .next (s.modLodge (fun l => { l with
    handshakes := l.handshakes.filter (fun h => !(h.station == st && decide (10 ^ 10 + h.since ≤ s.ns)))
    stepsIn := l.stepsIn.filter (fun x => !(x.station == st && x.session == 0 && decide (10 ^ 10 + x.since ≤ s.ns))) })))

/-! ### The host ports (R373–R399) -/

/-- R375, R376, R378: the PCIe events complete: PERST_N asserted resets the port and holds it; released, it latches its windows; a link that
trains reads up with its width and rate; a link that goes down resets the port, counting a surprise; an FLR and an entry of D3hot
quiesce the function; a programmed IDE key is kept. -/
def Obligations.PcieCompletes : Prop :=
  ∀ (h : PortIx) (f : FnIx) (s : State), let x := s.hostPort h.val
    exec (.perstAssert h) s = .next ((s.portReset h.val).modHost h.val (fun x => { x with perst := true })) ∧
    (x.perst = true → exec (.perstRelease h) s =
      .next ((s.modHost h.val (fun x => { x with perst := false })).latchBars h.val)) ∧
    (∀ w r, s.lodge.portsTrain = true → (s.seg (2 * h.val + 1)).dom.on = true → x.perst = false → x.enable = .open_ → x.linkUp = false →
      exec (.linkUp h w r) s = .next (s.modHost h.val (fun x => { x with linkUp := true, trained := true, width := w, rate := r }))) ∧
    (x.linkUp = true →
      exec (.linkDown h false) s = .next (s.portReset h.val) ∧
      exec (.linkDown h true) s = .next ((s.portReset h.val).hostCount h.val 13) ∧
      exec (.flr h f) s = .next ((s.quiesceFn h.val f.val).hostCount h.val 14) ∧
      exec (.d3hotEntry h f) s = .next (s.quiesceFn h.val f.val) ∧
      (∀ key, x.ide = true → exec (.ideKmKeyProg h f key) s =
        .next (s.modFn h.val f.val (fun x => { x with ideKey := some key }))))

/-- R358, R380, R381, R537: accesses of a function whose link is up complete: a mailbox read or write is carried out; a register write, of 32 or 64 bits,
takes effect; a window read answers with HBM's, a garden's or a stage's bytes, or as unsupported; a window write stores them; the measurements of
its allotment are given over DOE. -/
def Obligations.HostAccessCompletes : Prop :=
  ∀ (h : PortIx) (f : FnIx) (s : State),
    (∀ m, exec (.getMeasurements h f m) s = .next (s.emit (.measurements h f
      (s.reportEntries (some ((s.allotOfFn h.val f.val).getD 16))) (m && s.hasIdentity)))) ∧
    (s.fnUp h.val f.val = true →
      (∀ c : BitVec 32, c.getLsbD 31 = true → c.getLsbD 30 = false → exec (.mailboxRead h f c) s = .next (s.mbxRead h f c)) ∧
      (∀ c : BitVec 32, c.getLsbD 31 = true → c.getLsbD 30 = true → exec (.mailboxWrite h f c) s = .next (s.mbxWrite h f c)) ∧
      (∀ (o : BitVec 16) (v : BitVec 64),
        exec (.registerWrite h f o v false) s = .next (s.bar0Write h f o.toNat (v.setWidth 32)) ∧
        exec (.registerWrite h f o v true) s =
          .next ((s.bar0Write h f o.toNat (v.setWidth 32)).bar0Write h f (o.toNat + 4) (v.extractLsb' 32 32))) ∧
      (∀ (o : BitVec 36) (n : BitVec 13),
        (s.bar4Target h.val f.val o.toNat n.toNat false = .outside →
          exec (.bar4Read h f o n) s = .next ((s.portCount h.val 8).emit (.unsupported h f))) ∧
        (∀ p g, s.bar4Target h.val f.val o.toNat n.toNat false = .garden p g → (s.localGet p false g n.toNat).1.2 = false →
          exec (.bar4Read h f o n) s = .next ((s.localGet p false g n.toNat).2.emit
            (.readData h f (s.localGet p false g n.toNat).1.1 false)))) ∧
      (∀ (o : BitVec 36) (v : List Byte), 1 ≤ v.length → v.length ≤ 4096 →
        (∀ g, s.bar4Target h.val f.val o.toNat v.length true = .hbm g →
          exec (.bar4Write h f o v false) s = .next (s.targetPut ((s.openFn h.val f.val).getD 0) (.hbm g) .port v false)) ∧
        (∀ p g, s.bar4Target h.val f.val o.toNat v.length true = .garden p g →
          exec (.bar4Write h f o v false) s = .next (s.localPut p false .port g v false (v.length + 1)))))

/-- R386, R389, R390, R398: queues and the event ring of an open allotment's function complete: a selected queue pair opens and closes; a doorbell inside its ring moves
the tail or the head, and one outside fails the queue with cause 4; a fetch takes the entry at the head, or fails the queue with cause 5 on a
memory error; a coalesced interrupt is raised; the event ring's controls are written, and its oldest event with them. -/
def Obligations.QueuesComplete : Prop :=
  ∀ (h : PortIx) (f : FnIx) (a : Nat) (s : State), s.openFn h.val f.val = some a → s.fnUp h.val f.val = true → s.lodge.isReady = true →
    (∀ q, s.selQueue h.val f.val = some (a, q) →
      exec (.queueOpen h f) s = .next (s.qOpen a q) ∧ exec (.queueClose h f) s = .next (s.qClose a q)) ∧
    (∀ (q : BitVec 16) (v : BitVec 32), s.bellQueue h.val f.val q = some a →
      let t := bits v.toNat 15 0
      let bad := (s.failQueue a q.toNat 4).portCount h.val 11
      exec (.submissionDoorbell h f q v) s = .next
        (if ((s.allot a).queue q.toNat).sqLen ≤ t then bad else s.modQueue a q.toNat (fun y => { y with sqTail := t })) ∧
      exec (.completionDoorbell h f q v) s = .next
        (if ((s.allot a).queue q.toNat).cqLen ≤ t then bad else s.modQueue a q.toNat (fun y => { y with cqHead := t }))) ∧
    (∀ (q : BitVec 16) (e : BitVec 512), ((s.allot a).queue q.toNat).fetchable = true →
      exec (.commandFetch h f q e true) s = .next (s.failQueue a q.toNat 5) ∧
      (s.lodge.moduleState = 3 → (∀ c : Cmd, c.entry = e → c.known = true) → ∃ t, exec (.commandFetch h f q e false) s = .next t ∧
        ((t.allot a).queue q.toNat).sqHead = (((s.allot a).queue q.toNat).sqHead + 1) % ((s.allot a).queue q.toNat).sqLen ∧
        (((t.allot a).queue q.toNat).cmds.getLast?).map (·.entry) = some e)) ∧
    (∀ q : BitVec 16, let x := (s.allot a).queue q.toNat
      x.uncoalesced ≠ 0 → x.firstAt + 1000 * bits x.coal.toNat 31 16 ≤ s.ns →
      exec (.interruptCoalesceTimeout h f q) s = .next (s.queueInterrupt a q.toNat)) ∧
    (∀ v, exec (.evqCtrlWrite h f v) s = .next (s.modFn h.val f.val (fun x => x.setEvqCtrl v)) ∧
      exec (.evqHeadWrite h f v) s = .next (s.modFn h.val f.val (fun x => { x with evqHead := v &&& 0xFFF }))) ∧
    (∀ e rest, let x := s.fn h.val f.val
      let n := (x.evqTail + 1) % x.evqLen
      (s.allot a).evq = e :: rest → x.evqOn = true → n ≠ x.evqHead.toNat % x.evqLen →
      exec (.eventRingWrite h f) s = .next ((((s.modAllot a (fun y => { y with evq := rest })).emit (.hostWrite h
        (x.evqBase + BitVec.ofNat 64 (32 * x.evqTail)) (eventEntry e x.evqPhase) [false] false)).modFn h.val f.val (fun y => { y with
          evqTail := n, evqPhase := if n = 0 then !y.evqPhase else y.evqPhase })).msix h f (bits x.evqCtrl.toNat 26 16)))

/-- R391–R399, R407, R416: a command that its queue may start, in a module that operates, completes its start: LAUNCH begins its job; WOPEN and WCLOSE
open and close a window; MARK, FENCE and WAIT_EVENT join the waits; SIGNAL adds to a sync counter or an event counter and completes
OK; QUERY_PROGRESS of an idle index answers what the index holds; ABORT_JOB of a running LAUNCH stops it. -/
def Obligations.CommandsComplete : Prop :=
  ∀ (a : AllotIx) (q : BitVec 16) (c : Cmd) (s : State), (s.allot a.val).enable = .open_ → s.lodge.isReady = true →
    ((s.allot a.val).queue q.toNat).startable = some c → s.lodge.moduleState = 3 →
    let x := s.allot a.val
    let n := q.toNat
    let len := bits c.a2 31 0
    (c.op = 1 → c.a0 ≠ 0 → c.a1 % 64 = 0 → len ≤ 65536 → s.hbmFits a.val c.a1 len = true → x.job c.a0 = none → x.launchJob = none →
      x.redealDue = false → x.dealing = false → s.launchable a.val = true →
      exec (.launch a q) s = .next (s.beginLaunch a.val n c)) ∧
    (c.op = 3 → exec (.wopen a q) s = .next ((s.cmdTo a.val n c.id .running).wopen a.val n c)) ∧
    (∀ m e w, c.op = 4 → s.windowOf (bits c.a0 31 0) = some (m, e, w) → w.allotment = a → w.closing = false →
      exec (.wclose a q) s = .next (((s.cmdTo a.val n c.id .running).modWindow m e (fun w => { w with
        closers := w.closers ++ [{ queue := n, cmd := c.id }] })).closeWindow m e)) ∧
    (c.op = 5 → exec (.mark a q) s = .next (s.waitStart a.val n c)) ∧
    (c.op = 6 → exec (.hostFence a q) s = .next (s.waitStart a.val n c)) ∧
    (c.op = 7 → exec (.waitEvent a q) s = .next (s.waitStart a.val n c)) ∧
    (c.op = 8 → c.a0 % 2 = 1 → exec (.signal a q) s = .next ((s.modAllot a.val (fun x => { x with
      counters := tset x.counters (bits c.a1 5 0) (tget 0 x.counters (bits c.a1 5 0) + BitVec.ofNat 64 c.a2) })).completeWake
        a.val n c.id stOK 0)) ∧
    (let p := bits c.a1 7 0
     let k := bits c.a1 11 8
     c.op = 8 → c.a0 % 2 = 0 → p < 224 → s.allotOfPav p = some a.val → (s.pav p).role ≠ .reserve →
      exec (.signal a q) s = .next ((s.modSeq (s.mappedTo a.val p) (fun x => { x with
        ctrs := x.ctrs.set k (lget 0 x.ctrs k + BitVec.ofNat 32 c.a2) })).completeWake a.val n c.id stOK 0)) ∧
    (let i := bits c.a0 15 0
     let y := tget Progress.idle s.lodge.progress (i - 0x7000)
     c.op = 0x0A → bit c.a0 32 = true → 0x7000 ≤ i → i < 0x7100 →
      s.mailView (s.portOf a.val).val (s.pfOf a.val).val i 1 false = 0 → exec (.queryProgress a q) s =
        .next (s.answerQueryProgress a.val n c i y.position.toNat y.total.toNat y.state.toNat)) ∧
    (∀ j, c.op = 0x0B → x.job c.a0 = some j → j.launch = true → exec (.abortJob a q) s =
      .next (((s.modJob a.val c.a0 (fun k => { k with aborted := k.aborted || k.ended.isNone })).stopJob a.val
        stRefusedState 0).waitStart a.val n c))

/-- R365, R391, R392, R393, R399: the other events of commands complete: a COPY whose ends are admitted and clear moves its bytes; a LOAD_IMAGE whose host data has arrived stores
its image; a job that has ended, its record numbered and what it issued
finished, finishes with its status; a waiting event and a host read that have taken too long complete with
TIMEOUT; a finished operation's progress index is released after a second. -/
def Obligations.CommandEventsComplete : Prop :=
  ∀ (a : AllotIx) (q : BitVec 16) (s : State), let x := s.allot a.val
    (∀ c, let len := bits c.a2 39 0
      let src := s.copyPlace a.val (bits c.a2 43 40) c.a0 len false
      let dst := s.copyPlace a.val (bits c.a2 47 44) c.a1 len true
      x.enable = .open_ → s.lodge.isReady = true → (x.queue q.toNat).cmds = [c] → c.op = 2 → c.state = .running → 1 ≤ len →
      bits c.a2 43 40 = 1 → src.1 = 0 → dst.1 = 0 → s.placeFenced a.val dst.2 = false →
      s.copyBlocked a.val src.2 dst.2 len = false → (∀ p t, s.copyAsk a.val dst.2 len ≠ (p, .broken t)) →
      let r := s.saveCopy a.val src.2 dst.2 len
      r.1 = .nothing → exec (.copy a q .waiting) s = .next (r.2.runCopy a.val q.toNat c src.2 dst.2 len ([], []))) ∧
    (∀ c b p, let n := bits c.a2 5 0
      x.enable = .open_ → s.lodge.isReady = true → (x.queue q.toNat).cmds = [c] → c.op = 9 → c.state = .running →
      n ≠ 0 → c.a1 ≠ 0 → s.imageFits n c.a1 = true → (s.image n).status = 0 → s.holdupLow = false → b.length = c.a1 →
      p.length = (b.length + 63) / 64 → p.any id = false →
      exec (.loadImage a q (.data b p)) s = .next (((s.storeImage n b (some a)).modQueue a.val q.toNat (fun y => { y with
        cmds := y.cmds.map (fun k => if k.id = c.id then { k with state := .waiting, position := c.a1 } else k) })).charge
          a.val q.toNat c.a1)) ∧
    (∀ (job : BitVec 64) j st, x.job job.toNat = some j → j.ended = some st → j.record ≠ pendingRecord →
      (j.launch = true → (s.holdersOf a.val).all s.settled = true) →
      exec (.jobEnd a job) s = .next (s.finishJob a.val j st.toNat)) ∧
    (∀ c, (x.queue q.toNat).cmds = [c] → c.op = 7 → c.state = .waiting → c.a3 ≠ 0 → c.started + c.a3 ≤ s.ns →
      exec (.waitEventTimeout a q) s = .next (s.completeWake a.val q.toNat c.id stTimeout 0)) ∧
    (∀ c, (x.queue q.toNat).cmds = [c] → c.op = 9 → c.state = .running →
      exec (.pcieCompletionTimeout a q) s =
        .next ((s.portCount (s.portOf a.val).val 7).endCopy a.val q.toNat c stTimeout 0)) ∧
    (∀ k : Fin 160, let y := tget Progress.idle s.lodge.progress (0x60 + k.val)
      y.owner.isSome = true → y.state ≠ 1 → 10 ^ 9 + y.ended ≤ s.ns →
      exec (.progressIndexRelease k) s = .next (s.modLodge (fun l => { l with progress := tdel l.progress (0x60 + k.val) })))

/-! ### Server ports and windows (R400–R422) -/

/-- R409, R410, R412, R413: a frame that passes the checks of R409 completes. A WRITE frame of a transfer in progress that waits for nothing
lands; the first of a transfer whose range it may write starts the transfer, which fills the tags that the range has, and lands; one of a completed transfer is answered
DONE; a READ starts an outgoing transfer, once; a BIND binds its window and is answered DONE; a DONE of status 0 ends an RDATA; a NACK BUSY delays its
transfer. -/
def Obligations.TransportCompletes : Prop :=
  ∀ (n : SrvIx) (g : TFrame) (e : Nat) (w : Window) (s : State),
    let f := g.split
    let t := (s.srvCount n.val 0).modWindow n.val e (fun _ => w)
    let off := f.offset.toNat
    let len := f.length.toNat
    (g.isA 1 = true → s.checkFrame n.val f 0 off len (s.writeShape n.val f) (s.seenWrite n.val f) = .accept e w →
      let known := (s.srv n.val).incoming.any (fun j => j.is f)
      (w.last.contains (f.peer, f.xid) = true →
        exec (.transportWrite n g) s = .next (t.sendDone n.val e f.peer f.handle f.xid tsOK)) ∧
      (∀ x, known = true → w.last.contains (f.peer, f.xid) = false → (t.srv n.val).incoming.find? (fun j => j.is f) = some x →
        x.tagWait = false → t.windowWaits w = false → exec (.transportWrite n g) s = .next (t.landIncoming n.val e w x f)) ∧
      (known = false → w.last.contains (f.peer, f.xid) = false → t.windowBroken w off len = none →
        t.incomingBlocked w off len = false →
        let x := Incoming.mk f.peer f.xid f.handle f.offset len 0 0 0 t.ns false []
        let u := (match t.windowTags w off len with
          | some (p, ts) => t.modPav p (fun x => x.fillStart ts)
          | none => t).modSrv n.val (fun y => { y with incoming := y.incoming ++ [x] })
        (u.srv n.val).incoming.find? (fun j => j.is f) = some x → u.windowWaits w = false →
        exec (.transportWrite n g) s = .next (u.landIncoming n.val e w x f))) ∧
    (let known := (s.srv n.val).outgoing.any (fun o => !o.push && o.peer == f.peer && o.xid == f.xid && o.handle == f.handle)
     g.isA 2 = true → s.checkFrame n.val f 1 off len (f.data.isEmpty && f.bytes == 0) known = .accept e w →
       exec (.transportRead n g) s = .next (if known then t else t.addOut n.val
         (Outgoing.mk false f.peer f.xid (BitVec.ofNat 12 e) f.handle f.offset len 0 t.ns none false false))) ∧
    (g.isA 7 = true → s.checkFrame n.val f 1 0 64 (f.data.length == 4 && f.bytes == 4) true = .accept e w →
      exec (.bind n g) s = .next (((s.srvCount n.val 0).modWindow n.val e (fun _ => { w with
        binding := some (f.peer, BitVec.ofNat 32 (leNat f.data)) })).sendDone n.val e f.peer f.handle f.xid tsOK)) ∧
    (s.answerFrame n.val f = .accept e w → ∀ o,
      (t.outOf n.val f = some o → g.isA 5 = true → f.status = 0 → o.push = false → exec (.done n g) s = .next ((t.modSrv n.val (fun x =>
        { x with outgoing := x.outgoing.filter (fun y => !o.same y) })).pumpOut n.val)) ∧
      (let t := ((s.srvCount n.val 0).srvCount n.val 9).modWindow n.val e (fun _ => w)
       t.outOf n.val f = some o → g.isA 6 = true → f.status = 4 → exec (.transportNack n g) s = .next (t.modSrv n.val (fun x => { x with
         outgoing := x.outgoing.map (fun y => if o.same y then
           { y with busySince := some (y.busySince.getD t.ns), busy := true, since := t.ns } else y) }))))

/-- R403, R411, R412, R415, R416, R507, R508: the timers and links of the server ports complete: missing frames are asked for in rounds 1–4 and the
transfer is then answered TIMEOUT; an unanswered transfer is sent again, and fails after its fourth round; a BUSY one is sent
again, or fails; a closing window whose frames have landed is freed; a port of a high error rate retrains; a Footbridge span
with too many errors in a window retrains, its failed lanes given to their spares; a training that succeeds brings a port up. -/
def Obligations.TransferTimersComplete : Prop :=
  ∀ (n : SrvIx) (s : State),
    (∀ peer xid handle i, (s.srv n.val).incoming.find? (fun i => i.peer == peer && i.xid == xid && i.handle == handle) = some i →
      i.tagWait = false → i.since + s.landingNs ≤ s.ns → exec (.transferTimer n peer xid handle) s = .next
        (if i.round < 4 then (s.modSrv n.val (fun x => { x with incoming := x.incoming.map (fun j =>
            if j.peer = peer ∧ j.xid = xid ∧ j.handle = handle then { j with round := i.round + 1, since := s.ns } else j) })).nackMissing
              n.val (bits handle.toNat 11 0) i (i.round + 1)
         else ((s.modSrv n.val (fun x => { x with incoming := x.incoming.filter (fun j =>
            !(j.peer == peer && j.xid == xid && j.handle == handle)) })).srvCount n.val 12).sendDone n.val
              (bits handle.toNat 11 0) peer handle xid tsTimeout)) ∧
    (∀ xid o, (s.srv n.val).outgoing.find? (fun o => o.xid == xid && !o.wait && !o.busy &&
        decide (o.since + 2 * s.landingNs ≤ s.ns)) = some o → exec (.outgoingResend n xid) s = .next
        (if 4 ≤ o.rounds then (s.failOut n.val o tsTimeout).pumpOut n.val
         else (s.modSrv n.val (fun x => { x with outgoing := x.outgoing.map (fun y =>
            if o.same y then { y with rounds := y.rounds + 1, since := s.ns } else y) })).sendParts
              n.val o true (List.range (framesOf o.length)))) ∧
    (∀ xid o,
      (s.busyOut n.val xid true = some o → exec (.busyRetry n xid true) s = .next ((s.failOut n.val o tsBusy).pumpOut n.val)) ∧
      (s.busyOut n.val xid false = some o → exec (.busyRetry n xid false) s = .next ((s.modSrv n.val (fun x => { x with
        outgoing := x.outgoing.map (fun y => if o.same y then { y with since := s.ns, busy := false } else y) })).sendParts
          n.val o false (List.range (framesOf o.length))))) ∧
    (∀ (entry : BitVec 12) w, tget? (s.srv n.val).windows entry.toNat = some w → w.closing = true →
      (s.srv n.val).incoming.all (fun i => bits i.handle.toNat 11 0 != entry.toNat || i.waiting.isEmpty) = true →
      exec (.windowClosed n entry) s = .next ((s.windowEnd n.val entry.toNat).settleSrv n.val)) ∧
    (∀ ber : BitVec 32, 0x3727C5AC < ber.toNat → exec (.serverPortRetrain n ber) s = .next
      (((s.modSrv n.val (fun x => { x with ber := ber })).modSrv n.val (fun x => { x with retraining := true })).srvCount n.val 15)) ∧
    (∀ (k : Fin 9) (errors bits : Nat), 1000000000 + (s.link (.span k)).winStart ≤ s.ns → bits < 10 ^ 12 * errors →
      exec (.footbridgeRetrain k errors bits []) s = .next (s.modLink (.span k) (fun x => { x with
        winStart := s.ns, trained := true })) ∧
      (∀ lanes, lanes ≠ [] → exec (.footbridgeRetrain k errors bits lanes) s = .next (((s.failLanes k.val lanes).modLink (.span k)
        (fun x => { x with winStart := s.ns, trained := true })).flashWrite .repair 0 1))) ∧
    (∀ g, s.lodge.portsTrain = true → (s.seg (n.val / 2)).dom.on = true → (s.srv n.val).mode = 0 ∨ g = true →
      exec (.serverLinkTraining n true g) s = .next (s.modSrv n.val (fun x => { x with
        linkUp := true, trained := true, retraining := false })))

/-! ### Drills, records, replay and shuffles (R441–R467) -/

/-- R441, R442, R446–R448: a drill of a drillable unit that passes, or passes when run again, completes and leaves its note; a forced drill
falls due at a boundary; a record whose hold has ended is sent, and one that has been sent reaches the log. -/
def Obligations.DrillsComplete : Prop :=
  (∀ (u : DrillUnit) again (s : State), s.drillable u = true →
    exec (.drill u true again) s = .next (s.drilled u true 1) ∧
    exec (.drill u false true) s = .next ((s.record (s.drillRec u 1 false)).drilled u true 2)) ∧
  (∀ (p : PavIx) (a : Nat) (s : State), s.lodge.drill.isSome = true → s.allotOfPav p.val = some a →
    (s.allot a).frozen = none → (s.pav p.val).seq.cadBoundary = true → (s.pav p.val).seq.running = false →
    (s.pav p.val).lastDrill + 10 ^ 9 * (2 * s.lodge.drillInterval.toNat) ≤ s.ns →
    exec (.forcedDrill p) s = .next (s.modPav p.val (fun v => { v with drillDue := true }))) ∧
  (∀ (p : PlotIx) (g : SegIx) r (s : State),
    ((s.plot p.val).coal.ready s.ns = some r → exec (.coalescerSend (.plot p)) s = .next ((s.modPlot p.val (fun x => { x with
      coal := { (s.plot p.val).coal with held := (s.plot p.val).coal.held.erase r } })).modLodge (fun l => { l with
        arriving := l.arriving ++ [r] }))) ∧
    ((s.seg g.val).coal.ready s.ns = some r → exec (.coalescerSend (.segment g)) s = .next ((s.modSeg g.val (fun x => { x with
      coal := { (s.seg g.val).coal with held := (s.seg g.val).coal.held.erase r } })).modLodge (fun l => { l with
        arriving := l.arriving ++ [r] }))) ∧
    (∀ t, s.lodge.arriving = r :: t →
      exec .recordArrival s = .next ((s.modLodge (fun l => { l with arriving := t })).logRecord r)))

/-- R449, R451, R456, R458, R459, R462–R466: the recovery commands of an allotment complete: a frozen section whose transfers are over is replayed and, 1 ms after its freeze, its transfers are
abandoned; a dead cell's position takes a spare cell that its pavilion may pick, and without one its pavilion is shuffled; a pavilion and a plot are
shuffled; a pavilion without an alternate is doubled; a stand-in takes its next context, and one that fails places its contexts
again; a reserve that works ends a doubling. -/
def Obligations.RecoveryCompletes : Prop :=
  ∀ (a : AllotIx) (p : PavIx) (pl : PlotIx) (s : State),
    (∀ f, (s.allot a.val).frozen = some f →
      (f.shuffle = false → (s.allot a.val).closeDue = false → (s.allot a.val).launchJob.isSome = true → s.drained a.val f = true →
        exec (.replay a) s = .next (s.replay a.val f)) ∧
      (f.abandoned = false → 1000000 + f.since ≤ s.ns → ∃ t : State, exec (.freezeAbandon a) s = .next (t.modAllot a.val (fun x =>
        { x with frozen := some { f with abandoned := true } })))) ∧
    (s.allotOfPav p.val = some a.val →
      (s.works a.val p.val = true →
        exec (.pavilionShuffle p) s = .next (s.pavShuffle a.val p.val) ∧
        ((s.alternateFor a.val ((s.allot a.val).targetOf p.val)).isNone = true → (s.pav p.val).partners = [] →
          let u := (s.freezeFor a.val).changePav p.val (fun y => { y with enable := .failed })
          exec (.doubling p) s = .next ((u.double a.val ((s.allot a.val).targetOf p.val) p.val (some p.val)
            (u.plot (plotOf p.val)).offCause.isNone true).shuffleEnd a.val 1))) ∧
      ((s.pav p.val).partners ≠ [] →
        (let ring := p.val :: (s.pav p.val).partners
         let cur := (s.pav p.val).context
         let next := lget p.val ring ((ring.idxOf cur + 1) % ring.length)
         let t := (s.swapContext p.val next).modPav cur (fun y => { y with outAt := s.ns })
         (s.pav p.val).quiet = true → (s.allot a.val).frozen = none → (∀ c ∈ ring, c ≠ cur → 8000000 + (s.pav c).outAt ≤ s.ns) →
           exec (.contextSwitch p) s = .next (t.shiftTimers a.val p.val next (t.ns - (t.pav next).outAt))) ∧
        exec (.standInFailure p) s = .next (s.pavShuffle a.val p.val)) ∧
      exec (.doublingEnd p) s = .next (s.endDoubling a.val p.val)) ∧
    (s.ownerOf pl.val = some a.val →
      let why := (s.plot pl.val).offCause
      let relock := (s.plot pl.val).h.on && !(s.plot pl.val).pll
      let t := ((s.freezeFor a.val).plotPlace a.val pl.val why.isNone ((why == some .lost && !relock) || why.isNone)).modPlot pl.val
        (fun x => { x with shedding := false })
      exec (.plotShuffle pl) s = .next ((t.record { t.plotRec pl.val 0x11 3 7 3 with
        allotment := BitVec.ofNat 5 a.val }).shuffleEnd a.val 2)) ∧
    (∀ (cell dummy : Fin 1088) (coreOnly : Bool) n,
      let q := p.val % 4
      let dl := physLocal q cell.val
      let ul := physLocal q dummy.val
      let u := s.cellDead p.val cell.val (!coreOnly)
      let x := s.plot (plotOf p.val)
      isSpare q cell.val = false → x.remapOf dl.1 dl.2 = none → x.remap.find? (fun r => r.ux.val == dl.1 && r.uy.val == dl.2) = none →
      (coreOnly = true ∨ x.routerLost q dl = false) → cellNumber q dl.1 dl.2 = some n →
      (x.remap.length = 64 ∨ (u.spareCells p.val).isEmpty = true →
        (u.allotOfPav p.val = some a.val → exec (.cellShuffle p cell coreOnly dummy) s = .next (u.pavShuffle a.val p.val)) ∧
        (u.allotOfPav p.val = none → exec (.cellShuffle p cell coreOnly dummy) s = .next (u.failPav p.val))) ∧
      (x.remap.length ≠ 64 → (u.spareCells p.val).isEmpty = false → (u.dummyPicks p.val).contains dummy.val = true →
        let entry : Remap := { rdead := !coreOnly, dx := Fin.ofNat 64 dl.1, dy := Fin.ofNat 68 dl.2, ux := Fin.ofNat 64 ul.1, uy := Fin.ofNat 68 ul.2 }
        let t := u.clearKeeps p.val dummy.val
        (u.allotOfPav p.val = some a.val → exec (.cellShuffle p cell coreOnly dummy) s =
          .next (((t.freezeFor a.val).useDummy p.val n dummy.val coreOnly entry).shuffleEnd a.val 0)) ∧
        (u.allotOfPav p.val = none → exec (.cellShuffle p cell coreOnly dummy) s =
          .next (t.useDummy p.val n dummy.val coreOnly entry)) ∧
        ∀ v : State, ((v.useDummy p.val n dummy.val coreOnly entry).plot (plotOf p.val)).remap =
          (v.plot (plotOf p.val)).remap.filter (fun r => !(r.dx == entry.dx && r.dy == entry.dy)) ++ [entry]))

/-! ### Power, clocks, heat and ageing (R469–R495) -/

/-- R472, R474, R475, R477, R478, R480, R489, R493–R495: the power commands complete: a tick sets one duty for the plots without a halved group; an alert halves a group, and
its end restores the duty; a rail that reports its voltage takes its next step; a domain with a short opens its switch and is
lost; power good that is lost loses the group's domains; a PLL's loss of lock is handled as an H loss; a relocked plot returns;
measurements plan voltages; a flash sector is written; a charge is read. -/
def Obligations.PowerCompletes : Prop :=
  ∀ (g : Fin 17) (d : Domain) (p : PlotIx) (s : State),
    (∀ rs, ∃ t : State, ∃ k : Nat, exec (.powerControlTick rs) s = .next (t.each (List.range 56) (fun s p =>
      if (s.group (groupOf (3 * p))).halved then s else s.modPlot p (fun x => { x with capDuty := k }.settleDuty)))) ∧
    ((s.group g.val).alert = false → (s.group g.val).halved = false → exec (.alertLow g) s =
      .next ((s.modGroup g.val (fun x => { x with alert := true, halved := true })).each (plotsOfGroup g.val)
        (fun s p => s.modPlot p (fun x => { x with capDuty := max 1 (min x.capDuty x.heatDuty / 2) }.settleDuty)))) ∧
    ((s.group g.val).halved = true → exec (.alertClear g) s =
      .next ((s.modGroup g.val (fun x => { x with alert := false, halved := false })).each
        (plotsOfGroup g.val) (fun s p => s.modPlot p (fun x => { x with capDuty := s.lodge.capDuty }.settleDuty)))) ∧
    (∀ rail mv, exec (.avsStep rail mv) s = .next ((s.modLodge (fun l => { l with
      rails := tmod Rail.zero l.rails rail.val (fun x => { x with mv := mv }) })).avsNext rail.val)) ∧
    (s.domainOn d = true → exec (.shortDetected d) s =
      .next (((s.shortOut d).modLodge (fun l => { l with shorts := satInc l.shorts })).loseForGood d)) ∧
    ((s.group g.val).pg = true → exec (.pgLoss g) s = .next ((s.modGroup g.val (fun x => { x with pg := false })).each
      ((s.modGroup g.val (fun x => { x with pg := false })).groupDomains g.val) State.loseForGood)) ∧
    ((s.plot p.val).pll = true → exec (.pllLockLoss p) s = .next ((s.loseDomain (.plot p .H)).modPlot p.val (fun x => { x with
      h := { x.h with on := true }, relockTried := false }))) ∧
    (∀ ok, (s.plot p.val).h.on = true → (s.plot p.val).pll = false → (s.plot p.val).relockTried = false →
      (s.plot p.val).offCause = some .lost → s.ownerOf p.val = none →
      ∃ t : State, exec (.pllRelock p ok) s = .next (t.modPlot p.val (fun x => { x with enable := .open_ }))) ∧
    (∀ m, exec (.ageingMeasurement m) s = .next ((s.each m State.aged).flashWrite .ageing 0 1)) ∧
    (∀ j rest, s.lodge.flashJobs = j :: rest → s.holdupLow = false → j.region ≠ .images → exec .flashSectorWrite s = .next (s.sectorDone j rest) ∧
      (1 < j.left → (s.sectorDone j rest).lodge.flashJobs = { j with left := j.left - 1 } :: rest) ∧
      (j.left ≤ 1 → j.onB = false → (s.sectorDone j rest).lodge.flashJobs = { j with onB := true, left := j.sectors } :: rest) ∧
      (j.left ≤ 1 → j.onB = true → (s.sectorDone j rest).lodge.flashJobs = rest)) ∧
    (∀ mJ, exec (.holdUpCharged mJ false) s = .next (s.modLodge (fun l => { l with holdup := mJ })))

/-- R481–R488: the heat commands complete: a due plot is derated between runs; a first reading at the threshold warns; the duty falls by 8 and rises
by 1; a warm plot at the shed threshold is shed, and 5 °C above it is cut; the trip threshold drives THERM_TRIP_N low and its release
raises it; a cool plot without an owner returns. -/
def Obligations.HeatCompletes : Prop :=
  ∀ (p : PlotIx) (temp : BitVec 32) (s : State), let t := s.setTemp p.val temp
    ((s.plot p.val).derateDue = true → (∀ i ∈ pavsOf p.val, (s.pav i).seq.running = false) → ∃ u : State,
      exec (.derate p) s = .next ((u.record (u.powerRec (.plot p .E) 1 0)).avsNext (3 * p.val)) ∧
      u = s.modPlot p.val (fun x => { x with
        derated := true, derateDue := false, powerState := if x.powerState = 0 then 1 else x.powerState })) ∧
    (t.lodge.warn.toInt ≤ temp.toInt → (t.plot p.val).warned = false → exec (.thermalWarning p temp) s =
      .next ((t.modPlot p.val (fun x => { x with warned := true, lastDutyStep := t.ns })).event 0x0004 p.val (0x2100 + p.val) 3
        ((t.ownerOf p.val).getD 0x1F))) ∧
    (t.lodge.warn.toInt ≤ temp.toInt → 10000000 + (t.plot p.val).lastDutyStep ≤ t.ns → exec (.thermalDutyStep p temp) s =
      .next (t.modPlot p.val (fun x => { x with heatDuty := max 8 (x.duty - 8), lastDutyStep := t.ns }.settleDuty))) ∧
    (temp.toInt + 16 ≤ t.lodge.warn.toInt → 100000000 + (t.plot p.val).lastDutyStep ≤ t.ns → exec (.thermalDutyStep p temp) s =
      .next (t.modPlot p.val (fun x => { x with heatDuty := min 64 (x.heatDuty + 1), lastDutyStep := t.ns }.settleDuty))) ∧
    ((t.plot p.val).warm = true →
      (t.lodge.shed.toInt ≤ temp.toInt → temp.toInt < t.lodge.shed.toInt + 40 → ∃ u, exec (.shed p temp) s = .next u ∧
        u = ((t.record (t.powerRec (.plot p .E) 1 5)).shedPlot p.val .heat 2).event 0x0005 p.val (0x2100 + p.val) 3
          ((t.ownerOf p.val).getD 0x1F)) ∧
      (t.lodge.shed.toInt + 40 ≤ temp.toInt → exec (.cut p temp) s =
        .next ((t.record (t.powerRec (.plot p .E) 1 5)).cutPlot p.val .heat 3))) ∧
    (880 ≤ temp.toInt → (t.plot p.val).warm = false → exec (.thermTrip (.plot p) temp) s = .next (t.trip p.val (0x2100 + p.val))) ∧
    (s.lodge.tripLow = true → exec .thermTripRelease s =
      .next ((s.modLodge (fun l => { l with tripLow := false })).emit (.thermTrip false))) ∧
    (∀ c, (t.plot p.val).offCause = some .heat → (t.plot p.val).coolSince = some c → 10 * 10 ^ 9 + c ≤ t.ns →
      t.ownerOf p.val = none → (t.plot p.val).enable = .open_ → exec (.plotReturn p temp) s = .next (t.backPlot p.val))

/-! ### Start-up and the deal (R496–R520) -/

/-- R36, R332, R494, R497, R499–R502, R505, R506, R510, R512: the start-up commands complete: aux power applied boots the Lodge,
or holds it while its reset is low, and its loss stops the Lodge, with what flash and fuses hold kept; the Lodge's reset holds it and closes the
relay, and its release boots it; power good sets rails; segments and waves are switched on and end their training and BIST; a link that passes is
checked, and an express link that fails twice is withdrawn; a ring port's link changes; a spine's first break is logged. -/
def Obligations.StartupCompletes : Prop :=
  ∀ (s : State),
    (s.lodge.aux = false → let t := s.modLodge (fun l => { l with aux := true })
      (s.lodge.resetLow = false → exec .auxPowerOn s = .next t.boot) ∧
      (s.lodge.resetLow = true → exec .auxPowerOn s = .next (t.modLodge (fun l => { l with phase := .held })))) ∧
    (s.lodge.aux = true → let t := s.stopFlash.wipe false
      exec .auxPowerLoss s = .next (t.emit (.relay true)) ∧ t.lodge.phase = .off ∧ t.lodge.aux = false ∧ t.lodge.relay = true ∧
        t.plots = [] ∧ t.segs = [] ∧ t.lodge.flashA = s.stopFlash.lodge.flashA ∧ t.lodge.flashB = s.stopFlash.lodge.flashB ∧
        t.lodge.secFuse = s.stopFlash.lodge.secFuse) ∧
    (s.lodge.resetLow = false → let t := s.stopFlash.wipe true
      (s.lodge.aux = true → exec .lodgeResetAssert s = .next (((t.modLodge (fun l => { l with resetLow := true })).modLodge
        (fun l => { l with phase := .held })).emit (.relay true))) ∧
      (s.lodge.aux = false → exec .lodgeResetAssert s = .next (t.modLodge (fun l => { l with resetLow := true })))) ∧
    (s.lodge.resetLow = true → let t := s.modLodge (fun l => { l with resetLow := false })
      (s.lodge.aux = true → exec .lodgeResetRelease s = .next t.boot) ∧
      (s.lodge.aux = false → exec .lodgeResetRelease s = .next t)) ∧
    (∀ b up, (up = false ∨ s.lodge.booted = true) → exec (.ringPortLinkChange b up) s = .next (s.modLodge (fun l =>
      if b then { l with portB := up } else { l with portA := up }))) ∧
    (∀ east (k : Fin 29), (∀ e ∈ s.lodge.spineBreaks, e.1 ≠ east) → ∃ t : State, exec (.spineBreak east k) s = .next t ∧
      t.lodge.spineBreaks = s.lodge.spineBreaks ++ [(east, k.val)]) ∧
    (∀ g, s.lodge.aux = true → ∃ t : State, exec (.powerGood g) s = .next t.settleStep1 ∧
      (t.group ((g.map (·.val)).getD 17)).pg = true) ∧
    (s.lodge.phase = .steps23 →
      (s.lodge.computeReset = false → exec .segmentPowerOn s =
        .next (s.each ((List.range 8).filter (fun n => !(s.seg n).dom.on && !(s.seg n).trainTask)) (fun s n =>
          if (s.group (groupOf (168 + n))).pg && !(s.seg n).dom.shorted then
            (s.modSeg n (fun x => { x with dom := { x.dom with on := true }, pll := true })).each (List.range 3) (fun s i =>
              s.modStack (3 * n + i) (fun x => { x with state := 1 }))
          else ((s.loseDomain (.segment (Fin.ofNat 8 n))).segTrained (Fin.ofNat 8 n) []).modSeg n (fun x =>
            { x with linkTask := true }))).settleStart) ∧
      (∀ w : Fin 7, s.lodge.waves.contains w.val = false → tget 0 s.lodge.stepStart 3 + 50000000 * w.val ≤ s.ns →
        exec (.plotWave w) s = .next ((s.modLodge (fun l => { l with waves := l.waves ++ [w.val] })).each (List.range 8)
          (fun s c => s.wavePlot (8 * w.val + c))).settleStart)) ∧
    (∀ (n : SegIx) ok, (s.seg n.val).dom.on = true → (s.seg n.val).trainTask = false →
      (s.lodge.set.hbmTraining = 0 ∨ ∀ m, m < n.val → (s.seg m).trainTask = true) →
      exec (.segmentTrainingDone n ok) s = .next ((s.segTrained n (ok.map (·.val))).modSeg n.val (fun x =>
        { x with trained := true })).settleStart) ∧
    (∀ p : PlotIx, (s.plot p.val).e.on = true → (s.plot p.val).g.on = true → (s.plot p.val).bistDone = false →
      exec (.bistDone p { meLines := [], bitColumns := [], cells := [], pavilions := [], tracks := [] }) s =
        .next (s.modPlot p.val (fun x => { x with bistDone := true, bistTask := true })).settleStart) ∧
    (∀ (p : PlotIx) d j, let l := LinkId.express p d j
      let t := s.modLink l (fun x => { x with checked := true, trained := true, winStart := s.ns })
      s.lodge.phase = .step5 → linkExists l = true → ((linkWires l).map (fun w => wiresLost w (t.link l).failed)).getD false = false →
      (∀ ok, exec (.linkCheck l true ok [] []) s = .next t.settleLinks ∧ exec (.linkCheck l ok true [] []) s = .next t.settleLinks) ∧
      exec (.linkCheck l false false [] []) s = .next (t.withdraw l).settleLinks)

/-- R496, R513–R518: the deal completes: the start-up deal and an allotment's open with the manifest of their deck; a card that agrees with its
manifest line, at a module of its deal, is sent, and the gates that it names deliver it; the deck's end ends the sending; a round ends at a gate that
lacks nothing by its report, and otherwise, before the third, by the next round; the bounds of steps 1, 2, 3 and 5 end their steps. -/
def Obligations.DealCompletes : Prop :=
  ∀ (s : State),
    (∀ (u : State) a lines, (u.openDeal a lines).lodge.deal =
      some { allotment := a, number := u.lodge.dealNumber, lines := lines, sent := [], ended := false }) ∧
    (s.lodge.deal = none →
      (s.lodge.phase = .step4 → s.lodge.set.activeBase = 0 → exec (.dealStart none) s =
        .next ((s.each (List.range 56) (fun s p => (s.modPlot p (fun x => { x with gateHand := 0 })).eachPav p (fun v =>
          { v with handAll := 0, hands := [], stageHand := 0 }))).openDeal none (manifestOf (Config.startDeck s.lodge.fw.image)))) ∧
      (∀ a : AllotIx, s.lodge.phase = .ready → s.dealDue a = true → ∃ u : State, exec (.dealStart (some a)) s =
        .next (u.openDeal (some a) (manifestOf (s.parcelDeck a.val))))) ∧
    (∀ d, s.lodge.deal = some d →
      (∀ (c : Card) missed m, d.lines.find? (fun m => m.number == c.number.val) = some m → c.deal.toNat = d.number % 256 →
        c.data.length = 4096 → m.digest = digest256 c.data → m.scope = c.scope → m.slot = c.slot → m.target = c.target →
        exec (.card c missed) s = .next (((s.emit (.card c.number.val none)).each
          ((s.dealGates d).filter (fun p => cardIn c.scope.toNat c.target.toNat p)) (fun s p => (s.modPlot p (fun x =>
            let cache := x.deal.cache ++ [CacheCard.mk c.number.val c.scope c.slot c.target c.data]
            { x with deal := { x.deal with
              cache := cache.drop (cache.length - 4096)
              missing := x.deal.missing.filter (· != c.number.val) } })).deliver p c missed)).modLodge (fun l => { l with
                deal := l.deal.map (fun d => { d with sent := d.sent ++ [c.number.val] }) }))) ∧
      (d.ended = false → (∀ m ∈ d.lines, d.sent.contains m.number = true) → exec .deckEnd s =
        .next ((s.modLodge (fun l => { l with deal := some { d with ended := true } })).each
          ((s.modLodge (fun l => { l with deal := some { d with ended := true } })).dealGates d)
          (fun s p => (s.modPlot p (fun x => { x with
            deal := { x.deal with ended := true, round := 1 } })).gateCount p)).settleDeal) ∧
      (∀ p : PlotIx, (s.plot p.val).deal.ended = true → (s.plot p.val).deal.reported = false →
        (s.dealGates d).contains p.val = true →
        ((s.lackingAll p.val).isEmpty = true → exec (.dealRoundEnd p) s = .next (s.gateCount p.val).settleDeal) ∧
        ((s.lackingAll p.val).isEmpty = false → (s.plot p.val).deal.round < 3 → exec (.dealRoundEnd p) s =
          .next (s.modPlot p.val (fun y => { y with deal := { y.deal with round := y.deal.round + 1 } }))))) ∧
    (∀ (n : StepNo) t, tget? s.lodge.stepStart n.val = some t → stepBound n.val + t ≤ s.ns →
      (n = 1 → s.lodge.phase = .step1 → exec (.startupStepBound n) s = .next s.endStep1) ∧
      (n = 2 → s.lodge.phase = .steps23 → s.lodge.computeReset = false → exec (.startupStepBound n) s =
        .next (s.each ((List.range 8).filter (fun k => !(s.seg k).trainTask)) (fun s k =>
          s.segTrained (Fin.ofNat 8 k) (below 24 (fun i => (s.stack i).trained)))).settleStart) ∧
      (n = 3 → s.lodge.phase = .steps23 → exec (.startupStepBound n) s =
        .next (s.each ((List.range 56).filter (fun p => !(s.plot p).bistTask && !(s.plot p).out)) (fun s p =>
          (s.each (pavsOf p) State.bistFail).modPlot p (fun x => { x with bistTask := true }))).settleStart) ∧
      (n = 5 → s.lodge.phase = .step5 → exec (.startupStepBound n) s =
        .next (s.each ((((List.range 56).filter (fun p => !(s.plot p).linkTask && !(s.plot p).out)).flatMap s.checksOf ++
          ((List.range 8).filter (fun k => !(s.seg k).linkTask)).flatMap s.segChecks).filter (fun k => !s.linkSettled k))
            State.withdraw).settleLinks))

/-! ### The module as a whole -/

/-- R504: with every task of start-up ended outside a compute reset, MODULE_READY at a Starting module whose start-up is in progress makes
0x2000:01 read Operational, or Stopped when 0x2000:02 is 0, and 0x7000:01 read done, and pushes event 0x000A; when every plot or every ring
segment has failed, the module stays Starting and 0x7000:01 reads failed. -/
def Obligations.ReadyFollows : Prop :=
  ∀ (r : Requester) (s : State), s.lodge.phase = .step5 → s.lodge.computeReset = false → s.objValue r 0x2000 1 = [0] →
    s.objValue r 0x7000 1 = [1] →
    (List.range 56).all (fun p => (s.plot p).linkTask || (s.plot p).out) = true →
    (List.range 8).all (fun n => (s.seg n).linkTask) = true →
    let failed := (List.range 56).all (fun p => (s.plot p).out) || (List.range 8).all (fun n => !(s.seg n).dom.on)
    let n := if s.objValue r 0x2000 2 = [0] then 1 else 3
    ∃ (t : State) (a : Nat),
      (failed = false → exec .moduleReady s =
          .next (((t.event 0x0009 0x7000 0x7000 1 a).wakeAll).event 0x000A n 0x2000 1 0x1F) ∧
        t.objValue r 0x2000 1 = [BitVec.ofNat 8 n] ∧ t.objValue r 0x7000 1 = [2]) ∧
      (failed = true → exec .moduleReady s = .next ((t.event 0x0009 0x7000 0x7000 1 a).wakeAll) ∧
        t.objValue r 0x2000 1 = [0] ∧ t.objValue r 0x7000 1 = [3])

/-- R321: a GRANULE request, read or write, whose sending plot does not belong to the named allotment, or one of whose lines lies in none of
that allotment's ranges, writes nothing: HBM and the segments' waiting writes are as they were, and after an error record the one answer is
DENIED, without data. -/
def Obligations.GranuleDenied : Prop :=
  ∀ (k : Packet) (s : State), k.ptype = 7 → k.crcOk = true → k.vc = 3 → k.opq = 0 → k.srcY = 481 → k.srcX.toNat < 56 →
    let q := granuleReq k s.ns
    (s.ownerOf k.srcX.toNat ≠ some q.allotment.toNat ∨
      ∃ i, i < q.lines ∧ s.lineOwned q.allotment.toNat (q.line.toNat + i) = false) →
    ∃ e : ErrRec, e.ty = 0x14 ∧ e.address.toNat = q.line.toNat ∧
      exec (.granule k) s = .next ((s.record e).emit (granuleAck q.seg (k.srcX, k.srcY) q.tag 1)) ∧
      (s.record e).hbm = s.hbm ∧ ∀ n, ((s.record e).seg n).writes = (s.seg n).writes

/-- A step takes the command at the front of the queue and runs it on the state with the queue's rest; on an empty queue the ns counter ticks, and
nothing else moves before Lodge boot (the model's choice, log 1). -/
def Obligations.StepRunsFront : Prop :=
  (∀ (c : Instr) (rest : List Instr) (s : State), s.pending = c :: rest → step s = exec c { s with pending := rest }) ∧
  (∀ (c : Instr) (s : State), step (s.push c) = exec c s) ∧
  (∀ (s : State), s.pending = [] → step s = .next s.tick ∧ (s.lodge.phase = .off → step s = .next s) ∧
    (s.lodge.phase = .ready → s.lodge.slew = 0 → step s = .next { s with ns := s.ns + 1 }))

/-- R241, R330, R333, R346, R350, R355, R503: before aux power the relay is closed, the module reads Starting, no unit's domain is on, the settings read their
defaults, no command waits, and HBM is in canonical form. -/
def Obligations.ResetState : Prop :=
  let s := State.reset
  let get := fun (i sub : Nat) => leNat (s.objValue (.ring 0 1) i sub)
  s.pending = [] ∧ s.out = [] ∧ s.safe = true ∧ s.lodge.relay = true ∧ get 0x1100 11 = 1 ∧
    get 0x2000 1 = 0 ∧ get 0x2000 2 = 1 ∧ get 0x2000 3 = 16 ∧ get 0x2000 4 = 10 ∧ get 0x2000 5 = 24 ∧ get 0x2000 6 = 20 ∧
    get 0x2000 7 = 22 ∧ get 0x2000 8 = 200000 ∧ get 0x2000 9 = 0 ∧ get 0x2000 10 = 0 ∧ get 0x1100 1 = 0x7E ∧ get 0x1100 5 = 1000 ∧
    get 0x1100 7 = 125 ∧ get 0x1800 2 = 2 ^ 64 - 1 ∧ get 0x3000 1 = 46000 ∧ get 0x3000 5 = 0 ∧ get 0x3100 1 = 720 ∧
    get 0x3100 2 = 800 ∧ get 0x3100 3 = 880 ∧ (∀ a : AllotIx, get (0x2400 + a.val) 1 = 0) ∧
    (∀ p : PavIx, (s.pav p.val).seq.running = false ∧ (s.pav p.val).me.running = none) ∧
    (∀ p : PlotIx, (s.plot p.val).e.on = false ∧ (s.plot p.val).g.on = false ∧ (s.plot p.val).h.on = false)

/-- HBM stays in canonical form: from every state in which its bytes and row states are in canonical form, a step that answers a state answers one in
which they are, so that equal contents stay equal data. -/
def Obligations.StepKeepsHbmCanonical : Prop := ∀ s t : State, s.safe = true → step s = .next t → t.safe = true

/-- No command and no step ends the run: in every state, reached or not, every command and the step answer a next state; a command that does
not apply leaves the state as it is (the model's choice, log 2). -/
def Obligations.CommandsNeverStop : Prop :=
  (∀ (c : Instr) (s : State), ∃ t, exec c s = .next t) ∧ (∀ s : State, ∃ t, step s = .next t)

/-- Every command leaves the queue, what has been sent and the draws made behind it: a next state waits for the same commands, its outputs
extend those before, and the draw counter of the free values does not fall. -/
def Obligations.CommandsKeepQueue : Prop :=
  ∀ (c : Instr) (s t : State), exec c s = .next t → t.pending = s.pending ∧ (∃ l, t.out = s.out ++ l) ∧ s.free ≤ t.free
end

