-- ==== Sys2Proof/Laws/Tables.lean ====
section
/-! SUPPORT. Tables: a read after a write to the same key gives what was written, and every other key is left alone. -/

namespace Sys2Proof.Machine

variable {α β : Type}

@[simp] theorem tget?_tset_same (t : Tab α) (k : Nat) (v : α) : tget? (tset t k v) k = some v := by
  induction t with
  | nil => simp [tset, tget?]
  | cons e t ih =>
    obtain ⟨j, u⟩ := e
    simp only [tset]
    split
    · simp [tget?]
    · split
      · simp [tget?]
      · rename_i h
        simp [tget?, Ne.symm h, ih]

@[simp] theorem tget?_tset_other (t : Tab α) (k i : Nat) (v : α) (h : i ≠ k) :
    tget? (tset t k v) i = tget? t i := by
  induction t with
  | nil => simp [tset, tget?, Ne.symm h]
  | cons e t ih =>
    obtain ⟨j, u⟩ := e
    simp only [tset]
    split
    · simp [tget?, Ne.symm h]
    · split
      · rename_i hk
        subst hk
        simp [tget?, Ne.symm h]
      · simp [tget?, ih]

@[simp] theorem tget_tset_same (d : α) (t : Tab α) (k : Nat) (v : α) : tget d (tset t k v) k = v := by
  simp [tget]

@[simp] theorem tget_tset_other (d : α) (t : Tab α) (k i : Nat) (v : α) (h : i ≠ k) :
    tget d (tset t k v) i = tget d t i := by
  simp [tget, h]

theorem tget_tset (d : α) (t : Tab α) (k i : Nat) (v : α) :
    tget d (tset t k v) i = if i = k then v else tget d t i := by
  split <;> simp_all

@[simp] theorem tget?_tdel_same (t : Tab α) (k : Nat) : tget? (tdel t k) k = none := by
  induction t with
  | nil => rfl
  | cons e t ih =>
    obtain ⟨j, u⟩ := e
    by_cases h : j = k
    · simpa [tdel, h] using ih
    · simpa [tdel, h, tget?] using ih

@[simp] theorem tget?_tdel_other (t : Tab α) (k i : Nat) (h : i ≠ k) : tget? (tdel t k) i = tget? t i := by
  induction t with
  | nil => rfl
  | cons e t ih =>
    obtain ⟨j, u⟩ := e
    by_cases hj : j = k
    · subst hj
      simpa [tdel, tget?, Ne.symm h] using ih
    · by_cases hi : j = i
      · simp [tdel, tget?, hi, h]
      · simpa [tdel, hj, tget?, hi] using ih

@[simp] theorem tget_tmod_same (d : α) (t : Tab α) (k : Nat) (f : α → α) :
    tget d (tmod d t k f) k = f (tget d t k) := by simp [tmod]

@[simp] theorem tget_tmod_other (d : α) (t : Tab α) (k i : Nat) (f : α → α) (h : i ≠ k) :
    tget d (tmod d t k f) i = tget d t i := by simp [tmod, h]

@[simp] theorem aget_aset_same [DecidableEq α] (d : β) (t : List (α × β)) (k : α) (v : β) :
    aget d (aset t k v) k = v := by
  induction t with
  | nil => simp [aset, aget]
  | cons e t ih =>
    obtain ⟨j, u⟩ := e
    by_cases h : j = k <;> simp [aset, aget, h, ih]

@[simp] theorem aget_aset_other [DecidableEq α] (d : β) (t : List (α × β)) (k i : α) (v : β) (h : i ≠ k) :
    aget d (aset t k v) i = aget d t i := by
  induction t with
  | nil => simp [aset, aget, Ne.symm h]
  | cons e t ih =>
    obtain ⟨j, u⟩ := e
    by_cases hj : j = k
    · subst hj
      simp [aset, aget, Ne.symm h]
    · simp [aset, aget, hj, ih]

end Sys2Proof.Machine
end

