-- ==== Sys2Proof/Laws/Memory.lean ====
section
/-! SUPPORT. Byte memories and stores: a read after a write, and every operation keeps the canonical form. -/

namespace Sys2Proof.Machine

/-! ### Reads after writes -/

theorem memByte_below (lo k : Nat) (m : List Host.Cell) (h : memWfFrom lo m = true) (hk : k < lo) :
    memByte m k = 0 := by
  induction m generalizing lo with
  | nil => rfl
  | cons e t ih =>
    obtain ⟨j, u⟩ := e
    simp only [memWfFrom, Bool.and_eq_true, decide_eq_true_eq] at h
    have hj : j ≠ k := by omega
    simp only [memByte, hj, if_false]
    exact ih (j + 1) h.2 (by omega)

theorem memWfFrom_mono (lo lo' : Nat) (m : List Host.Cell) (h : memWfFrom lo m = true) (hl : lo' ≤ lo) :
    memWfFrom lo' m = true := by
  cases m with
  | nil => rfl
  | cons e t =>
    simp only [memWfFrom, Bool.and_eq_true, decide_eq_true_eq] at h ⊢
    exact ⟨⟨Nat.le_trans hl h.1.1, h.1.2⟩, h.2⟩

theorem memByte_memSet_from (lo : Nat) (m : List Host.Cell) (k : Nat) (v : Byte) (hw : memWfFrom lo m = true) :
    memByte (memSet m k v) k = v := by
  induction m generalizing lo with
  | nil =>
    simp only [memSet]
    split <;> simp_all [memByte]
  | cons e t ih =>
    obtain ⟨j, u⟩ := e
    simp only [memWfFrom, Bool.and_eq_true, decide_eq_true_eq] at hw
    simp only [memSet]
    split
    · rename_i hlt
      split
      · rename_i hv
        have hj : j ≠ k := by omega
        simp only [memByte, hj, if_false]
        rw [memByte_below (j + 1) k t hw.2 (by omega), hv]
      · simp [memByte]
    · split
      · rename_i he
        split
        · rename_i hv
          rw [memByte_below (j + 1) k t hw.2 (by omega), hv]
        · simp [memByte]
      · rename_i hn
        simp only [memByte, Ne.symm hn, if_false]
        exact ih (j + 1) hw.2

theorem memByte_memSet_same (m : List Host.Cell) (k : Nat) (v : Byte) (h : Memory.wf m = true) :
    memByte (memSet m k v) k = v := memByte_memSet_from 0 m k v h

theorem memByte_memSet_other (m : List Host.Cell) (k i : Nat) (v : Byte) (h : i ≠ k) :
    memByte (memSet m k v) i = memByte m i := by
  induction m with
  | nil =>
    simp only [memSet]
    split <;> simp [memByte, Ne.symm h]
  | cons e t ih =>
    obtain ⟨j, u⟩ := e
    simp only [memSet]
    split
    · split
      · rfl
      · simp [memByte, Ne.symm h]
    · split
      · rename_i hk
        subst hk
        split <;> simp [memByte, Ne.symm h]
      · simp [memByte, ih]

theorem memByte_memWrite_other (m : List Host.Cell) (a i : Nat) (d : List Byte) (h : i < a ∨ a + d.length ≤ i) :
    memByte (memWrite m a d) i = memByte m i := by
  induction d generalizing m a with
  | nil => rfl
  | cons b d ih =>
    simp only [List.length_cons] at h
    simp only [memWrite]
    rw [ih _ _ (by omega), memByte_memSet_other _ _ _ _ (by omega)]

/-! ### The canonical form -/

theorem memWfFrom_memSet (lo : Nat) (m : List Host.Cell) (k : Nat) (v : Byte) (h : memWfFrom lo m = true)
    (hk : lo ≤ k) : memWfFrom lo (memSet m k v) = true := by
  induction m generalizing lo with
  | nil =>
    simp only [memSet]
    split <;> simp_all [memWfFrom]
  | cons e t ih =>
    obtain ⟨j, u⟩ := e
    have h0 := h
    simp only [memWfFrom, Bool.and_eq_true, decide_eq_true_eq] at h
    simp only [memSet]
    split
    · rename_i hlt
      split
      · exact h0
      · rename_i hv
        simp only [memWfFrom, Bool.and_eq_true, decide_eq_true_eq]
        exact ⟨⟨hk, hv⟩, ⟨by omega, h.1.2⟩, h.2⟩
    · split
      · rename_i he
        split
        · exact memWfFrom_mono _ _ _ h.2 (by omega)
        · rename_i hv
          simp only [memWfFrom, Bool.and_eq_true, decide_eq_true_eq]
          exact ⟨⟨hk, hv⟩, by rw [he]; exact h.2⟩
      · simp only [memWfFrom, Bool.and_eq_true, decide_eq_true_eq]
        exact ⟨h.1, ih (j + 1) h.2 (by omega)⟩

theorem Memory.wf_memSet (m : List Host.Cell) (k : Nat) (v : Byte) (h : Memory.wf m = true) :
    Memory.wf (memSet m k v) = true := memWfFrom_memSet 0 m k v h (Nat.zero_le _)

theorem Memory.wf_memWrite (m : List Host.Cell) (a : Nat) (d : List Byte) (h : Memory.wf m = true) :
    Memory.wf (memWrite m a d) = true := by
  induction d generalizing m a with
  | nil => exact h
  | cons b d ih => exact ih _ _ (Memory.wf_memSet m a b h)

theorem memWfFrom_filter (lo : Nat) (m : List Host.Cell) (f : Host.Cell → Bool) (h : memWfFrom lo m = true) :
    memWfFrom lo (m.filter f) = true := by
  induction m generalizing lo with
  | nil => rfl
  | cons e t ih =>
    have h0 := h
    simp only [memWfFrom, Bool.and_eq_true, decide_eq_true_eq] at h
    simp only [List.filter_cons]
    split
    · simp only [memWfFrom, Bool.and_eq_true, decide_eq_true_eq]
      exact ⟨h.1, ih _ h.2⟩
    · exact memWfFrom_mono _ _ _ (ih _ h.2) (by omega)

theorem Memory.wf_memZero (m : List Host.Cell) (a n : Nat) (h : Memory.wf m = true) :
    Memory.wf (memZero m a n) = true := memWfFrom_filter 0 m _ h

/-! ### Stores -/

theorem rowsWfFrom_mono (lo lo' : Nat) (m : Tab RowMeta) (h : rowsWfFrom lo m = true) (hl : lo' ≤ lo) :
    rowsWfFrom lo' m = true := by
  cases m with
  | nil => rfl
  | cons e t =>
    simp only [rowsWfFrom, Bool.and_eq_true, decide_eq_true_eq] at h ⊢
    exact ⟨⟨Nat.le_trans hl h.1.1, h.1.2⟩, h.2⟩

theorem rowsWfFrom_filter (lo : Nat) (m : Tab RowMeta) (f : Nat × RowMeta → Bool) (h : rowsWfFrom lo m = true) :
    rowsWfFrom lo (m.filter f) = true := by
  induction m generalizing lo with
  | nil => rfl
  | cons e t ih =>
    simp only [rowsWfFrom, Bool.and_eq_true, decide_eq_true_eq] at h
    simp only [List.filter_cons]
    split
    · simp only [rowsWfFrom, Bool.and_eq_true, decide_eq_true_eq]
      exact ⟨h.1, ih _ h.2⟩
    · exact rowsWfFrom_mono _ _ _ (ih _ h.2) (by omega)

theorem rowsWfFrom_tset (lo : Nat) (m : Tab RowMeta) (k : Nat) (x : RowMeta) (h : rowsWfFrom lo m = true)
    (hk : lo ≤ k) (hx : x ≠ RowMeta.clean) : rowsWfFrom lo (tset m k x) = true := by
  induction m generalizing lo with
  | nil => simp [tset, rowsWfFrom, hk, hx]
  | cons e t ih =>
    obtain ⟨j, u⟩ := e
    simp only [rowsWfFrom, Bool.and_eq_true, decide_eq_true_eq] at h
    simp only [tset]
    split
    · simp only [rowsWfFrom, Bool.and_eq_true, decide_eq_true_eq]
      exact ⟨⟨hk, hx⟩, ⟨by omega, h.1.2⟩, h.2⟩
    · split
      · rename_i he
        simp only [rowsWfFrom, Bool.and_eq_true, decide_eq_true_eq]
        exact ⟨⟨hk, hx⟩, by rw [he]; exact h.2⟩
      · simp only [rowsWfFrom, Bool.and_eq_true, decide_eq_true_eq]
        exact ⟨h.1, ih (j + 1) h.2 (by omega)⟩

theorem Store.wf_iff (m : Store) :
    m.wf = true ↔ Memory.wf m.bytes = true ∧ rowsWfFrom 0 m.rows = true := by
  simp [Store.wf]

@[simp] theorem Store.wf_empty : Store.empty.wf = true := rfl

theorem Store.wf_setMeta (m : Store) (row : Nat) (x : RowMeta) (h : m.wf = true) : (m.setMeta row x).wf = true := by
  rw [Store.wf_iff] at h
  unfold Store.setMeta
  split <;> rw [Store.wf_iff]
  · exact ⟨h.1, rowsWfFrom_filter 0 _ _ h.2⟩
  · rename_i hx
    exact ⟨h.1, rowsWfFrom_tset 0 _ _ _ h.2 (Nat.zero_le _) hx⟩

theorem Store.wf_putRow (m : Store) (row : Nat) (d : List Byte) (poison : Bool) (h : m.wf = true) :
    (m.putRow row d poison).wf = true := by
  rw [Store.wf_iff] at h
  refine Store.wf_setMeta _ _ _ ((Store.wf_iff _).mpr ⟨?_, h.2⟩)
  exact Memory.wf_memWrite _ _ _ (Memory.wf_memZero _ _ _ h.1)

theorem Store.wf_putFixed (m : Store) (row : Nat) (r : Seen × List Byte) (h : m.wf = true) :
    (m.putFixed row r).wf = true := Store.wf_putRow _ _ _ _ h

theorem Store.wf_putBytes (c : Code) (m : Store) (a : Nat) (d : List Byte) (poison : Bool) (n : Nat)
    (h : m.wf = true) : (m.putBytes c a d poison n).wf = true := Store.wf_putRow _ _ _ _ h

theorem Store.wf_poisonRow (m : Store) (row : Nat) (h : m.wf = true) : (m.poisonRow row).wf = true :=
  Store.wf_setMeta _ _ _ h

theorem Store.wf_putRange (c : Code) (m : Store) (a : Nat) (d : List Byte) (poison : Bool) (n fuel : Nat)
    (h : m.wf = true) : (m.putRange c a d poison n fuel).wf = true := by
  induction fuel generalizing m a d with
  | zero => exact h
  | succ k ih =>
    simp only [Store.putRange]
    split
    · exact h
    · exact ih _ _ _ (Store.wf_putBytes _ _ _ _ _ _ h)

theorem Store.wf_zeroRows (m : Store) (row n : Nat) (h : m.wf = true) : (m.zeroRows row n).wf = true := by
  rw [Store.wf_iff] at h ⊢
  exact ⟨Memory.wf_memZero _ _ _ h.1, rowsWfFrom_filter 0 _ _ h.2⟩

theorem Store.wf_foldl_zeroRows {α : Type} (f g : α → Nat) (l : List α) (m : Store) (h : m.wf = true) :
    (l.foldl (fun m r => m.zeroRows (f r) (g r)) m).wf = true := by
  induction l generalizing m with
  | nil => exact h
  | cons a l ih => exact ih _ (Store.wf_zeroRows _ _ _ h)

theorem Store.rowMeta_setMeta_same (m : Store) (row : Nat) (x : RowMeta) : (m.setMeta row x).rowMeta row = x := by
  unfold Store.setMeta Store.rowMeta
  split
  · rename_i h
    simp [tget, h]
  · simp

theorem Store.rowMeta_setMeta_other (m : Store) (row i : Nat) (x : RowMeta) (h : i ≠ row) :
    (m.setMeta row x).rowMeta i = m.rowMeta i := by
  unfold Store.setMeta Store.rowMeta
  split <;> simp [tget, h]

@[simp] theorem Store.bytes_setMeta (m : Store) (row : Nat) (x : RowMeta) : (m.setMeta row x).bytes = m.bytes := by
  unfold Store.setMeta
  split <;> rfl

end Sys2Proof.Machine
end

