-- ==== Sys2Proof/Laws/State.lean ====
section
/-! SUPPORT. The updates of the state: what each changes, and that it leaves every other field alone. A proof cites
these and does not unfold an update. -/

namespace Sys2Proof.Machine

/-! ### Pav -/

@[simp] theorem State.setPav_orderB (s : State) (p : Nat) (x : Pav) : (s.setPav p x).orderB = s.orderB := rfl
@[simp] theorem State.setPav_plots (s : State) (p : Nat) (x : Pav) : (s.setPav p x).plots = s.plots := rfl
@[simp] theorem State.setPav_segs (s : State) (p : Nat) (x : Pav) : (s.setPav p x).segs = s.segs := rfl
@[simp] theorem State.setPav_hbmStacks (s : State) (p : Nat) (x : Pav) : (s.setPav p x).hbmStacks = s.hbmStacks := rfl
@[simp] theorem State.setPav_hbm (s : State) (p : Nat) (x : Pav) : (s.setPav p x).hbm = s.hbm := rfl
@[simp] theorem State.setPav_links (s : State) (p : Nat) (x : Pav) : (s.setPav p x).links = s.links := rfl
@[simp] theorem State.setPav_rxs (s : State) (p : Nat) (x : Pav) : (s.setPav p x).rxs = s.rxs := rfl
@[simp] theorem State.setPav_allots (s : State) (p : Nat) (x : Pav) : (s.setPav p x).allots = s.allots := rfl
@[simp] theorem State.setPav_hostPorts (s : State) (p : Nat) (x : Pav) : (s.setPav p x).hostPorts = s.hostPorts := rfl
@[simp] theorem State.setPav_srvPorts (s : State) (p : Nat) (x : Pav) : (s.setPav p x).srvPorts = s.srvPorts := rfl
@[simp] theorem State.setPav_lodge (s : State) (p : Nat) (x : Pav) : (s.setPav p x).lodge = s.lodge := rfl
@[simp] theorem State.setPav_ns (s : State) (p : Nat) (x : Pav) : (s.setPav p x).ns = s.ns := rfl
@[simp] theorem State.setPav_free (s : State) (p : Nat) (x : Pav) : (s.setPav p x).free = s.free := rfl
@[simp] theorem State.setPav_pending (s : State) (p : Nat) (x : Pav) : (s.setPav p x).pending = s.pending := rfl
@[simp] theorem State.setPav_out (s : State) (p : Nat) (x : Pav) : (s.setPav p x).out = s.out := rfl
@[simp] theorem State.plot_setPav (s : State) (p : Nat) (x : Pav) (j : Nat) : (s.setPav p x).plot j = s.plot j := rfl
@[simp] theorem State.seg_setPav (s : State) (p : Nat) (x : Pav) (j : Nat) : (s.setPav p x).seg j = s.seg j := rfl
@[simp] theorem State.stack_setPav (s : State) (p : Nat) (x : Pav) (j : Nat) : (s.setPav p x).stack j = s.stack j := rfl
@[simp] theorem State.allot_setPav (s : State) (p : Nat) (x : Pav) (j : Nat) : (s.setPav p x).allot j = s.allot j := rfl
@[simp] theorem State.hostPort_setPav (s : State) (p : Nat) (x : Pav) (j : Nat) : (s.setPav p x).hostPort j = s.hostPort j := rfl
@[simp] theorem State.srv_setPav (s : State) (p : Nat) (x : Pav) (j : Nat) : (s.setPav p x).srv j = s.srv j := rfl
@[simp] theorem State.rx_setPav (s : State) (p : Nat) (x : Pav) (j : Receiver) : (s.setPav p x).rx j = s.rx j := rfl
@[simp] theorem State.link_setPav (s : State) (p : Nat) (x : Pav) (j : LinkId) : (s.setPav p x).link j = s.link j := rfl

@[simp] theorem State.modPav_orderB (s : State) (p : Nat) (f : Pav → Pav) : (s.modPav p f).orderB = s.orderB := rfl
@[simp] theorem State.modPav_plots (s : State) (p : Nat) (f : Pav → Pav) : (s.modPav p f).plots = s.plots := rfl
@[simp] theorem State.modPav_segs (s : State) (p : Nat) (f : Pav → Pav) : (s.modPav p f).segs = s.segs := rfl
@[simp] theorem State.modPav_hbmStacks (s : State) (p : Nat) (f : Pav → Pav) : (s.modPav p f).hbmStacks = s.hbmStacks := rfl
@[simp] theorem State.modPav_hbm (s : State) (p : Nat) (f : Pav → Pav) : (s.modPav p f).hbm = s.hbm := rfl
@[simp] theorem State.modPav_links (s : State) (p : Nat) (f : Pav → Pav) : (s.modPav p f).links = s.links := rfl
@[simp] theorem State.modPav_rxs (s : State) (p : Nat) (f : Pav → Pav) : (s.modPav p f).rxs = s.rxs := rfl
@[simp] theorem State.modPav_allots (s : State) (p : Nat) (f : Pav → Pav) : (s.modPav p f).allots = s.allots := rfl
@[simp] theorem State.modPav_hostPorts (s : State) (p : Nat) (f : Pav → Pav) : (s.modPav p f).hostPorts = s.hostPorts := rfl
@[simp] theorem State.modPav_srvPorts (s : State) (p : Nat) (f : Pav → Pav) : (s.modPav p f).srvPorts = s.srvPorts := rfl
@[simp] theorem State.modPav_lodge (s : State) (p : Nat) (f : Pav → Pav) : (s.modPav p f).lodge = s.lodge := rfl
@[simp] theorem State.modPav_ns (s : State) (p : Nat) (f : Pav → Pav) : (s.modPav p f).ns = s.ns := rfl
@[simp] theorem State.modPav_free (s : State) (p : Nat) (f : Pav → Pav) : (s.modPav p f).free = s.free := rfl
@[simp] theorem State.modPav_pending (s : State) (p : Nat) (f : Pav → Pav) : (s.modPav p f).pending = s.pending := rfl
@[simp] theorem State.modPav_out (s : State) (p : Nat) (f : Pav → Pav) : (s.modPav p f).out = s.out := rfl
@[simp] theorem State.plot_modPav (s : State) (p : Nat) (f : Pav → Pav) (j : Nat) : (s.modPav p f).plot j = s.plot j := rfl
@[simp] theorem State.seg_modPav (s : State) (p : Nat) (f : Pav → Pav) (j : Nat) : (s.modPav p f).seg j = s.seg j := rfl
@[simp] theorem State.stack_modPav (s : State) (p : Nat) (f : Pav → Pav) (j : Nat) : (s.modPav p f).stack j = s.stack j := rfl
@[simp] theorem State.allot_modPav (s : State) (p : Nat) (f : Pav → Pav) (j : Nat) : (s.modPav p f).allot j = s.allot j := rfl
@[simp] theorem State.hostPort_modPav (s : State) (p : Nat) (f : Pav → Pav) (j : Nat) : (s.modPav p f).hostPort j = s.hostPort j := rfl
@[simp] theorem State.srv_modPav (s : State) (p : Nat) (f : Pav → Pav) (j : Nat) : (s.modPav p f).srv j = s.srv j := rfl
@[simp] theorem State.rx_modPav (s : State) (p : Nat) (f : Pav → Pav) (j : Receiver) : (s.modPav p f).rx j = s.rx j := rfl
@[simp] theorem State.link_modPav (s : State) (p : Nat) (f : Pav → Pav) (j : LinkId) : (s.modPav p f).link j = s.link j := rfl

@[simp] theorem State.pav_setPav_same (s : State) (p : Nat) (x : Pav) : (s.setPav p x).pav p = x := by
  simp [State.pav, State.setPav]

@[simp] theorem State.pav_setPav_other (s : State) (p i : Nat) (x : Pav) (h : i ≠ p) :
    (s.setPav p x).pav i = s.pav i := by
  simp [State.pav, State.setPav, h]

@[simp] theorem State.pav_modPav_same (s : State) (p : Nat) (f : Pav → Pav) :
    (s.modPav p f).pav p = f (s.pav p) := by
  simp [State.modPav]

@[simp] theorem State.pav_modPav_other (s : State) (p i : Nat) (f : Pav → Pav) (h : i ≠ p) :
    (s.modPav p f).pav i = s.pav i := by
  simp [State.modPav, h]

/-! ### Plot -/

@[simp] theorem State.setPlot_orderB (s : State) (p : Nat) (x : Plot) : (s.setPlot p x).orderB = s.orderB := rfl
@[simp] theorem State.setPlot_pavs (s : State) (p : Nat) (x : Plot) : (s.setPlot p x).pavs = s.pavs := rfl
@[simp] theorem State.setPlot_segs (s : State) (p : Nat) (x : Plot) : (s.setPlot p x).segs = s.segs := rfl
@[simp] theorem State.setPlot_hbmStacks (s : State) (p : Nat) (x : Plot) : (s.setPlot p x).hbmStacks = s.hbmStacks := rfl
@[simp] theorem State.setPlot_hbm (s : State) (p : Nat) (x : Plot) : (s.setPlot p x).hbm = s.hbm := rfl
@[simp] theorem State.setPlot_links (s : State) (p : Nat) (x : Plot) : (s.setPlot p x).links = s.links := rfl
@[simp] theorem State.setPlot_rxs (s : State) (p : Nat) (x : Plot) : (s.setPlot p x).rxs = s.rxs := rfl
@[simp] theorem State.setPlot_allots (s : State) (p : Nat) (x : Plot) : (s.setPlot p x).allots = s.allots := rfl
@[simp] theorem State.setPlot_hostPorts (s : State) (p : Nat) (x : Plot) : (s.setPlot p x).hostPorts = s.hostPorts := rfl
@[simp] theorem State.setPlot_srvPorts (s : State) (p : Nat) (x : Plot) : (s.setPlot p x).srvPorts = s.srvPorts := rfl
@[simp] theorem State.setPlot_lodge (s : State) (p : Nat) (x : Plot) : (s.setPlot p x).lodge = s.lodge := rfl
@[simp] theorem State.setPlot_ns (s : State) (p : Nat) (x : Plot) : (s.setPlot p x).ns = s.ns := rfl
@[simp] theorem State.setPlot_free (s : State) (p : Nat) (x : Plot) : (s.setPlot p x).free = s.free := rfl
@[simp] theorem State.setPlot_pending (s : State) (p : Nat) (x : Plot) : (s.setPlot p x).pending = s.pending := rfl
@[simp] theorem State.setPlot_out (s : State) (p : Nat) (x : Plot) : (s.setPlot p x).out = s.out := rfl
@[simp] theorem State.pav_setPlot (s : State) (p : Nat) (x : Plot) (j : Nat) : (s.setPlot p x).pav j = s.pav j := rfl
@[simp] theorem State.seg_setPlot (s : State) (p : Nat) (x : Plot) (j : Nat) : (s.setPlot p x).seg j = s.seg j := rfl
@[simp] theorem State.stack_setPlot (s : State) (p : Nat) (x : Plot) (j : Nat) : (s.setPlot p x).stack j = s.stack j := rfl
@[simp] theorem State.allot_setPlot (s : State) (p : Nat) (x : Plot) (j : Nat) : (s.setPlot p x).allot j = s.allot j := rfl
@[simp] theorem State.hostPort_setPlot (s : State) (p : Nat) (x : Plot) (j : Nat) : (s.setPlot p x).hostPort j = s.hostPort j := rfl
@[simp] theorem State.srv_setPlot (s : State) (p : Nat) (x : Plot) (j : Nat) : (s.setPlot p x).srv j = s.srv j := rfl
@[simp] theorem State.rx_setPlot (s : State) (p : Nat) (x : Plot) (j : Receiver) : (s.setPlot p x).rx j = s.rx j := rfl
@[simp] theorem State.link_setPlot (s : State) (p : Nat) (x : Plot) (j : LinkId) : (s.setPlot p x).link j = s.link j := rfl

@[simp] theorem State.modPlot_orderB (s : State) (p : Nat) (f : Plot → Plot) : (s.modPlot p f).orderB = s.orderB := rfl
@[simp] theorem State.modPlot_pavs (s : State) (p : Nat) (f : Plot → Plot) : (s.modPlot p f).pavs = s.pavs := rfl
@[simp] theorem State.modPlot_segs (s : State) (p : Nat) (f : Plot → Plot) : (s.modPlot p f).segs = s.segs := rfl
@[simp] theorem State.modPlot_hbmStacks (s : State) (p : Nat) (f : Plot → Plot) : (s.modPlot p f).hbmStacks = s.hbmStacks := rfl
@[simp] theorem State.modPlot_hbm (s : State) (p : Nat) (f : Plot → Plot) : (s.modPlot p f).hbm = s.hbm := rfl
@[simp] theorem State.modPlot_links (s : State) (p : Nat) (f : Plot → Plot) : (s.modPlot p f).links = s.links := rfl
@[simp] theorem State.modPlot_rxs (s : State) (p : Nat) (f : Plot → Plot) : (s.modPlot p f).rxs = s.rxs := rfl
@[simp] theorem State.modPlot_allots (s : State) (p : Nat) (f : Plot → Plot) : (s.modPlot p f).allots = s.allots := rfl
@[simp] theorem State.modPlot_hostPorts (s : State) (p : Nat) (f : Plot → Plot) : (s.modPlot p f).hostPorts = s.hostPorts := rfl
@[simp] theorem State.modPlot_srvPorts (s : State) (p : Nat) (f : Plot → Plot) : (s.modPlot p f).srvPorts = s.srvPorts := rfl
@[simp] theorem State.modPlot_lodge (s : State) (p : Nat) (f : Plot → Plot) : (s.modPlot p f).lodge = s.lodge := rfl
@[simp] theorem State.modPlot_ns (s : State) (p : Nat) (f : Plot → Plot) : (s.modPlot p f).ns = s.ns := rfl
@[simp] theorem State.modPlot_free (s : State) (p : Nat) (f : Plot → Plot) : (s.modPlot p f).free = s.free := rfl
@[simp] theorem State.modPlot_pending (s : State) (p : Nat) (f : Plot → Plot) : (s.modPlot p f).pending = s.pending := rfl
@[simp] theorem State.modPlot_out (s : State) (p : Nat) (f : Plot → Plot) : (s.modPlot p f).out = s.out := rfl
@[simp] theorem State.pav_modPlot (s : State) (p : Nat) (f : Plot → Plot) (j : Nat) : (s.modPlot p f).pav j = s.pav j := rfl
@[simp] theorem State.seg_modPlot (s : State) (p : Nat) (f : Plot → Plot) (j : Nat) : (s.modPlot p f).seg j = s.seg j := rfl
@[simp] theorem State.stack_modPlot (s : State) (p : Nat) (f : Plot → Plot) (j : Nat) : (s.modPlot p f).stack j = s.stack j := rfl
@[simp] theorem State.allot_modPlot (s : State) (p : Nat) (f : Plot → Plot) (j : Nat) : (s.modPlot p f).allot j = s.allot j := rfl
@[simp] theorem State.hostPort_modPlot (s : State) (p : Nat) (f : Plot → Plot) (j : Nat) : (s.modPlot p f).hostPort j = s.hostPort j := rfl
@[simp] theorem State.srv_modPlot (s : State) (p : Nat) (f : Plot → Plot) (j : Nat) : (s.modPlot p f).srv j = s.srv j := rfl
@[simp] theorem State.rx_modPlot (s : State) (p : Nat) (f : Plot → Plot) (j : Receiver) : (s.modPlot p f).rx j = s.rx j := rfl
@[simp] theorem State.link_modPlot (s : State) (p : Nat) (f : Plot → Plot) (j : LinkId) : (s.modPlot p f).link j = s.link j := rfl

@[simp] theorem State.plot_setPlot_same (s : State) (p : Nat) (x : Plot) : (s.setPlot p x).plot p = x := by
  simp [State.plot, State.setPlot]

@[simp] theorem State.plot_setPlot_other (s : State) (p i : Nat) (x : Plot) (h : i ≠ p) :
    (s.setPlot p x).plot i = s.plot i := by
  simp [State.plot, State.setPlot, h]

@[simp] theorem State.plot_modPlot_same (s : State) (p : Nat) (f : Plot → Plot) :
    (s.modPlot p f).plot p = f (s.plot p) := by
  simp [State.modPlot]

@[simp] theorem State.plot_modPlot_other (s : State) (p i : Nat) (f : Plot → Plot) (h : i ≠ p) :
    (s.modPlot p f).plot i = s.plot i := by
  simp [State.modPlot, h]

/-! ### Seg -/

@[simp] theorem State.setSeg_orderB (s : State) (n : Nat) (x : Seg) : (s.setSeg n x).orderB = s.orderB := rfl
@[simp] theorem State.setSeg_pavs (s : State) (n : Nat) (x : Seg) : (s.setSeg n x).pavs = s.pavs := rfl
@[simp] theorem State.setSeg_plots (s : State) (n : Nat) (x : Seg) : (s.setSeg n x).plots = s.plots := rfl
@[simp] theorem State.setSeg_hbmStacks (s : State) (n : Nat) (x : Seg) : (s.setSeg n x).hbmStacks = s.hbmStacks := rfl
@[simp] theorem State.setSeg_hbm (s : State) (n : Nat) (x : Seg) : (s.setSeg n x).hbm = s.hbm := rfl
@[simp] theorem State.setSeg_links (s : State) (n : Nat) (x : Seg) : (s.setSeg n x).links = s.links := rfl
@[simp] theorem State.setSeg_rxs (s : State) (n : Nat) (x : Seg) : (s.setSeg n x).rxs = s.rxs := rfl
@[simp] theorem State.setSeg_allots (s : State) (n : Nat) (x : Seg) : (s.setSeg n x).allots = s.allots := rfl
@[simp] theorem State.setSeg_hostPorts (s : State) (n : Nat) (x : Seg) : (s.setSeg n x).hostPorts = s.hostPorts := rfl
@[simp] theorem State.setSeg_srvPorts (s : State) (n : Nat) (x : Seg) : (s.setSeg n x).srvPorts = s.srvPorts := rfl
@[simp] theorem State.setSeg_lodge (s : State) (n : Nat) (x : Seg) : (s.setSeg n x).lodge = s.lodge := rfl
@[simp] theorem State.setSeg_ns (s : State) (n : Nat) (x : Seg) : (s.setSeg n x).ns = s.ns := rfl
@[simp] theorem State.setSeg_free (s : State) (n : Nat) (x : Seg) : (s.setSeg n x).free = s.free := rfl
@[simp] theorem State.setSeg_pending (s : State) (n : Nat) (x : Seg) : (s.setSeg n x).pending = s.pending := rfl
@[simp] theorem State.setSeg_out (s : State) (n : Nat) (x : Seg) : (s.setSeg n x).out = s.out := rfl
@[simp] theorem State.pav_setSeg (s : State) (n : Nat) (x : Seg) (j : Nat) : (s.setSeg n x).pav j = s.pav j := rfl
@[simp] theorem State.plot_setSeg (s : State) (n : Nat) (x : Seg) (j : Nat) : (s.setSeg n x).plot j = s.plot j := rfl
@[simp] theorem State.stack_setSeg (s : State) (n : Nat) (x : Seg) (j : Nat) : (s.setSeg n x).stack j = s.stack j := rfl
@[simp] theorem State.allot_setSeg (s : State) (n : Nat) (x : Seg) (j : Nat) : (s.setSeg n x).allot j = s.allot j := rfl
@[simp] theorem State.hostPort_setSeg (s : State) (n : Nat) (x : Seg) (j : Nat) : (s.setSeg n x).hostPort j = s.hostPort j := rfl
@[simp] theorem State.srv_setSeg (s : State) (n : Nat) (x : Seg) (j : Nat) : (s.setSeg n x).srv j = s.srv j := rfl
@[simp] theorem State.rx_setSeg (s : State) (n : Nat) (x : Seg) (j : Receiver) : (s.setSeg n x).rx j = s.rx j := rfl
@[simp] theorem State.link_setSeg (s : State) (n : Nat) (x : Seg) (j : LinkId) : (s.setSeg n x).link j = s.link j := rfl

@[simp] theorem State.modSeg_orderB (s : State) (n : Nat) (f : Seg → Seg) : (s.modSeg n f).orderB = s.orderB := rfl
@[simp] theorem State.modSeg_pavs (s : State) (n : Nat) (f : Seg → Seg) : (s.modSeg n f).pavs = s.pavs := rfl
@[simp] theorem State.modSeg_plots (s : State) (n : Nat) (f : Seg → Seg) : (s.modSeg n f).plots = s.plots := rfl
@[simp] theorem State.modSeg_hbmStacks (s : State) (n : Nat) (f : Seg → Seg) : (s.modSeg n f).hbmStacks = s.hbmStacks := rfl
@[simp] theorem State.modSeg_hbm (s : State) (n : Nat) (f : Seg → Seg) : (s.modSeg n f).hbm = s.hbm := rfl
@[simp] theorem State.modSeg_links (s : State) (n : Nat) (f : Seg → Seg) : (s.modSeg n f).links = s.links := rfl
@[simp] theorem State.modSeg_rxs (s : State) (n : Nat) (f : Seg → Seg) : (s.modSeg n f).rxs = s.rxs := rfl
@[simp] theorem State.modSeg_allots (s : State) (n : Nat) (f : Seg → Seg) : (s.modSeg n f).allots = s.allots := rfl
@[simp] theorem State.modSeg_hostPorts (s : State) (n : Nat) (f : Seg → Seg) : (s.modSeg n f).hostPorts = s.hostPorts := rfl
@[simp] theorem State.modSeg_srvPorts (s : State) (n : Nat) (f : Seg → Seg) : (s.modSeg n f).srvPorts = s.srvPorts := rfl
@[simp] theorem State.modSeg_lodge (s : State) (n : Nat) (f : Seg → Seg) : (s.modSeg n f).lodge = s.lodge := rfl
@[simp] theorem State.modSeg_ns (s : State) (n : Nat) (f : Seg → Seg) : (s.modSeg n f).ns = s.ns := rfl
@[simp] theorem State.modSeg_free (s : State) (n : Nat) (f : Seg → Seg) : (s.modSeg n f).free = s.free := rfl
@[simp] theorem State.modSeg_pending (s : State) (n : Nat) (f : Seg → Seg) : (s.modSeg n f).pending = s.pending := rfl
@[simp] theorem State.modSeg_out (s : State) (n : Nat) (f : Seg → Seg) : (s.modSeg n f).out = s.out := rfl
@[simp] theorem State.pav_modSeg (s : State) (n : Nat) (f : Seg → Seg) (j : Nat) : (s.modSeg n f).pav j = s.pav j := rfl
@[simp] theorem State.plot_modSeg (s : State) (n : Nat) (f : Seg → Seg) (j : Nat) : (s.modSeg n f).plot j = s.plot j := rfl
@[simp] theorem State.stack_modSeg (s : State) (n : Nat) (f : Seg → Seg) (j : Nat) : (s.modSeg n f).stack j = s.stack j := rfl
@[simp] theorem State.allot_modSeg (s : State) (n : Nat) (f : Seg → Seg) (j : Nat) : (s.modSeg n f).allot j = s.allot j := rfl
@[simp] theorem State.hostPort_modSeg (s : State) (n : Nat) (f : Seg → Seg) (j : Nat) : (s.modSeg n f).hostPort j = s.hostPort j := rfl
@[simp] theorem State.srv_modSeg (s : State) (n : Nat) (f : Seg → Seg) (j : Nat) : (s.modSeg n f).srv j = s.srv j := rfl
@[simp] theorem State.rx_modSeg (s : State) (n : Nat) (f : Seg → Seg) (j : Receiver) : (s.modSeg n f).rx j = s.rx j := rfl
@[simp] theorem State.link_modSeg (s : State) (n : Nat) (f : Seg → Seg) (j : LinkId) : (s.modSeg n f).link j = s.link j := rfl

@[simp] theorem State.seg_setSeg_same (s : State) (n : Nat) (x : Seg) : (s.setSeg n x).seg n = x := by
  simp [State.seg, State.setSeg]

@[simp] theorem State.seg_setSeg_other (s : State) (n i : Nat) (x : Seg) (h : i ≠ n) :
    (s.setSeg n x).seg i = s.seg i := by
  simp [State.seg, State.setSeg, h]

@[simp] theorem State.seg_modSeg_same (s : State) (n : Nat) (f : Seg → Seg) :
    (s.modSeg n f).seg n = f (s.seg n) := by
  simp [State.modSeg]

@[simp] theorem State.seg_modSeg_other (s : State) (n i : Nat) (f : Seg → Seg) (h : i ≠ n) :
    (s.modSeg n f).seg i = s.seg i := by
  simp [State.modSeg, h]

/-! ### Stack -/

@[simp] theorem State.setStack_orderB (s : State) (k : Nat) (x : Stack) : (s.setStack k x).orderB = s.orderB := rfl
@[simp] theorem State.setStack_pavs (s : State) (k : Nat) (x : Stack) : (s.setStack k x).pavs = s.pavs := rfl
@[simp] theorem State.setStack_plots (s : State) (k : Nat) (x : Stack) : (s.setStack k x).plots = s.plots := rfl
@[simp] theorem State.setStack_segs (s : State) (k : Nat) (x : Stack) : (s.setStack k x).segs = s.segs := rfl
@[simp] theorem State.setStack_hbm (s : State) (k : Nat) (x : Stack) : (s.setStack k x).hbm = s.hbm := rfl
@[simp] theorem State.setStack_links (s : State) (k : Nat) (x : Stack) : (s.setStack k x).links = s.links := rfl
@[simp] theorem State.setStack_rxs (s : State) (k : Nat) (x : Stack) : (s.setStack k x).rxs = s.rxs := rfl
@[simp] theorem State.setStack_allots (s : State) (k : Nat) (x : Stack) : (s.setStack k x).allots = s.allots := rfl
@[simp] theorem State.setStack_hostPorts (s : State) (k : Nat) (x : Stack) : (s.setStack k x).hostPorts = s.hostPorts := rfl
@[simp] theorem State.setStack_srvPorts (s : State) (k : Nat) (x : Stack) : (s.setStack k x).srvPorts = s.srvPorts := rfl
@[simp] theorem State.setStack_lodge (s : State) (k : Nat) (x : Stack) : (s.setStack k x).lodge = s.lodge := rfl
@[simp] theorem State.setStack_ns (s : State) (k : Nat) (x : Stack) : (s.setStack k x).ns = s.ns := rfl
@[simp] theorem State.setStack_free (s : State) (k : Nat) (x : Stack) : (s.setStack k x).free = s.free := rfl
@[simp] theorem State.setStack_pending (s : State) (k : Nat) (x : Stack) : (s.setStack k x).pending = s.pending := rfl
@[simp] theorem State.setStack_out (s : State) (k : Nat) (x : Stack) : (s.setStack k x).out = s.out := rfl
@[simp] theorem State.pav_setStack (s : State) (k : Nat) (x : Stack) (j : Nat) : (s.setStack k x).pav j = s.pav j := rfl
@[simp] theorem State.plot_setStack (s : State) (k : Nat) (x : Stack) (j : Nat) : (s.setStack k x).plot j = s.plot j := rfl
@[simp] theorem State.seg_setStack (s : State) (k : Nat) (x : Stack) (j : Nat) : (s.setStack k x).seg j = s.seg j := rfl
@[simp] theorem State.allot_setStack (s : State) (k : Nat) (x : Stack) (j : Nat) : (s.setStack k x).allot j = s.allot j := rfl
@[simp] theorem State.hostPort_setStack (s : State) (k : Nat) (x : Stack) (j : Nat) : (s.setStack k x).hostPort j = s.hostPort j := rfl
@[simp] theorem State.srv_setStack (s : State) (k : Nat) (x : Stack) (j : Nat) : (s.setStack k x).srv j = s.srv j := rfl
@[simp] theorem State.rx_setStack (s : State) (k : Nat) (x : Stack) (j : Receiver) : (s.setStack k x).rx j = s.rx j := rfl
@[simp] theorem State.link_setStack (s : State) (k : Nat) (x : Stack) (j : LinkId) : (s.setStack k x).link j = s.link j := rfl

@[simp] theorem State.modStack_orderB (s : State) (k : Nat) (f : Stack → Stack) : (s.modStack k f).orderB = s.orderB := rfl
@[simp] theorem State.modStack_pavs (s : State) (k : Nat) (f : Stack → Stack) : (s.modStack k f).pavs = s.pavs := rfl
@[simp] theorem State.modStack_plots (s : State) (k : Nat) (f : Stack → Stack) : (s.modStack k f).plots = s.plots := rfl
@[simp] theorem State.modStack_segs (s : State) (k : Nat) (f : Stack → Stack) : (s.modStack k f).segs = s.segs := rfl
@[simp] theorem State.modStack_hbm (s : State) (k : Nat) (f : Stack → Stack) : (s.modStack k f).hbm = s.hbm := rfl
@[simp] theorem State.modStack_links (s : State) (k : Nat) (f : Stack → Stack) : (s.modStack k f).links = s.links := rfl
@[simp] theorem State.modStack_rxs (s : State) (k : Nat) (f : Stack → Stack) : (s.modStack k f).rxs = s.rxs := rfl
@[simp] theorem State.modStack_allots (s : State) (k : Nat) (f : Stack → Stack) : (s.modStack k f).allots = s.allots := rfl
@[simp] theorem State.modStack_hostPorts (s : State) (k : Nat) (f : Stack → Stack) : (s.modStack k f).hostPorts = s.hostPorts := rfl
@[simp] theorem State.modStack_srvPorts (s : State) (k : Nat) (f : Stack → Stack) : (s.modStack k f).srvPorts = s.srvPorts := rfl
@[simp] theorem State.modStack_lodge (s : State) (k : Nat) (f : Stack → Stack) : (s.modStack k f).lodge = s.lodge := rfl
@[simp] theorem State.modStack_ns (s : State) (k : Nat) (f : Stack → Stack) : (s.modStack k f).ns = s.ns := rfl
@[simp] theorem State.modStack_free (s : State) (k : Nat) (f : Stack → Stack) : (s.modStack k f).free = s.free := rfl
@[simp] theorem State.modStack_pending (s : State) (k : Nat) (f : Stack → Stack) : (s.modStack k f).pending = s.pending := rfl
@[simp] theorem State.modStack_out (s : State) (k : Nat) (f : Stack → Stack) : (s.modStack k f).out = s.out := rfl
@[simp] theorem State.pav_modStack (s : State) (k : Nat) (f : Stack → Stack) (j : Nat) : (s.modStack k f).pav j = s.pav j := rfl
@[simp] theorem State.plot_modStack (s : State) (k : Nat) (f : Stack → Stack) (j : Nat) : (s.modStack k f).plot j = s.plot j := rfl
@[simp] theorem State.seg_modStack (s : State) (k : Nat) (f : Stack → Stack) (j : Nat) : (s.modStack k f).seg j = s.seg j := rfl
@[simp] theorem State.allot_modStack (s : State) (k : Nat) (f : Stack → Stack) (j : Nat) : (s.modStack k f).allot j = s.allot j := rfl
@[simp] theorem State.hostPort_modStack (s : State) (k : Nat) (f : Stack → Stack) (j : Nat) : (s.modStack k f).hostPort j = s.hostPort j := rfl
@[simp] theorem State.srv_modStack (s : State) (k : Nat) (f : Stack → Stack) (j : Nat) : (s.modStack k f).srv j = s.srv j := rfl
@[simp] theorem State.rx_modStack (s : State) (k : Nat) (f : Stack → Stack) (j : Receiver) : (s.modStack k f).rx j = s.rx j := rfl
@[simp] theorem State.link_modStack (s : State) (k : Nat) (f : Stack → Stack) (j : LinkId) : (s.modStack k f).link j = s.link j := rfl

@[simp] theorem State.stack_setStack_same (s : State) (k : Nat) (x : Stack) : (s.setStack k x).stack k = x := by
  simp [State.stack, State.setStack]

@[simp] theorem State.stack_setStack_other (s : State) (k i : Nat) (x : Stack) (h : i ≠ k) :
    (s.setStack k x).stack i = s.stack i := by
  simp [State.stack, State.setStack, h]

@[simp] theorem State.stack_modStack_same (s : State) (k : Nat) (f : Stack → Stack) :
    (s.modStack k f).stack k = f (s.stack k) := by
  simp [State.modStack]

@[simp] theorem State.stack_modStack_other (s : State) (k i : Nat) (f : Stack → Stack) (h : i ≠ k) :
    (s.modStack k f).stack i = s.stack i := by
  simp [State.modStack, h]

/-! ### Allot -/

@[simp] theorem State.setAllot_orderB (s : State) (a : Nat) (x : Allot) : (s.setAllot a x).orderB = s.orderB := rfl
@[simp] theorem State.setAllot_pavs (s : State) (a : Nat) (x : Allot) : (s.setAllot a x).pavs = s.pavs := rfl
@[simp] theorem State.setAllot_plots (s : State) (a : Nat) (x : Allot) : (s.setAllot a x).plots = s.plots := rfl
@[simp] theorem State.setAllot_segs (s : State) (a : Nat) (x : Allot) : (s.setAllot a x).segs = s.segs := rfl
@[simp] theorem State.setAllot_hbmStacks (s : State) (a : Nat) (x : Allot) : (s.setAllot a x).hbmStacks = s.hbmStacks := rfl
@[simp] theorem State.setAllot_hbm (s : State) (a : Nat) (x : Allot) : (s.setAllot a x).hbm = s.hbm := rfl
@[simp] theorem State.setAllot_links (s : State) (a : Nat) (x : Allot) : (s.setAllot a x).links = s.links := rfl
@[simp] theorem State.setAllot_rxs (s : State) (a : Nat) (x : Allot) : (s.setAllot a x).rxs = s.rxs := rfl
@[simp] theorem State.setAllot_hostPorts (s : State) (a : Nat) (x : Allot) : (s.setAllot a x).hostPorts = s.hostPorts := rfl
@[simp] theorem State.setAllot_srvPorts (s : State) (a : Nat) (x : Allot) : (s.setAllot a x).srvPorts = s.srvPorts := rfl
@[simp] theorem State.setAllot_lodge (s : State) (a : Nat) (x : Allot) : (s.setAllot a x).lodge = s.lodge := rfl
@[simp] theorem State.setAllot_ns (s : State) (a : Nat) (x : Allot) : (s.setAllot a x).ns = s.ns := rfl
@[simp] theorem State.setAllot_free (s : State) (a : Nat) (x : Allot) : (s.setAllot a x).free = s.free := rfl
@[simp] theorem State.setAllot_pending (s : State) (a : Nat) (x : Allot) : (s.setAllot a x).pending = s.pending := rfl
@[simp] theorem State.setAllot_out (s : State) (a : Nat) (x : Allot) : (s.setAllot a x).out = s.out := rfl
@[simp] theorem State.pav_setAllot (s : State) (a : Nat) (x : Allot) (j : Nat) : (s.setAllot a x).pav j = s.pav j := rfl
@[simp] theorem State.plot_setAllot (s : State) (a : Nat) (x : Allot) (j : Nat) : (s.setAllot a x).plot j = s.plot j := rfl
@[simp] theorem State.seg_setAllot (s : State) (a : Nat) (x : Allot) (j : Nat) : (s.setAllot a x).seg j = s.seg j := rfl
@[simp] theorem State.stack_setAllot (s : State) (a : Nat) (x : Allot) (j : Nat) : (s.setAllot a x).stack j = s.stack j := rfl
@[simp] theorem State.hostPort_setAllot (s : State) (a : Nat) (x : Allot) (j : Nat) : (s.setAllot a x).hostPort j = s.hostPort j := rfl
@[simp] theorem State.srv_setAllot (s : State) (a : Nat) (x : Allot) (j : Nat) : (s.setAllot a x).srv j = s.srv j := rfl
@[simp] theorem State.rx_setAllot (s : State) (a : Nat) (x : Allot) (j : Receiver) : (s.setAllot a x).rx j = s.rx j := rfl
@[simp] theorem State.link_setAllot (s : State) (a : Nat) (x : Allot) (j : LinkId) : (s.setAllot a x).link j = s.link j := rfl

@[simp] theorem State.modAllot_orderB (s : State) (a : Nat) (f : Allot → Allot) : (s.modAllot a f).orderB = s.orderB := rfl
@[simp] theorem State.modAllot_pavs (s : State) (a : Nat) (f : Allot → Allot) : (s.modAllot a f).pavs = s.pavs := rfl
@[simp] theorem State.modAllot_plots (s : State) (a : Nat) (f : Allot → Allot) : (s.modAllot a f).plots = s.plots := rfl
@[simp] theorem State.modAllot_segs (s : State) (a : Nat) (f : Allot → Allot) : (s.modAllot a f).segs = s.segs := rfl
@[simp] theorem State.modAllot_hbmStacks (s : State) (a : Nat) (f : Allot → Allot) : (s.modAllot a f).hbmStacks = s.hbmStacks := rfl
@[simp] theorem State.modAllot_hbm (s : State) (a : Nat) (f : Allot → Allot) : (s.modAllot a f).hbm = s.hbm := rfl
@[simp] theorem State.modAllot_links (s : State) (a : Nat) (f : Allot → Allot) : (s.modAllot a f).links = s.links := rfl
@[simp] theorem State.modAllot_rxs (s : State) (a : Nat) (f : Allot → Allot) : (s.modAllot a f).rxs = s.rxs := rfl
@[simp] theorem State.modAllot_hostPorts (s : State) (a : Nat) (f : Allot → Allot) : (s.modAllot a f).hostPorts = s.hostPorts := rfl
@[simp] theorem State.modAllot_srvPorts (s : State) (a : Nat) (f : Allot → Allot) : (s.modAllot a f).srvPorts = s.srvPorts := rfl
@[simp] theorem State.modAllot_lodge (s : State) (a : Nat) (f : Allot → Allot) : (s.modAllot a f).lodge = s.lodge := rfl
@[simp] theorem State.modAllot_ns (s : State) (a : Nat) (f : Allot → Allot) : (s.modAllot a f).ns = s.ns := rfl
@[simp] theorem State.modAllot_free (s : State) (a : Nat) (f : Allot → Allot) : (s.modAllot a f).free = s.free := rfl
@[simp] theorem State.modAllot_pending (s : State) (a : Nat) (f : Allot → Allot) : (s.modAllot a f).pending = s.pending := rfl
@[simp] theorem State.modAllot_out (s : State) (a : Nat) (f : Allot → Allot) : (s.modAllot a f).out = s.out := rfl
@[simp] theorem State.pav_modAllot (s : State) (a : Nat) (f : Allot → Allot) (j : Nat) : (s.modAllot a f).pav j = s.pav j := rfl
@[simp] theorem State.plot_modAllot (s : State) (a : Nat) (f : Allot → Allot) (j : Nat) : (s.modAllot a f).plot j = s.plot j := rfl
@[simp] theorem State.seg_modAllot (s : State) (a : Nat) (f : Allot → Allot) (j : Nat) : (s.modAllot a f).seg j = s.seg j := rfl
@[simp] theorem State.stack_modAllot (s : State) (a : Nat) (f : Allot → Allot) (j : Nat) : (s.modAllot a f).stack j = s.stack j := rfl
@[simp] theorem State.hostPort_modAllot (s : State) (a : Nat) (f : Allot → Allot) (j : Nat) : (s.modAllot a f).hostPort j = s.hostPort j := rfl
@[simp] theorem State.srv_modAllot (s : State) (a : Nat) (f : Allot → Allot) (j : Nat) : (s.modAllot a f).srv j = s.srv j := rfl
@[simp] theorem State.rx_modAllot (s : State) (a : Nat) (f : Allot → Allot) (j : Receiver) : (s.modAllot a f).rx j = s.rx j := rfl
@[simp] theorem State.link_modAllot (s : State) (a : Nat) (f : Allot → Allot) (j : LinkId) : (s.modAllot a f).link j = s.link j := rfl

@[simp] theorem State.allot_setAllot_same (s : State) (a : Nat) (x : Allot) : (s.setAllot a x).allot a = x := by
  simp [State.allot, State.setAllot]

@[simp] theorem State.allot_setAllot_other (s : State) (a i : Nat) (x : Allot) (h : i ≠ a) :
    (s.setAllot a x).allot i = s.allot i := by
  simp [State.allot, State.setAllot, h]

@[simp] theorem State.allot_modAllot_same (s : State) (a : Nat) (f : Allot → Allot) :
    (s.modAllot a f).allot a = f (s.allot a) := by
  simp [State.modAllot]

@[simp] theorem State.allot_modAllot_other (s : State) (a i : Nat) (f : Allot → Allot) (h : i ≠ a) :
    (s.modAllot a f).allot i = s.allot i := by
  simp [State.modAllot, h]

/-! ### HostPort -/

@[simp] theorem State.setHost_orderB (s : State) (k : Nat) (x : HostPort) : (s.setHost k x).orderB = s.orderB := rfl
@[simp] theorem State.setHost_pavs (s : State) (k : Nat) (x : HostPort) : (s.setHost k x).pavs = s.pavs := rfl
@[simp] theorem State.setHost_plots (s : State) (k : Nat) (x : HostPort) : (s.setHost k x).plots = s.plots := rfl
@[simp] theorem State.setHost_segs (s : State) (k : Nat) (x : HostPort) : (s.setHost k x).segs = s.segs := rfl
@[simp] theorem State.setHost_hbmStacks (s : State) (k : Nat) (x : HostPort) : (s.setHost k x).hbmStacks = s.hbmStacks := rfl
@[simp] theorem State.setHost_hbm (s : State) (k : Nat) (x : HostPort) : (s.setHost k x).hbm = s.hbm := rfl
@[simp] theorem State.setHost_links (s : State) (k : Nat) (x : HostPort) : (s.setHost k x).links = s.links := rfl
@[simp] theorem State.setHost_rxs (s : State) (k : Nat) (x : HostPort) : (s.setHost k x).rxs = s.rxs := rfl
@[simp] theorem State.setHost_allots (s : State) (k : Nat) (x : HostPort) : (s.setHost k x).allots = s.allots := rfl
@[simp] theorem State.setHost_srvPorts (s : State) (k : Nat) (x : HostPort) : (s.setHost k x).srvPorts = s.srvPorts := rfl
@[simp] theorem State.setHost_lodge (s : State) (k : Nat) (x : HostPort) : (s.setHost k x).lodge = s.lodge := rfl
@[simp] theorem State.setHost_ns (s : State) (k : Nat) (x : HostPort) : (s.setHost k x).ns = s.ns := rfl
@[simp] theorem State.setHost_free (s : State) (k : Nat) (x : HostPort) : (s.setHost k x).free = s.free := rfl
@[simp] theorem State.setHost_pending (s : State) (k : Nat) (x : HostPort) : (s.setHost k x).pending = s.pending := rfl
@[simp] theorem State.setHost_out (s : State) (k : Nat) (x : HostPort) : (s.setHost k x).out = s.out := rfl
@[simp] theorem State.pav_setHost (s : State) (k : Nat) (x : HostPort) (j : Nat) : (s.setHost k x).pav j = s.pav j := rfl
@[simp] theorem State.plot_setHost (s : State) (k : Nat) (x : HostPort) (j : Nat) : (s.setHost k x).plot j = s.plot j := rfl
@[simp] theorem State.seg_setHost (s : State) (k : Nat) (x : HostPort) (j : Nat) : (s.setHost k x).seg j = s.seg j := rfl
@[simp] theorem State.stack_setHost (s : State) (k : Nat) (x : HostPort) (j : Nat) : (s.setHost k x).stack j = s.stack j := rfl
@[simp] theorem State.allot_setHost (s : State) (k : Nat) (x : HostPort) (j : Nat) : (s.setHost k x).allot j = s.allot j := rfl
@[simp] theorem State.srv_setHost (s : State) (k : Nat) (x : HostPort) (j : Nat) : (s.setHost k x).srv j = s.srv j := rfl
@[simp] theorem State.rx_setHost (s : State) (k : Nat) (x : HostPort) (j : Receiver) : (s.setHost k x).rx j = s.rx j := rfl
@[simp] theorem State.link_setHost (s : State) (k : Nat) (x : HostPort) (j : LinkId) : (s.setHost k x).link j = s.link j := rfl

@[simp] theorem State.modHost_orderB (s : State) (k : Nat) (f : HostPort → HostPort) : (s.modHost k f).orderB = s.orderB := rfl
@[simp] theorem State.modHost_pavs (s : State) (k : Nat) (f : HostPort → HostPort) : (s.modHost k f).pavs = s.pavs := rfl
@[simp] theorem State.modHost_plots (s : State) (k : Nat) (f : HostPort → HostPort) : (s.modHost k f).plots = s.plots := rfl
@[simp] theorem State.modHost_segs (s : State) (k : Nat) (f : HostPort → HostPort) : (s.modHost k f).segs = s.segs := rfl
@[simp] theorem State.modHost_hbmStacks (s : State) (k : Nat) (f : HostPort → HostPort) : (s.modHost k f).hbmStacks = s.hbmStacks := rfl
@[simp] theorem State.modHost_hbm (s : State) (k : Nat) (f : HostPort → HostPort) : (s.modHost k f).hbm = s.hbm := rfl
@[simp] theorem State.modHost_links (s : State) (k : Nat) (f : HostPort → HostPort) : (s.modHost k f).links = s.links := rfl
@[simp] theorem State.modHost_rxs (s : State) (k : Nat) (f : HostPort → HostPort) : (s.modHost k f).rxs = s.rxs := rfl
@[simp] theorem State.modHost_allots (s : State) (k : Nat) (f : HostPort → HostPort) : (s.modHost k f).allots = s.allots := rfl
@[simp] theorem State.modHost_srvPorts (s : State) (k : Nat) (f : HostPort → HostPort) : (s.modHost k f).srvPorts = s.srvPorts := rfl
@[simp] theorem State.modHost_lodge (s : State) (k : Nat) (f : HostPort → HostPort) : (s.modHost k f).lodge = s.lodge := rfl
@[simp] theorem State.modHost_ns (s : State) (k : Nat) (f : HostPort → HostPort) : (s.modHost k f).ns = s.ns := rfl
@[simp] theorem State.modHost_free (s : State) (k : Nat) (f : HostPort → HostPort) : (s.modHost k f).free = s.free := rfl
@[simp] theorem State.modHost_pending (s : State) (k : Nat) (f : HostPort → HostPort) : (s.modHost k f).pending = s.pending := rfl
@[simp] theorem State.modHost_out (s : State) (k : Nat) (f : HostPort → HostPort) : (s.modHost k f).out = s.out := rfl
@[simp] theorem State.pav_modHost (s : State) (k : Nat) (f : HostPort → HostPort) (j : Nat) : (s.modHost k f).pav j = s.pav j := rfl
@[simp] theorem State.plot_modHost (s : State) (k : Nat) (f : HostPort → HostPort) (j : Nat) : (s.modHost k f).plot j = s.plot j := rfl
@[simp] theorem State.seg_modHost (s : State) (k : Nat) (f : HostPort → HostPort) (j : Nat) : (s.modHost k f).seg j = s.seg j := rfl
@[simp] theorem State.stack_modHost (s : State) (k : Nat) (f : HostPort → HostPort) (j : Nat) : (s.modHost k f).stack j = s.stack j := rfl
@[simp] theorem State.allot_modHost (s : State) (k : Nat) (f : HostPort → HostPort) (j : Nat) : (s.modHost k f).allot j = s.allot j := rfl
@[simp] theorem State.srv_modHost (s : State) (k : Nat) (f : HostPort → HostPort) (j : Nat) : (s.modHost k f).srv j = s.srv j := rfl
@[simp] theorem State.rx_modHost (s : State) (k : Nat) (f : HostPort → HostPort) (j : Receiver) : (s.modHost k f).rx j = s.rx j := rfl
@[simp] theorem State.link_modHost (s : State) (k : Nat) (f : HostPort → HostPort) (j : LinkId) : (s.modHost k f).link j = s.link j := rfl

@[simp] theorem State.hostPort_setHost_same (s : State) (k : Nat) (x : HostPort) : (s.setHost k x).hostPort k = x := by
  simp [State.hostPort, State.setHost]

@[simp] theorem State.hostPort_setHost_other (s : State) (k i : Nat) (x : HostPort) (h : i ≠ k) :
    (s.setHost k x).hostPort i = s.hostPort i := by
  simp [State.hostPort, State.setHost, h]

@[simp] theorem State.hostPort_modHost_same (s : State) (k : Nat) (f : HostPort → HostPort) :
    (s.modHost k f).hostPort k = f (s.hostPort k) := by
  simp [State.modHost]

@[simp] theorem State.hostPort_modHost_other (s : State) (k i : Nat) (f : HostPort → HostPort) (h : i ≠ k) :
    (s.modHost k f).hostPort i = s.hostPort i := by
  simp [State.modHost, h]

/-! ### SrvPort -/

@[simp] theorem State.setSrv_orderB (s : State) (p : Nat) (x : SrvPort) : (s.setSrv p x).orderB = s.orderB := rfl
@[simp] theorem State.setSrv_pavs (s : State) (p : Nat) (x : SrvPort) : (s.setSrv p x).pavs = s.pavs := rfl
@[simp] theorem State.setSrv_plots (s : State) (p : Nat) (x : SrvPort) : (s.setSrv p x).plots = s.plots := rfl
@[simp] theorem State.setSrv_segs (s : State) (p : Nat) (x : SrvPort) : (s.setSrv p x).segs = s.segs := rfl
@[simp] theorem State.setSrv_hbmStacks (s : State) (p : Nat) (x : SrvPort) : (s.setSrv p x).hbmStacks = s.hbmStacks := rfl
@[simp] theorem State.setSrv_hbm (s : State) (p : Nat) (x : SrvPort) : (s.setSrv p x).hbm = s.hbm := rfl
@[simp] theorem State.setSrv_links (s : State) (p : Nat) (x : SrvPort) : (s.setSrv p x).links = s.links := rfl
@[simp] theorem State.setSrv_rxs (s : State) (p : Nat) (x : SrvPort) : (s.setSrv p x).rxs = s.rxs := rfl
@[simp] theorem State.setSrv_allots (s : State) (p : Nat) (x : SrvPort) : (s.setSrv p x).allots = s.allots := rfl
@[simp] theorem State.setSrv_hostPorts (s : State) (p : Nat) (x : SrvPort) : (s.setSrv p x).hostPorts = s.hostPorts := rfl
@[simp] theorem State.setSrv_lodge (s : State) (p : Nat) (x : SrvPort) : (s.setSrv p x).lodge = s.lodge := rfl
@[simp] theorem State.setSrv_ns (s : State) (p : Nat) (x : SrvPort) : (s.setSrv p x).ns = s.ns := rfl
@[simp] theorem State.setSrv_free (s : State) (p : Nat) (x : SrvPort) : (s.setSrv p x).free = s.free := rfl
@[simp] theorem State.setSrv_pending (s : State) (p : Nat) (x : SrvPort) : (s.setSrv p x).pending = s.pending := rfl
@[simp] theorem State.setSrv_out (s : State) (p : Nat) (x : SrvPort) : (s.setSrv p x).out = s.out := rfl
@[simp] theorem State.pav_setSrv (s : State) (p : Nat) (x : SrvPort) (j : Nat) : (s.setSrv p x).pav j = s.pav j := rfl
@[simp] theorem State.plot_setSrv (s : State) (p : Nat) (x : SrvPort) (j : Nat) : (s.setSrv p x).plot j = s.plot j := rfl
@[simp] theorem State.seg_setSrv (s : State) (p : Nat) (x : SrvPort) (j : Nat) : (s.setSrv p x).seg j = s.seg j := rfl
@[simp] theorem State.stack_setSrv (s : State) (p : Nat) (x : SrvPort) (j : Nat) : (s.setSrv p x).stack j = s.stack j := rfl
@[simp] theorem State.allot_setSrv (s : State) (p : Nat) (x : SrvPort) (j : Nat) : (s.setSrv p x).allot j = s.allot j := rfl
@[simp] theorem State.hostPort_setSrv (s : State) (p : Nat) (x : SrvPort) (j : Nat) : (s.setSrv p x).hostPort j = s.hostPort j := rfl
@[simp] theorem State.rx_setSrv (s : State) (p : Nat) (x : SrvPort) (j : Receiver) : (s.setSrv p x).rx j = s.rx j := rfl
@[simp] theorem State.link_setSrv (s : State) (p : Nat) (x : SrvPort) (j : LinkId) : (s.setSrv p x).link j = s.link j := rfl

@[simp] theorem State.modSrv_orderB (s : State) (p : Nat) (f : SrvPort → SrvPort) : (s.modSrv p f).orderB = s.orderB := rfl
@[simp] theorem State.modSrv_pavs (s : State) (p : Nat) (f : SrvPort → SrvPort) : (s.modSrv p f).pavs = s.pavs := rfl
@[simp] theorem State.modSrv_plots (s : State) (p : Nat) (f : SrvPort → SrvPort) : (s.modSrv p f).plots = s.plots := rfl
@[simp] theorem State.modSrv_segs (s : State) (p : Nat) (f : SrvPort → SrvPort) : (s.modSrv p f).segs = s.segs := rfl
@[simp] theorem State.modSrv_hbmStacks (s : State) (p : Nat) (f : SrvPort → SrvPort) : (s.modSrv p f).hbmStacks = s.hbmStacks := rfl
@[simp] theorem State.modSrv_hbm (s : State) (p : Nat) (f : SrvPort → SrvPort) : (s.modSrv p f).hbm = s.hbm := rfl
@[simp] theorem State.modSrv_links (s : State) (p : Nat) (f : SrvPort → SrvPort) : (s.modSrv p f).links = s.links := rfl
@[simp] theorem State.modSrv_rxs (s : State) (p : Nat) (f : SrvPort → SrvPort) : (s.modSrv p f).rxs = s.rxs := rfl
@[simp] theorem State.modSrv_allots (s : State) (p : Nat) (f : SrvPort → SrvPort) : (s.modSrv p f).allots = s.allots := rfl
@[simp] theorem State.modSrv_hostPorts (s : State) (p : Nat) (f : SrvPort → SrvPort) : (s.modSrv p f).hostPorts = s.hostPorts := rfl
@[simp] theorem State.modSrv_lodge (s : State) (p : Nat) (f : SrvPort → SrvPort) : (s.modSrv p f).lodge = s.lodge := rfl
@[simp] theorem State.modSrv_ns (s : State) (p : Nat) (f : SrvPort → SrvPort) : (s.modSrv p f).ns = s.ns := rfl
@[simp] theorem State.modSrv_free (s : State) (p : Nat) (f : SrvPort → SrvPort) : (s.modSrv p f).free = s.free := rfl
@[simp] theorem State.modSrv_pending (s : State) (p : Nat) (f : SrvPort → SrvPort) : (s.modSrv p f).pending = s.pending := rfl
@[simp] theorem State.modSrv_out (s : State) (p : Nat) (f : SrvPort → SrvPort) : (s.modSrv p f).out = s.out := rfl
@[simp] theorem State.pav_modSrv (s : State) (p : Nat) (f : SrvPort → SrvPort) (j : Nat) : (s.modSrv p f).pav j = s.pav j := rfl
@[simp] theorem State.plot_modSrv (s : State) (p : Nat) (f : SrvPort → SrvPort) (j : Nat) : (s.modSrv p f).plot j = s.plot j := rfl
@[simp] theorem State.seg_modSrv (s : State) (p : Nat) (f : SrvPort → SrvPort) (j : Nat) : (s.modSrv p f).seg j = s.seg j := rfl
@[simp] theorem State.stack_modSrv (s : State) (p : Nat) (f : SrvPort → SrvPort) (j : Nat) : (s.modSrv p f).stack j = s.stack j := rfl
@[simp] theorem State.allot_modSrv (s : State) (p : Nat) (f : SrvPort → SrvPort) (j : Nat) : (s.modSrv p f).allot j = s.allot j := rfl
@[simp] theorem State.hostPort_modSrv (s : State) (p : Nat) (f : SrvPort → SrvPort) (j : Nat) : (s.modSrv p f).hostPort j = s.hostPort j := rfl
@[simp] theorem State.rx_modSrv (s : State) (p : Nat) (f : SrvPort → SrvPort) (j : Receiver) : (s.modSrv p f).rx j = s.rx j := rfl
@[simp] theorem State.link_modSrv (s : State) (p : Nat) (f : SrvPort → SrvPort) (j : LinkId) : (s.modSrv p f).link j = s.link j := rfl

@[simp] theorem State.srv_setSrv_same (s : State) (p : Nat) (x : SrvPort) : (s.setSrv p x).srv p = x := by
  simp [State.srv, State.setSrv]

@[simp] theorem State.srv_setSrv_other (s : State) (p i : Nat) (x : SrvPort) (h : i ≠ p) :
    (s.setSrv p x).srv i = s.srv i := by
  simp [State.srv, State.setSrv, h]

@[simp] theorem State.srv_modSrv_same (s : State) (p : Nat) (f : SrvPort → SrvPort) :
    (s.modSrv p f).srv p = f (s.srv p) := by
  simp [State.modSrv]

@[simp] theorem State.srv_modSrv_other (s : State) (p i : Nat) (f : SrvPort → SrvPort) (h : i ≠ p) :
    (s.modSrv p f).srv i = s.srv i := by
  simp [State.modSrv, h]

/-! ### Rx -/

@[simp] theorem State.setRx_orderB (s : State) (r : Receiver) (x : Rx) : (s.setRx r x).orderB = s.orderB := rfl
@[simp] theorem State.setRx_pavs (s : State) (r : Receiver) (x : Rx) : (s.setRx r x).pavs = s.pavs := rfl
@[simp] theorem State.setRx_plots (s : State) (r : Receiver) (x : Rx) : (s.setRx r x).plots = s.plots := rfl
@[simp] theorem State.setRx_segs (s : State) (r : Receiver) (x : Rx) : (s.setRx r x).segs = s.segs := rfl
@[simp] theorem State.setRx_hbmStacks (s : State) (r : Receiver) (x : Rx) : (s.setRx r x).hbmStacks = s.hbmStacks := rfl
@[simp] theorem State.setRx_hbm (s : State) (r : Receiver) (x : Rx) : (s.setRx r x).hbm = s.hbm := rfl
@[simp] theorem State.setRx_links (s : State) (r : Receiver) (x : Rx) : (s.setRx r x).links = s.links := rfl
@[simp] theorem State.setRx_allots (s : State) (r : Receiver) (x : Rx) : (s.setRx r x).allots = s.allots := rfl
@[simp] theorem State.setRx_hostPorts (s : State) (r : Receiver) (x : Rx) : (s.setRx r x).hostPorts = s.hostPorts := rfl
@[simp] theorem State.setRx_srvPorts (s : State) (r : Receiver) (x : Rx) : (s.setRx r x).srvPorts = s.srvPorts := rfl
@[simp] theorem State.setRx_lodge (s : State) (r : Receiver) (x : Rx) : (s.setRx r x).lodge = s.lodge := rfl
@[simp] theorem State.setRx_ns (s : State) (r : Receiver) (x : Rx) : (s.setRx r x).ns = s.ns := rfl
@[simp] theorem State.setRx_free (s : State) (r : Receiver) (x : Rx) : (s.setRx r x).free = s.free := rfl
@[simp] theorem State.setRx_pending (s : State) (r : Receiver) (x : Rx) : (s.setRx r x).pending = s.pending := rfl
@[simp] theorem State.setRx_out (s : State) (r : Receiver) (x : Rx) : (s.setRx r x).out = s.out := rfl
@[simp] theorem State.pav_setRx (s : State) (r : Receiver) (x : Rx) (j : Nat) : (s.setRx r x).pav j = s.pav j := rfl
@[simp] theorem State.plot_setRx (s : State) (r : Receiver) (x : Rx) (j : Nat) : (s.setRx r x).plot j = s.plot j := rfl
@[simp] theorem State.seg_setRx (s : State) (r : Receiver) (x : Rx) (j : Nat) : (s.setRx r x).seg j = s.seg j := rfl
@[simp] theorem State.stack_setRx (s : State) (r : Receiver) (x : Rx) (j : Nat) : (s.setRx r x).stack j = s.stack j := rfl
@[simp] theorem State.allot_setRx (s : State) (r : Receiver) (x : Rx) (j : Nat) : (s.setRx r x).allot j = s.allot j := rfl
@[simp] theorem State.hostPort_setRx (s : State) (r : Receiver) (x : Rx) (j : Nat) : (s.setRx r x).hostPort j = s.hostPort j := rfl
@[simp] theorem State.srv_setRx (s : State) (r : Receiver) (x : Rx) (j : Nat) : (s.setRx r x).srv j = s.srv j := rfl
@[simp] theorem State.link_setRx (s : State) (r : Receiver) (x : Rx) (j : LinkId) : (s.setRx r x).link j = s.link j := rfl

@[simp] theorem State.modRx_orderB (s : State) (r : Receiver) (f : Rx → Rx) : (s.modRx r f).orderB = s.orderB := rfl
@[simp] theorem State.modRx_pavs (s : State) (r : Receiver) (f : Rx → Rx) : (s.modRx r f).pavs = s.pavs := rfl
@[simp] theorem State.modRx_plots (s : State) (r : Receiver) (f : Rx → Rx) : (s.modRx r f).plots = s.plots := rfl
@[simp] theorem State.modRx_segs (s : State) (r : Receiver) (f : Rx → Rx) : (s.modRx r f).segs = s.segs := rfl
@[simp] theorem State.modRx_hbmStacks (s : State) (r : Receiver) (f : Rx → Rx) : (s.modRx r f).hbmStacks = s.hbmStacks := rfl
@[simp] theorem State.modRx_hbm (s : State) (r : Receiver) (f : Rx → Rx) : (s.modRx r f).hbm = s.hbm := rfl
@[simp] theorem State.modRx_links (s : State) (r : Receiver) (f : Rx → Rx) : (s.modRx r f).links = s.links := rfl
@[simp] theorem State.modRx_allots (s : State) (r : Receiver) (f : Rx → Rx) : (s.modRx r f).allots = s.allots := rfl
@[simp] theorem State.modRx_hostPorts (s : State) (r : Receiver) (f : Rx → Rx) : (s.modRx r f).hostPorts = s.hostPorts := rfl
@[simp] theorem State.modRx_srvPorts (s : State) (r : Receiver) (f : Rx → Rx) : (s.modRx r f).srvPorts = s.srvPorts := rfl
@[simp] theorem State.modRx_lodge (s : State) (r : Receiver) (f : Rx → Rx) : (s.modRx r f).lodge = s.lodge := rfl
@[simp] theorem State.modRx_ns (s : State) (r : Receiver) (f : Rx → Rx) : (s.modRx r f).ns = s.ns := rfl
@[simp] theorem State.modRx_free (s : State) (r : Receiver) (f : Rx → Rx) : (s.modRx r f).free = s.free := rfl
@[simp] theorem State.modRx_pending (s : State) (r : Receiver) (f : Rx → Rx) : (s.modRx r f).pending = s.pending := rfl
@[simp] theorem State.modRx_out (s : State) (r : Receiver) (f : Rx → Rx) : (s.modRx r f).out = s.out := rfl
@[simp] theorem State.pav_modRx (s : State) (r : Receiver) (f : Rx → Rx) (j : Nat) : (s.modRx r f).pav j = s.pav j := rfl
@[simp] theorem State.plot_modRx (s : State) (r : Receiver) (f : Rx → Rx) (j : Nat) : (s.modRx r f).plot j = s.plot j := rfl
@[simp] theorem State.seg_modRx (s : State) (r : Receiver) (f : Rx → Rx) (j : Nat) : (s.modRx r f).seg j = s.seg j := rfl
@[simp] theorem State.stack_modRx (s : State) (r : Receiver) (f : Rx → Rx) (j : Nat) : (s.modRx r f).stack j = s.stack j := rfl
@[simp] theorem State.allot_modRx (s : State) (r : Receiver) (f : Rx → Rx) (j : Nat) : (s.modRx r f).allot j = s.allot j := rfl
@[simp] theorem State.hostPort_modRx (s : State) (r : Receiver) (f : Rx → Rx) (j : Nat) : (s.modRx r f).hostPort j = s.hostPort j := rfl
@[simp] theorem State.srv_modRx (s : State) (r : Receiver) (f : Rx → Rx) (j : Nat) : (s.modRx r f).srv j = s.srv j := rfl
@[simp] theorem State.link_modRx (s : State) (r : Receiver) (f : Rx → Rx) (j : LinkId) : (s.modRx r f).link j = s.link j := rfl

@[simp] theorem State.rx_setRx_same (s : State) (r : Receiver) (x : Rx) : (s.setRx r x).rx r = x := by
  simp [State.rx, State.setRx]

@[simp] theorem State.rx_setRx_other (s : State) (r i : Receiver) (x : Rx) (h : i ≠ r) :
    (s.setRx r x).rx i = s.rx i := by
  simp [State.rx, State.setRx, h]

@[simp] theorem State.rx_modRx_same (s : State) (r : Receiver) (f : Rx → Rx) :
    (s.modRx r f).rx r = f (s.rx r) := by
  simp [State.modRx]

@[simp] theorem State.rx_modRx_other (s : State) (r i : Receiver) (f : Rx → Rx) (h : i ≠ r) :
    (s.modRx r f).rx i = s.rx i := by
  simp [State.modRx, h]

/-! ### Link -/

@[simp] theorem State.setLink_orderB (s : State) (l : LinkId) (x : Link) : (s.setLink l x).orderB = s.orderB := rfl
@[simp] theorem State.setLink_pavs (s : State) (l : LinkId) (x : Link) : (s.setLink l x).pavs = s.pavs := rfl
@[simp] theorem State.setLink_plots (s : State) (l : LinkId) (x : Link) : (s.setLink l x).plots = s.plots := rfl
@[simp] theorem State.setLink_segs (s : State) (l : LinkId) (x : Link) : (s.setLink l x).segs = s.segs := rfl
@[simp] theorem State.setLink_hbmStacks (s : State) (l : LinkId) (x : Link) : (s.setLink l x).hbmStacks = s.hbmStacks := rfl
@[simp] theorem State.setLink_hbm (s : State) (l : LinkId) (x : Link) : (s.setLink l x).hbm = s.hbm := rfl
@[simp] theorem State.setLink_rxs (s : State) (l : LinkId) (x : Link) : (s.setLink l x).rxs = s.rxs := rfl
@[simp] theorem State.setLink_allots (s : State) (l : LinkId) (x : Link) : (s.setLink l x).allots = s.allots := rfl
@[simp] theorem State.setLink_hostPorts (s : State) (l : LinkId) (x : Link) : (s.setLink l x).hostPorts = s.hostPorts := rfl
@[simp] theorem State.setLink_srvPorts (s : State) (l : LinkId) (x : Link) : (s.setLink l x).srvPorts = s.srvPorts := rfl
@[simp] theorem State.setLink_lodge (s : State) (l : LinkId) (x : Link) : (s.setLink l x).lodge = s.lodge := rfl
@[simp] theorem State.setLink_ns (s : State) (l : LinkId) (x : Link) : (s.setLink l x).ns = s.ns := rfl
@[simp] theorem State.setLink_free (s : State) (l : LinkId) (x : Link) : (s.setLink l x).free = s.free := rfl
@[simp] theorem State.setLink_pending (s : State) (l : LinkId) (x : Link) : (s.setLink l x).pending = s.pending := rfl
@[simp] theorem State.setLink_out (s : State) (l : LinkId) (x : Link) : (s.setLink l x).out = s.out := rfl
@[simp] theorem State.pav_setLink (s : State) (l : LinkId) (x : Link) (j : Nat) : (s.setLink l x).pav j = s.pav j := rfl
@[simp] theorem State.plot_setLink (s : State) (l : LinkId) (x : Link) (j : Nat) : (s.setLink l x).plot j = s.plot j := rfl
@[simp] theorem State.seg_setLink (s : State) (l : LinkId) (x : Link) (j : Nat) : (s.setLink l x).seg j = s.seg j := rfl
@[simp] theorem State.stack_setLink (s : State) (l : LinkId) (x : Link) (j : Nat) : (s.setLink l x).stack j = s.stack j := rfl
@[simp] theorem State.allot_setLink (s : State) (l : LinkId) (x : Link) (j : Nat) : (s.setLink l x).allot j = s.allot j := rfl
@[simp] theorem State.hostPort_setLink (s : State) (l : LinkId) (x : Link) (j : Nat) : (s.setLink l x).hostPort j = s.hostPort j := rfl
@[simp] theorem State.srv_setLink (s : State) (l : LinkId) (x : Link) (j : Nat) : (s.setLink l x).srv j = s.srv j := rfl
@[simp] theorem State.rx_setLink (s : State) (l : LinkId) (x : Link) (j : Receiver) : (s.setLink l x).rx j = s.rx j := rfl

@[simp] theorem State.modLink_orderB (s : State) (l : LinkId) (f : Link → Link) : (s.modLink l f).orderB = s.orderB := rfl
@[simp] theorem State.modLink_pavs (s : State) (l : LinkId) (f : Link → Link) : (s.modLink l f).pavs = s.pavs := rfl
@[simp] theorem State.modLink_plots (s : State) (l : LinkId) (f : Link → Link) : (s.modLink l f).plots = s.plots := rfl
@[simp] theorem State.modLink_segs (s : State) (l : LinkId) (f : Link → Link) : (s.modLink l f).segs = s.segs := rfl
@[simp] theorem State.modLink_hbmStacks (s : State) (l : LinkId) (f : Link → Link) : (s.modLink l f).hbmStacks = s.hbmStacks := rfl
@[simp] theorem State.modLink_hbm (s : State) (l : LinkId) (f : Link → Link) : (s.modLink l f).hbm = s.hbm := rfl
@[simp] theorem State.modLink_rxs (s : State) (l : LinkId) (f : Link → Link) : (s.modLink l f).rxs = s.rxs := rfl
@[simp] theorem State.modLink_allots (s : State) (l : LinkId) (f : Link → Link) : (s.modLink l f).allots = s.allots := rfl
@[simp] theorem State.modLink_hostPorts (s : State) (l : LinkId) (f : Link → Link) : (s.modLink l f).hostPorts = s.hostPorts := rfl
@[simp] theorem State.modLink_srvPorts (s : State) (l : LinkId) (f : Link → Link) : (s.modLink l f).srvPorts = s.srvPorts := rfl
@[simp] theorem State.modLink_lodge (s : State) (l : LinkId) (f : Link → Link) : (s.modLink l f).lodge = s.lodge := rfl
@[simp] theorem State.modLink_ns (s : State) (l : LinkId) (f : Link → Link) : (s.modLink l f).ns = s.ns := rfl
@[simp] theorem State.modLink_free (s : State) (l : LinkId) (f : Link → Link) : (s.modLink l f).free = s.free := rfl
@[simp] theorem State.modLink_pending (s : State) (l : LinkId) (f : Link → Link) : (s.modLink l f).pending = s.pending := rfl
@[simp] theorem State.modLink_out (s : State) (l : LinkId) (f : Link → Link) : (s.modLink l f).out = s.out := rfl
@[simp] theorem State.pav_modLink (s : State) (l : LinkId) (f : Link → Link) (j : Nat) : (s.modLink l f).pav j = s.pav j := rfl
@[simp] theorem State.plot_modLink (s : State) (l : LinkId) (f : Link → Link) (j : Nat) : (s.modLink l f).plot j = s.plot j := rfl
@[simp] theorem State.seg_modLink (s : State) (l : LinkId) (f : Link → Link) (j : Nat) : (s.modLink l f).seg j = s.seg j := rfl
@[simp] theorem State.stack_modLink (s : State) (l : LinkId) (f : Link → Link) (j : Nat) : (s.modLink l f).stack j = s.stack j := rfl
@[simp] theorem State.allot_modLink (s : State) (l : LinkId) (f : Link → Link) (j : Nat) : (s.modLink l f).allot j = s.allot j := rfl
@[simp] theorem State.hostPort_modLink (s : State) (l : LinkId) (f : Link → Link) (j : Nat) : (s.modLink l f).hostPort j = s.hostPort j := rfl
@[simp] theorem State.srv_modLink (s : State) (l : LinkId) (f : Link → Link) (j : Nat) : (s.modLink l f).srv j = s.srv j := rfl
@[simp] theorem State.rx_modLink (s : State) (l : LinkId) (f : Link → Link) (j : Receiver) : (s.modLink l f).rx j = s.rx j := rfl

@[simp] theorem State.link_setLink_same (s : State) (l : LinkId) (x : Link) : (s.setLink l x).link l = x := by
  simp [State.link, State.setLink]

@[simp] theorem State.link_setLink_other (s : State) (l i : LinkId) (x : Link) (h : linkCanon i ≠ linkCanon l) :
    (s.setLink l x).link i = s.link i := by
  simp [State.link, State.setLink, h]

@[simp] theorem State.link_modLink_same (s : State) (l : LinkId) (f : Link → Link) :
    (s.modLink l f).link l = f (s.link l) := by
  simp [State.modLink]

@[simp] theorem State.link_modLink_other (s : State) (l i : LinkId) (f : Link → Link) (h : linkCanon i ≠ linkCanon l) :
    (s.modLink l f).link i = s.link i := by
  simp [State.modLink, h]

/-! ### Lodge -/

@[simp] theorem State.setLodge_orderB (s : State) (x : Lodge) : (s.setLodge x).orderB = s.orderB := rfl
@[simp] theorem State.setLodge_pavs (s : State) (x : Lodge) : (s.setLodge x).pavs = s.pavs := rfl
@[simp] theorem State.setLodge_plots (s : State) (x : Lodge) : (s.setLodge x).plots = s.plots := rfl
@[simp] theorem State.setLodge_segs (s : State) (x : Lodge) : (s.setLodge x).segs = s.segs := rfl
@[simp] theorem State.setLodge_hbmStacks (s : State) (x : Lodge) : (s.setLodge x).hbmStacks = s.hbmStacks := rfl
@[simp] theorem State.setLodge_hbm (s : State) (x : Lodge) : (s.setLodge x).hbm = s.hbm := rfl
@[simp] theorem State.setLodge_links (s : State) (x : Lodge) : (s.setLodge x).links = s.links := rfl
@[simp] theorem State.setLodge_rxs (s : State) (x : Lodge) : (s.setLodge x).rxs = s.rxs := rfl
@[simp] theorem State.setLodge_allots (s : State) (x : Lodge) : (s.setLodge x).allots = s.allots := rfl
@[simp] theorem State.setLodge_hostPorts (s : State) (x : Lodge) : (s.setLodge x).hostPorts = s.hostPorts := rfl
@[simp] theorem State.setLodge_srvPorts (s : State) (x : Lodge) : (s.setLodge x).srvPorts = s.srvPorts := rfl
@[simp] theorem State.setLodge_ns (s : State) (x : Lodge) : (s.setLodge x).ns = s.ns := rfl
@[simp] theorem State.setLodge_free (s : State) (x : Lodge) : (s.setLodge x).free = s.free := rfl
@[simp] theorem State.setLodge_pending (s : State) (x : Lodge) : (s.setLodge x).pending = s.pending := rfl
@[simp] theorem State.setLodge_out (s : State) (x : Lodge) : (s.setLodge x).out = s.out := rfl
@[simp] theorem State.pav_setLodge (s : State) (x : Lodge) (j : Nat) : (s.setLodge x).pav j = s.pav j := rfl
@[simp] theorem State.plot_setLodge (s : State) (x : Lodge) (j : Nat) : (s.setLodge x).plot j = s.plot j := rfl
@[simp] theorem State.seg_setLodge (s : State) (x : Lodge) (j : Nat) : (s.setLodge x).seg j = s.seg j := rfl
@[simp] theorem State.stack_setLodge (s : State) (x : Lodge) (j : Nat) : (s.setLodge x).stack j = s.stack j := rfl
@[simp] theorem State.allot_setLodge (s : State) (x : Lodge) (j : Nat) : (s.setLodge x).allot j = s.allot j := rfl
@[simp] theorem State.hostPort_setLodge (s : State) (x : Lodge) (j : Nat) : (s.setLodge x).hostPort j = s.hostPort j := rfl
@[simp] theorem State.rx_setLodge (s : State) (x : Lodge) (j : Receiver) : (s.setLodge x).rx j = s.rx j := rfl
@[simp] theorem State.link_setLodge (s : State) (x : Lodge) (j : LinkId) : (s.setLodge x).link j = s.link j := rfl

@[simp] theorem State.modLodge_orderB (s : State) (f : Lodge → Lodge) : (s.modLodge f).orderB = s.orderB := rfl
@[simp] theorem State.modLodge_pavs (s : State) (f : Lodge → Lodge) : (s.modLodge f).pavs = s.pavs := rfl
@[simp] theorem State.modLodge_plots (s : State) (f : Lodge → Lodge) : (s.modLodge f).plots = s.plots := rfl
@[simp] theorem State.modLodge_segs (s : State) (f : Lodge → Lodge) : (s.modLodge f).segs = s.segs := rfl
@[simp] theorem State.modLodge_hbmStacks (s : State) (f : Lodge → Lodge) : (s.modLodge f).hbmStacks = s.hbmStacks := rfl
@[simp] theorem State.modLodge_hbm (s : State) (f : Lodge → Lodge) : (s.modLodge f).hbm = s.hbm := rfl
@[simp] theorem State.modLodge_links (s : State) (f : Lodge → Lodge) : (s.modLodge f).links = s.links := rfl
@[simp] theorem State.modLodge_rxs (s : State) (f : Lodge → Lodge) : (s.modLodge f).rxs = s.rxs := rfl
@[simp] theorem State.modLodge_allots (s : State) (f : Lodge → Lodge) : (s.modLodge f).allots = s.allots := rfl
@[simp] theorem State.modLodge_hostPorts (s : State) (f : Lodge → Lodge) : (s.modLodge f).hostPorts = s.hostPorts := rfl
@[simp] theorem State.modLodge_srvPorts (s : State) (f : Lodge → Lodge) : (s.modLodge f).srvPorts = s.srvPorts := rfl
@[simp] theorem State.modLodge_ns (s : State) (f : Lodge → Lodge) : (s.modLodge f).ns = s.ns := rfl
@[simp] theorem State.modLodge_free (s : State) (f : Lodge → Lodge) : (s.modLodge f).free = s.free := rfl
@[simp] theorem State.modLodge_pending (s : State) (f : Lodge → Lodge) : (s.modLodge f).pending = s.pending := rfl
@[simp] theorem State.modLodge_out (s : State) (f : Lodge → Lodge) : (s.modLodge f).out = s.out := rfl
@[simp] theorem State.pav_modLodge (s : State) (f : Lodge → Lodge) (j : Nat) : (s.modLodge f).pav j = s.pav j := rfl
@[simp] theorem State.plot_modLodge (s : State) (f : Lodge → Lodge) (j : Nat) : (s.modLodge f).plot j = s.plot j := rfl
@[simp] theorem State.seg_modLodge (s : State) (f : Lodge → Lodge) (j : Nat) : (s.modLodge f).seg j = s.seg j := rfl
@[simp] theorem State.stack_modLodge (s : State) (f : Lodge → Lodge) (j : Nat) : (s.modLodge f).stack j = s.stack j := rfl
@[simp] theorem State.allot_modLodge (s : State) (f : Lodge → Lodge) (j : Nat) : (s.modLodge f).allot j = s.allot j := rfl
@[simp] theorem State.hostPort_modLodge (s : State) (f : Lodge → Lodge) (j : Nat) : (s.modLodge f).hostPort j = s.hostPort j := rfl
@[simp] theorem State.rx_modLodge (s : State) (f : Lodge → Lodge) (j : Receiver) : (s.modLodge f).rx j = s.rx j := rfl
@[simp] theorem State.link_modLodge (s : State) (f : Lodge → Lodge) (j : LinkId) : (s.modLodge f).link j = s.link j := rfl

@[simp] theorem State.lodge_setLodge (s : State) (x : Lodge) : (s.setLodge x).lodge = x := rfl

@[simp] theorem State.lodge_modLodge (s : State) (f : Lodge → Lodge) : (s.modLodge f).lodge = f s.lodge := rfl

/-! ### Parts of a unit -/

@[simp] theorem State.modFn_orderB (s : State) (h f : Nat) (g : Fn → Fn) : (s.modFn h f g).orderB = s.orderB := rfl
@[simp] theorem State.modFn_pavs (s : State) (h f : Nat) (g : Fn → Fn) : (s.modFn h f g).pavs = s.pavs := rfl
@[simp] theorem State.modFn_plots (s : State) (h f : Nat) (g : Fn → Fn) : (s.modFn h f g).plots = s.plots := rfl
@[simp] theorem State.modFn_segs (s : State) (h f : Nat) (g : Fn → Fn) : (s.modFn h f g).segs = s.segs := rfl
@[simp] theorem State.modFn_hbmStacks (s : State) (h f : Nat) (g : Fn → Fn) : (s.modFn h f g).hbmStacks = s.hbmStacks := rfl
@[simp] theorem State.modFn_hbm (s : State) (h f : Nat) (g : Fn → Fn) : (s.modFn h f g).hbm = s.hbm := rfl
@[simp] theorem State.modFn_links (s : State) (h f : Nat) (g : Fn → Fn) : (s.modFn h f g).links = s.links := rfl
@[simp] theorem State.modFn_rxs (s : State) (h f : Nat) (g : Fn → Fn) : (s.modFn h f g).rxs = s.rxs := rfl
@[simp] theorem State.modFn_allots (s : State) (h f : Nat) (g : Fn → Fn) : (s.modFn h f g).allots = s.allots := rfl
@[simp] theorem State.modFn_srvPorts (s : State) (h f : Nat) (g : Fn → Fn) : (s.modFn h f g).srvPorts = s.srvPorts := rfl
@[simp] theorem State.modFn_lodge (s : State) (h f : Nat) (g : Fn → Fn) : (s.modFn h f g).lodge = s.lodge := rfl
@[simp] theorem State.modFn_ns (s : State) (h f : Nat) (g : Fn → Fn) : (s.modFn h f g).ns = s.ns := rfl
@[simp] theorem State.modFn_free (s : State) (h f : Nat) (g : Fn → Fn) : (s.modFn h f g).free = s.free := rfl
@[simp] theorem State.modFn_pending (s : State) (h f : Nat) (g : Fn → Fn) : (s.modFn h f g).pending = s.pending := rfl
@[simp] theorem State.modFn_out (s : State) (h f : Nat) (g : Fn → Fn) : (s.modFn h f g).out = s.out := rfl
@[simp] theorem State.pav_modFn (s : State) (h f : Nat) (g : Fn → Fn) (j : Nat) : (s.modFn h f g).pav j = s.pav j := rfl
@[simp] theorem State.plot_modFn (s : State) (h f : Nat) (g : Fn → Fn) (j : Nat) : (s.modFn h f g).plot j = s.plot j := rfl
@[simp] theorem State.seg_modFn (s : State) (h f : Nat) (g : Fn → Fn) (j : Nat) : (s.modFn h f g).seg j = s.seg j := rfl
@[simp] theorem State.stack_modFn (s : State) (h f : Nat) (g : Fn → Fn) (j : Nat) : (s.modFn h f g).stack j = s.stack j := rfl
@[simp] theorem State.allot_modFn (s : State) (h f : Nat) (g : Fn → Fn) (j : Nat) : (s.modFn h f g).allot j = s.allot j := rfl
@[simp] theorem State.srv_modFn (s : State) (h f : Nat) (g : Fn → Fn) (j : Nat) : (s.modFn h f g).srv j = s.srv j := rfl
@[simp] theorem State.rx_modFn (s : State) (h f : Nat) (g : Fn → Fn) (j : Receiver) : (s.modFn h f g).rx j = s.rx j := rfl
@[simp] theorem State.link_modFn (s : State) (h f : Nat) (g : Fn → Fn) (j : LinkId) : (s.modFn h f g).link j = s.link j := rfl

@[simp] theorem State.modQueue_orderB (s : State) (a q : Nat) (g : Queue → Queue) : (s.modQueue a q g).orderB = s.orderB := rfl
@[simp] theorem State.modQueue_pavs (s : State) (a q : Nat) (g : Queue → Queue) : (s.modQueue a q g).pavs = s.pavs := rfl
@[simp] theorem State.modQueue_plots (s : State) (a q : Nat) (g : Queue → Queue) : (s.modQueue a q g).plots = s.plots := rfl
@[simp] theorem State.modQueue_segs (s : State) (a q : Nat) (g : Queue → Queue) : (s.modQueue a q g).segs = s.segs := rfl
@[simp] theorem State.modQueue_hbmStacks (s : State) (a q : Nat) (g : Queue → Queue) : (s.modQueue a q g).hbmStacks = s.hbmStacks := rfl
@[simp] theorem State.modQueue_hbm (s : State) (a q : Nat) (g : Queue → Queue) : (s.modQueue a q g).hbm = s.hbm := rfl
@[simp] theorem State.modQueue_links (s : State) (a q : Nat) (g : Queue → Queue) : (s.modQueue a q g).links = s.links := rfl
@[simp] theorem State.modQueue_rxs (s : State) (a q : Nat) (g : Queue → Queue) : (s.modQueue a q g).rxs = s.rxs := rfl
@[simp] theorem State.modQueue_hostPorts (s : State) (a q : Nat) (g : Queue → Queue) : (s.modQueue a q g).hostPorts = s.hostPorts := rfl
@[simp] theorem State.modQueue_srvPorts (s : State) (a q : Nat) (g : Queue → Queue) : (s.modQueue a q g).srvPorts = s.srvPorts := rfl
@[simp] theorem State.modQueue_lodge (s : State) (a q : Nat) (g : Queue → Queue) : (s.modQueue a q g).lodge = s.lodge := rfl
@[simp] theorem State.modQueue_ns (s : State) (a q : Nat) (g : Queue → Queue) : (s.modQueue a q g).ns = s.ns := rfl
@[simp] theorem State.modQueue_free (s : State) (a q : Nat) (g : Queue → Queue) : (s.modQueue a q g).free = s.free := rfl
@[simp] theorem State.modQueue_pending (s : State) (a q : Nat) (g : Queue → Queue) : (s.modQueue a q g).pending = s.pending := rfl
@[simp] theorem State.modQueue_out (s : State) (a q : Nat) (g : Queue → Queue) : (s.modQueue a q g).out = s.out := rfl
@[simp] theorem State.pav_modQueue (s : State) (a q : Nat) (g : Queue → Queue) (j : Nat) : (s.modQueue a q g).pav j = s.pav j := rfl
@[simp] theorem State.plot_modQueue (s : State) (a q : Nat) (g : Queue → Queue) (j : Nat) : (s.modQueue a q g).plot j = s.plot j := rfl
@[simp] theorem State.seg_modQueue (s : State) (a q : Nat) (g : Queue → Queue) (j : Nat) : (s.modQueue a q g).seg j = s.seg j := rfl
@[simp] theorem State.stack_modQueue (s : State) (a q : Nat) (g : Queue → Queue) (j : Nat) : (s.modQueue a q g).stack j = s.stack j := rfl
@[simp] theorem State.hostPort_modQueue (s : State) (a q : Nat) (g : Queue → Queue) (j : Nat) : (s.modQueue a q g).hostPort j = s.hostPort j := rfl
@[simp] theorem State.srv_modQueue (s : State) (a q : Nat) (g : Queue → Queue) (j : Nat) : (s.modQueue a q g).srv j = s.srv j := rfl
@[simp] theorem State.rx_modQueue (s : State) (a q : Nat) (g : Queue → Queue) (j : Receiver) : (s.modQueue a q g).rx j = s.rx j := rfl
@[simp] theorem State.link_modQueue (s : State) (a q : Nat) (g : Queue → Queue) (j : LinkId) : (s.modQueue a q g).link j = s.link j := rfl

@[simp] theorem State.modSeq_orderB (s : State) (p : Nat) (f : Seq → Seq) : (s.modSeq p f).orderB = s.orderB := rfl
@[simp] theorem State.modSeq_plots (s : State) (p : Nat) (f : Seq → Seq) : (s.modSeq p f).plots = s.plots := rfl
@[simp] theorem State.modSeq_segs (s : State) (p : Nat) (f : Seq → Seq) : (s.modSeq p f).segs = s.segs := rfl
@[simp] theorem State.modSeq_hbmStacks (s : State) (p : Nat) (f : Seq → Seq) : (s.modSeq p f).hbmStacks = s.hbmStacks := rfl
@[simp] theorem State.modSeq_hbm (s : State) (p : Nat) (f : Seq → Seq) : (s.modSeq p f).hbm = s.hbm := rfl
@[simp] theorem State.modSeq_links (s : State) (p : Nat) (f : Seq → Seq) : (s.modSeq p f).links = s.links := rfl
@[simp] theorem State.modSeq_rxs (s : State) (p : Nat) (f : Seq → Seq) : (s.modSeq p f).rxs = s.rxs := rfl
@[simp] theorem State.modSeq_allots (s : State) (p : Nat) (f : Seq → Seq) : (s.modSeq p f).allots = s.allots := rfl
@[simp] theorem State.modSeq_hostPorts (s : State) (p : Nat) (f : Seq → Seq) : (s.modSeq p f).hostPorts = s.hostPorts := rfl
@[simp] theorem State.modSeq_srvPorts (s : State) (p : Nat) (f : Seq → Seq) : (s.modSeq p f).srvPorts = s.srvPorts := rfl
@[simp] theorem State.modSeq_lodge (s : State) (p : Nat) (f : Seq → Seq) : (s.modSeq p f).lodge = s.lodge := rfl
@[simp] theorem State.modSeq_ns (s : State) (p : Nat) (f : Seq → Seq) : (s.modSeq p f).ns = s.ns := rfl
@[simp] theorem State.modSeq_free (s : State) (p : Nat) (f : Seq → Seq) : (s.modSeq p f).free = s.free := rfl
@[simp] theorem State.modSeq_pending (s : State) (p : Nat) (f : Seq → Seq) : (s.modSeq p f).pending = s.pending := rfl
@[simp] theorem State.modSeq_out (s : State) (p : Nat) (f : Seq → Seq) : (s.modSeq p f).out = s.out := rfl
@[simp] theorem State.plot_modSeq (s : State) (p : Nat) (f : Seq → Seq) (j : Nat) : (s.modSeq p f).plot j = s.plot j := rfl
@[simp] theorem State.seg_modSeq (s : State) (p : Nat) (f : Seq → Seq) (j : Nat) : (s.modSeq p f).seg j = s.seg j := rfl
@[simp] theorem State.stack_modSeq (s : State) (p : Nat) (f : Seq → Seq) (j : Nat) : (s.modSeq p f).stack j = s.stack j := rfl
@[simp] theorem State.allot_modSeq (s : State) (p : Nat) (f : Seq → Seq) (j : Nat) : (s.modSeq p f).allot j = s.allot j := rfl
@[simp] theorem State.hostPort_modSeq (s : State) (p : Nat) (f : Seq → Seq) (j : Nat) : (s.modSeq p f).hostPort j = s.hostPort j := rfl
@[simp] theorem State.srv_modSeq (s : State) (p : Nat) (f : Seq → Seq) (j : Nat) : (s.modSeq p f).srv j = s.srv j := rfl
@[simp] theorem State.rx_modSeq (s : State) (p : Nat) (f : Seq → Seq) (j : Receiver) : (s.modSeq p f).rx j = s.rx j := rfl
@[simp] theorem State.link_modSeq (s : State) (p : Nat) (f : Seq → Seq) (j : LinkId) : (s.modSeq p f).link j = s.link j := rfl

@[simp] theorem State.modME_orderB (s : State) (p : Nat) (f : ME → ME) : (s.modME p f).orderB = s.orderB := rfl
@[simp] theorem State.modME_plots (s : State) (p : Nat) (f : ME → ME) : (s.modME p f).plots = s.plots := rfl
@[simp] theorem State.modME_segs (s : State) (p : Nat) (f : ME → ME) : (s.modME p f).segs = s.segs := rfl
@[simp] theorem State.modME_hbmStacks (s : State) (p : Nat) (f : ME → ME) : (s.modME p f).hbmStacks = s.hbmStacks := rfl
@[simp] theorem State.modME_hbm (s : State) (p : Nat) (f : ME → ME) : (s.modME p f).hbm = s.hbm := rfl
@[simp] theorem State.modME_links (s : State) (p : Nat) (f : ME → ME) : (s.modME p f).links = s.links := rfl
@[simp] theorem State.modME_rxs (s : State) (p : Nat) (f : ME → ME) : (s.modME p f).rxs = s.rxs := rfl
@[simp] theorem State.modME_allots (s : State) (p : Nat) (f : ME → ME) : (s.modME p f).allots = s.allots := rfl
@[simp] theorem State.modME_hostPorts (s : State) (p : Nat) (f : ME → ME) : (s.modME p f).hostPorts = s.hostPorts := rfl
@[simp] theorem State.modME_srvPorts (s : State) (p : Nat) (f : ME → ME) : (s.modME p f).srvPorts = s.srvPorts := rfl
@[simp] theorem State.modME_lodge (s : State) (p : Nat) (f : ME → ME) : (s.modME p f).lodge = s.lodge := rfl
@[simp] theorem State.modME_ns (s : State) (p : Nat) (f : ME → ME) : (s.modME p f).ns = s.ns := rfl
@[simp] theorem State.modME_free (s : State) (p : Nat) (f : ME → ME) : (s.modME p f).free = s.free := rfl
@[simp] theorem State.modME_pending (s : State) (p : Nat) (f : ME → ME) : (s.modME p f).pending = s.pending := rfl
@[simp] theorem State.modME_out (s : State) (p : Nat) (f : ME → ME) : (s.modME p f).out = s.out := rfl
@[simp] theorem State.plot_modME (s : State) (p : Nat) (f : ME → ME) (j : Nat) : (s.modME p f).plot j = s.plot j := rfl
@[simp] theorem State.seg_modME (s : State) (p : Nat) (f : ME → ME) (j : Nat) : (s.modME p f).seg j = s.seg j := rfl
@[simp] theorem State.stack_modME (s : State) (p : Nat) (f : ME → ME) (j : Nat) : (s.modME p f).stack j = s.stack j := rfl
@[simp] theorem State.allot_modME (s : State) (p : Nat) (f : ME → ME) (j : Nat) : (s.modME p f).allot j = s.allot j := rfl
@[simp] theorem State.hostPort_modME (s : State) (p : Nat) (f : ME → ME) (j : Nat) : (s.modME p f).hostPort j = s.hostPort j := rfl
@[simp] theorem State.srv_modME (s : State) (p : Nat) (f : ME → ME) (j : Nat) : (s.modME p f).srv j = s.srv j := rfl
@[simp] theorem State.rx_modME (s : State) (p : Nat) (f : ME → ME) (j : Receiver) : (s.modME p f).rx j = s.rx j := rfl
@[simp] theorem State.link_modME (s : State) (p : Nat) (f : ME → ME) (j : LinkId) : (s.modME p f).link j = s.link j := rfl

@[simp] theorem State.modVE_orderB (s : State) (p : Nat) (f : VE → VE) : (s.modVE p f).orderB = s.orderB := rfl
@[simp] theorem State.modVE_plots (s : State) (p : Nat) (f : VE → VE) : (s.modVE p f).plots = s.plots := rfl
@[simp] theorem State.modVE_segs (s : State) (p : Nat) (f : VE → VE) : (s.modVE p f).segs = s.segs := rfl
@[simp] theorem State.modVE_hbmStacks (s : State) (p : Nat) (f : VE → VE) : (s.modVE p f).hbmStacks = s.hbmStacks := rfl
@[simp] theorem State.modVE_hbm (s : State) (p : Nat) (f : VE → VE) : (s.modVE p f).hbm = s.hbm := rfl
@[simp] theorem State.modVE_links (s : State) (p : Nat) (f : VE → VE) : (s.modVE p f).links = s.links := rfl
@[simp] theorem State.modVE_rxs (s : State) (p : Nat) (f : VE → VE) : (s.modVE p f).rxs = s.rxs := rfl
@[simp] theorem State.modVE_allots (s : State) (p : Nat) (f : VE → VE) : (s.modVE p f).allots = s.allots := rfl
@[simp] theorem State.modVE_hostPorts (s : State) (p : Nat) (f : VE → VE) : (s.modVE p f).hostPorts = s.hostPorts := rfl
@[simp] theorem State.modVE_srvPorts (s : State) (p : Nat) (f : VE → VE) : (s.modVE p f).srvPorts = s.srvPorts := rfl
@[simp] theorem State.modVE_lodge (s : State) (p : Nat) (f : VE → VE) : (s.modVE p f).lodge = s.lodge := rfl
@[simp] theorem State.modVE_ns (s : State) (p : Nat) (f : VE → VE) : (s.modVE p f).ns = s.ns := rfl
@[simp] theorem State.modVE_free (s : State) (p : Nat) (f : VE → VE) : (s.modVE p f).free = s.free := rfl
@[simp] theorem State.modVE_pending (s : State) (p : Nat) (f : VE → VE) : (s.modVE p f).pending = s.pending := rfl
@[simp] theorem State.modVE_out (s : State) (p : Nat) (f : VE → VE) : (s.modVE p f).out = s.out := rfl
@[simp] theorem State.plot_modVE (s : State) (p : Nat) (f : VE → VE) (j : Nat) : (s.modVE p f).plot j = s.plot j := rfl
@[simp] theorem State.seg_modVE (s : State) (p : Nat) (f : VE → VE) (j : Nat) : (s.modVE p f).seg j = s.seg j := rfl
@[simp] theorem State.stack_modVE (s : State) (p : Nat) (f : VE → VE) (j : Nat) : (s.modVE p f).stack j = s.stack j := rfl
@[simp] theorem State.allot_modVE (s : State) (p : Nat) (f : VE → VE) (j : Nat) : (s.modVE p f).allot j = s.allot j := rfl
@[simp] theorem State.hostPort_modVE (s : State) (p : Nat) (f : VE → VE) (j : Nat) : (s.modVE p f).hostPort j = s.hostPort j := rfl
@[simp] theorem State.srv_modVE (s : State) (p : Nat) (f : VE → VE) (j : Nat) : (s.modVE p f).srv j = s.srv j := rfl
@[simp] theorem State.rx_modVE (s : State) (p : Nat) (f : VE → VE) (j : Receiver) : (s.modVE p f).rx j = s.rx j := rfl
@[simp] theorem State.link_modVE (s : State) (p : Nat) (f : VE → VE) (j : LinkId) : (s.modVE p f).link j = s.link j := rfl

@[simp] theorem State.fn_modFn_same (s : State) (h f : Nat) (g : Fn → Fn) : (s.modFn h f g).fn h f = g (s.fn h f) := by
  simp [State.modFn, State.fn, HostPort.fn]

@[simp] theorem State.queue_modQueue_same (s : State) (a q : Nat) (g : Queue → Queue) :
    ((s.modQueue a q g).allot a).queue q = g ((s.allot a).queue q) := by
  simp [State.modQueue, Allot.queue]

@[simp] theorem State.pav_modSeq_same (s : State) (p : Nat) (f : Seq → Seq) :
    (s.modSeq p f).pav p = { s.pav p with seq := f (s.pav p).seq } := by simp [State.modSeq]

@[simp] theorem State.pav_modME_same (s : State) (p : Nat) (f : ME → ME) :
    (s.modME p f).pav p = { s.pav p with me := f (s.pav p).me } := by simp [State.modME]

@[simp] theorem State.pav_modVE_same (s : State) (p : Nat) (f : VE → VE) :
    (s.modVE p f).pav p = { s.pav p with ve := f (s.pav p).ve } := by simp [State.modVE]

@[simp] theorem State.pav_modSeq_other (s : State) (p i : Nat) (f : Seq → Seq) (h : i ≠ p) :
    (s.modSeq p f).pav i = s.pav i := by simp [State.modSeq, h]

@[simp] theorem State.pav_modME_other (s : State) (p i : Nat) (f : ME → ME) (h : i ≠ p) :
    (s.modME p f).pav i = s.pav i := by simp [State.modME, h]

@[simp] theorem State.pav_modVE_other (s : State) (p i : Nat) (f : VE → VE) (h : i ≠ p) :
    (s.modVE p f).pav i = s.pav i := by simp [State.modVE, h]

/-! ### What leaves, free values, the queue -/

@[simp] theorem State.emit_orderB (s : State) (x : Output) : (s.emit x).orderB = s.orderB := rfl
@[simp] theorem State.emit_pavs (s : State) (x : Output) : (s.emit x).pavs = s.pavs := rfl
@[simp] theorem State.emit_plots (s : State) (x : Output) : (s.emit x).plots = s.plots := rfl
@[simp] theorem State.emit_segs (s : State) (x : Output) : (s.emit x).segs = s.segs := rfl
@[simp] theorem State.emit_hbmStacks (s : State) (x : Output) : (s.emit x).hbmStacks = s.hbmStacks := rfl
@[simp] theorem State.emit_hbm (s : State) (x : Output) : (s.emit x).hbm = s.hbm := rfl
@[simp] theorem State.emit_links (s : State) (x : Output) : (s.emit x).links = s.links := rfl
@[simp] theorem State.emit_rxs (s : State) (x : Output) : (s.emit x).rxs = s.rxs := rfl
@[simp] theorem State.emit_allots (s : State) (x : Output) : (s.emit x).allots = s.allots := rfl
@[simp] theorem State.emit_hostPorts (s : State) (x : Output) : (s.emit x).hostPorts = s.hostPorts := rfl
@[simp] theorem State.emit_srvPorts (s : State) (x : Output) : (s.emit x).srvPorts = s.srvPorts := rfl
@[simp] theorem State.emit_lodge (s : State) (x : Output) : (s.emit x).lodge = s.lodge := rfl
@[simp] theorem State.emit_ns (s : State) (x : Output) : (s.emit x).ns = s.ns := rfl
@[simp] theorem State.emit_free (s : State) (x : Output) : (s.emit x).free = s.free := rfl
@[simp] theorem State.emit_pending (s : State) (x : Output) : (s.emit x).pending = s.pending := rfl
@[simp] theorem State.pav_emit (s : State) (x : Output) (j : Nat) : (s.emit x).pav j = s.pav j := rfl
@[simp] theorem State.plot_emit (s : State) (x : Output) (j : Nat) : (s.emit x).plot j = s.plot j := rfl
@[simp] theorem State.seg_emit (s : State) (x : Output) (j : Nat) : (s.emit x).seg j = s.seg j := rfl
@[simp] theorem State.stack_emit (s : State) (x : Output) (j : Nat) : (s.emit x).stack j = s.stack j := rfl
@[simp] theorem State.allot_emit (s : State) (x : Output) (j : Nat) : (s.emit x).allot j = s.allot j := rfl
@[simp] theorem State.hostPort_emit (s : State) (x : Output) (j : Nat) : (s.emit x).hostPort j = s.hostPort j := rfl
@[simp] theorem State.srv_emit (s : State) (x : Output) (j : Nat) : (s.emit x).srv j = s.srv j := rfl
@[simp] theorem State.rx_emit (s : State) (x : Output) (j : Receiver) : (s.emit x).rx j = s.rx j := rfl
@[simp] theorem State.link_emit (s : State) (x : Output) (j : LinkId) : (s.emit x).link j = s.link j := rfl

@[simp] theorem State.emits_orderB (s : State) (x : List Output) : (s.emits x).orderB = s.orderB := rfl
@[simp] theorem State.emits_pavs (s : State) (x : List Output) : (s.emits x).pavs = s.pavs := rfl
@[simp] theorem State.emits_plots (s : State) (x : List Output) : (s.emits x).plots = s.plots := rfl
@[simp] theorem State.emits_segs (s : State) (x : List Output) : (s.emits x).segs = s.segs := rfl
@[simp] theorem State.emits_hbmStacks (s : State) (x : List Output) : (s.emits x).hbmStacks = s.hbmStacks := rfl
@[simp] theorem State.emits_hbm (s : State) (x : List Output) : (s.emits x).hbm = s.hbm := rfl
@[simp] theorem State.emits_links (s : State) (x : List Output) : (s.emits x).links = s.links := rfl
@[simp] theorem State.emits_rxs (s : State) (x : List Output) : (s.emits x).rxs = s.rxs := rfl
@[simp] theorem State.emits_allots (s : State) (x : List Output) : (s.emits x).allots = s.allots := rfl
@[simp] theorem State.emits_hostPorts (s : State) (x : List Output) : (s.emits x).hostPorts = s.hostPorts := rfl
@[simp] theorem State.emits_srvPorts (s : State) (x : List Output) : (s.emits x).srvPorts = s.srvPorts := rfl
@[simp] theorem State.emits_lodge (s : State) (x : List Output) : (s.emits x).lodge = s.lodge := rfl
@[simp] theorem State.emits_ns (s : State) (x : List Output) : (s.emits x).ns = s.ns := rfl
@[simp] theorem State.emits_free (s : State) (x : List Output) : (s.emits x).free = s.free := rfl
@[simp] theorem State.emits_pending (s : State) (x : List Output) : (s.emits x).pending = s.pending := rfl
@[simp] theorem State.pav_emits (s : State) (x : List Output) (j : Nat) : (s.emits x).pav j = s.pav j := rfl
@[simp] theorem State.plot_emits (s : State) (x : List Output) (j : Nat) : (s.emits x).plot j = s.plot j := rfl
@[simp] theorem State.seg_emits (s : State) (x : List Output) (j : Nat) : (s.emits x).seg j = s.seg j := rfl
@[simp] theorem State.stack_emits (s : State) (x : List Output) (j : Nat) : (s.emits x).stack j = s.stack j := rfl
@[simp] theorem State.allot_emits (s : State) (x : List Output) (j : Nat) : (s.emits x).allot j = s.allot j := rfl
@[simp] theorem State.hostPort_emits (s : State) (x : List Output) (j : Nat) : (s.emits x).hostPort j = s.hostPort j := rfl
@[simp] theorem State.srv_emits (s : State) (x : List Output) (j : Nat) : (s.emits x).srv j = s.srv j := rfl
@[simp] theorem State.rx_emits (s : State) (x : List Output) (j : Receiver) : (s.emits x).rx j = s.rx j := rfl
@[simp] theorem State.link_emits (s : State) (x : List Output) (j : LinkId) : (s.emits x).link j = s.link j := rfl

@[simp] theorem State.push_orderB (s : State) (c : Instr) : (s.push c).orderB = s.orderB := rfl
@[simp] theorem State.push_pavs (s : State) (c : Instr) : (s.push c).pavs = s.pavs := rfl
@[simp] theorem State.push_plots (s : State) (c : Instr) : (s.push c).plots = s.plots := rfl
@[simp] theorem State.push_segs (s : State) (c : Instr) : (s.push c).segs = s.segs := rfl
@[simp] theorem State.push_hbmStacks (s : State) (c : Instr) : (s.push c).hbmStacks = s.hbmStacks := rfl
@[simp] theorem State.push_hbm (s : State) (c : Instr) : (s.push c).hbm = s.hbm := rfl
@[simp] theorem State.push_links (s : State) (c : Instr) : (s.push c).links = s.links := rfl
@[simp] theorem State.push_rxs (s : State) (c : Instr) : (s.push c).rxs = s.rxs := rfl
@[simp] theorem State.push_allots (s : State) (c : Instr) : (s.push c).allots = s.allots := rfl
@[simp] theorem State.push_hostPorts (s : State) (c : Instr) : (s.push c).hostPorts = s.hostPorts := rfl
@[simp] theorem State.push_srvPorts (s : State) (c : Instr) : (s.push c).srvPorts = s.srvPorts := rfl
@[simp] theorem State.push_lodge (s : State) (c : Instr) : (s.push c).lodge = s.lodge := rfl
@[simp] theorem State.push_ns (s : State) (c : Instr) : (s.push c).ns = s.ns := rfl
@[simp] theorem State.push_free (s : State) (c : Instr) : (s.push c).free = s.free := rfl
@[simp] theorem State.push_out (s : State) (c : Instr) : (s.push c).out = s.out := rfl
@[simp] theorem State.pav_push (s : State) (c : Instr) (j : Nat) : (s.push c).pav j = s.pav j := rfl
@[simp] theorem State.plot_push (s : State) (c : Instr) (j : Nat) : (s.push c).plot j = s.plot j := rfl
@[simp] theorem State.seg_push (s : State) (c : Instr) (j : Nat) : (s.push c).seg j = s.seg j := rfl
@[simp] theorem State.stack_push (s : State) (c : Instr) (j : Nat) : (s.push c).stack j = s.stack j := rfl
@[simp] theorem State.allot_push (s : State) (c : Instr) (j : Nat) : (s.push c).allot j = s.allot j := rfl
@[simp] theorem State.hostPort_push (s : State) (c : Instr) (j : Nat) : (s.push c).hostPort j = s.hostPort j := rfl
@[simp] theorem State.srv_push (s : State) (c : Instr) (j : Nat) : (s.push c).srv j = s.srv j := rfl
@[simp] theorem State.rx_push (s : State) (c : Instr) (j : Receiver) : (s.push c).rx j = s.rx j := rfl
@[simp] theorem State.link_push (s : State) (c : Instr) (j : LinkId) : (s.push c).link j = s.link j := rfl

@[simp] theorem State.fresh_orderB (s : State) : s.fresh.2.orderB = s.orderB := rfl
@[simp] theorem State.fresh_pavs (s : State) : s.fresh.2.pavs = s.pavs := rfl
@[simp] theorem State.fresh_plots (s : State) : s.fresh.2.plots = s.plots := rfl
@[simp] theorem State.fresh_segs (s : State) : s.fresh.2.segs = s.segs := rfl
@[simp] theorem State.fresh_hbmStacks (s : State) : s.fresh.2.hbmStacks = s.hbmStacks := rfl
@[simp] theorem State.fresh_hbm (s : State) : s.fresh.2.hbm = s.hbm := rfl
@[simp] theorem State.fresh_links (s : State) : s.fresh.2.links = s.links := rfl
@[simp] theorem State.fresh_rxs (s : State) : s.fresh.2.rxs = s.rxs := rfl
@[simp] theorem State.fresh_allots (s : State) : s.fresh.2.allots = s.allots := rfl
@[simp] theorem State.fresh_hostPorts (s : State) : s.fresh.2.hostPorts = s.hostPorts := rfl
@[simp] theorem State.fresh_srvPorts (s : State) : s.fresh.2.srvPorts = s.srvPorts := rfl
@[simp] theorem State.fresh_lodge (s : State) : s.fresh.2.lodge = s.lodge := rfl
@[simp] theorem State.fresh_ns (s : State) : s.fresh.2.ns = s.ns := rfl
@[simp] theorem State.fresh_pending (s : State) : s.fresh.2.pending = s.pending := rfl
@[simp] theorem State.fresh_out (s : State) : s.fresh.2.out = s.out := rfl
@[simp] theorem State.pav_fresh (s : State) (j : Nat) : s.fresh.2.pav j = s.pav j := rfl
@[simp] theorem State.plot_fresh (s : State) (j : Nat) : s.fresh.2.plot j = s.plot j := rfl
@[simp] theorem State.seg_fresh (s : State) (j : Nat) : s.fresh.2.seg j = s.seg j := rfl
@[simp] theorem State.stack_fresh (s : State) (j : Nat) : s.fresh.2.stack j = s.stack j := rfl
@[simp] theorem State.allot_fresh (s : State) (j : Nat) : s.fresh.2.allot j = s.allot j := rfl
@[simp] theorem State.hostPort_fresh (s : State) (j : Nat) : s.fresh.2.hostPort j = s.hostPort j := rfl
@[simp] theorem State.srv_fresh (s : State) (j : Nat) : s.fresh.2.srv j = s.srv j := rfl
@[simp] theorem State.rx_fresh (s : State) (j : Receiver) : s.fresh.2.rx j = s.rx j := rfl
@[simp] theorem State.link_fresh (s : State) (j : LinkId) : s.fresh.2.link j = s.link j := rfl

@[simp] theorem State.out_emit (s : State) (x : Output) : (s.emit x).out = s.out ++ [x] := rfl

@[simp] theorem State.out_emits (s : State) (x : List Output) : (s.emits x).out = s.out ++ x := rfl

@[simp] theorem State.pending_push (s : State) (c : Instr) : (s.push c).pending = c :: s.pending := rfl

@[simp] theorem State.free_fresh (s : State) : s.fresh.2.free = s.free + 1 := rfl

@[simp] theorem State.fst_fresh (s : State) : s.fresh.1 = s.free := rfl

/-! ### A unit reads the same where its table is the same -/

theorem State.pav_congr (s t : State) (p : Nat) (h : t.pavs = s.pavs) (ho : t.orderB = s.orderB) :
    t.pav p = s.pav p := by
  simp [State.pav, h, ho]

theorem State.plot_congr (s t : State) (p : Nat) (h : t.plots = s.plots) : t.plot p = s.plot p := by
  simp [State.plot, h]

theorem State.seg_congr (s t : State) (n : Nat) (h : t.segs = s.segs) : t.seg n = s.seg n := by
  simp [State.seg, h]

theorem State.stack_congr (s t : State) (k : Nat) (h : t.hbmStacks = s.hbmStacks) : t.stack k = s.stack k := by
  simp [State.stack, h]

theorem State.allot_congr (s t : State) (a : Nat) (h : t.allots = s.allots) : t.allot a = s.allot a := by
  simp [State.allot, h]

theorem State.hostPort_congr (s t : State) (k : Nat) (h : t.hostPorts = s.hostPorts) : t.hostPort k = s.hostPort k := by
  simp [State.hostPort, h]

theorem State.srv_congr (s t : State) (p : Nat) (h : t.srvPorts = s.srvPorts) (hl : t.lodge.serial = s.lodge.serial) :
    t.srv p = s.srv p := by
  simp [State.srv, h, hl]

end Sys2Proof.Machine
end

