-- ==== Sys2Proof/Laws/Grows.lean ====
section
/-! SUPPORT. What every shared operation leaves behind it: the queue is the same, what has left the module stays sent, the
draw counter does not fall, and HBM keeps its canonical form. `Grows z s` says so of a state s that operations have reached
from z; one lemma per operation, in the files named after it, says that the operation keeps it. -/

namespace Sys2Proof.Machine

/-- The state s may have come from z by operations of the module. -/
structure Grows (z s : State) : Prop where
  pending : s.pending = z.pending
  out : ∃ l, s.out = z.out ++ l
  free : z.free ≤ s.free
  hbm : z.hbm.wf = true → s.hbm.wf = true

/-- Every next state that a meaning answers may have come from z. -/
structure GrowsR (z : State) (r : Res) : Prop where
  of_next : ∀ t, r = .next t → Grows z t

theorem Grows.refl (z : State) : Grows z z := ⟨rfl, ⟨[], by simp⟩, Nat.le_refl _, id⟩

theorem Grows.trans {z s t : State} (h : Grows z s) (k : Grows s t) : Grows z t := by
  obtain ⟨a, ha⟩ := h.out
  obtain ⟨b, hb⟩ := k.out
  exact ⟨k.pending.trans h.pending, ⟨a ++ b, by rw [hb, ha, List.append_assoc]⟩, Nat.le_trans h.free k.free,
    fun w => k.hbm (h.hbm w)⟩

/-- An update of fields that `Grows` does not mention. -/
theorem Grows.same {z s t : State} (h : Grows z s) (hp : t.pending = s.pending) (ho : t.out = s.out)
    (hf : t.free = s.free) (hm : t.hbm = s.hbm) : Grows z t :=
  h.trans ⟨hp, ⟨[], by simp [ho]⟩, by omega, by rw [hm]; exact id⟩

/-- A new content of HBM in canonical form. -/
theorem Grows.hbmSet {z s : State} (x : Store) (h : Grows z s) (hx : s.hbm.wf = true → x.wf = true) :
    Grows z { s with hbm := x } :=
  h.trans ⟨rfl, ⟨[], by simp⟩, Nat.le_refl _, hx⟩

/-- Draws of n free values at once. -/
theorem Grows.freeAdd {z s : State} (n : Nat) (h : Grows z s) : Grows z { s with free := s.free + n } :=
  h.trans ⟨rfl, ⟨[], by simp⟩, Nat.le_add_right _ _, id⟩

/-- New contents of one field that `Grows` does not mention. -/
theorem Grows.linksSet {z s : State} (x : List (LinkId × Link)) (h : Grows z s) : Grows z { s with links := x } :=
  h.same rfl rfl rfl rfl

theorem Grows.rxsSet {z s : State} (x : List (Receiver × Rx)) (h : Grows z s) : Grows z { s with rxs := x } :=
  h.same rfl rfl rfl rfl

theorem Grows.pavsSet {z s : State} (x : Tab Pav) (h : Grows z s) : Grows z { s with pavs := x } :=
  h.same rfl rfl rfl rfl

theorem Grows.plotsSet {z s : State} (x : Tab Plot) (h : Grows z s) : Grows z { s with plots := x } :=
  h.same rfl rfl rfl rfl

theorem Grows.allotsSet {z s : State} (x : Tab Allot) (h : Grows z s) : Grows z { s with allots := x } :=
  h.same rfl rfl rfl rfl

theorem Grows.srvPortsSet {z s : State} (x : Tab SrvPort) (h : Grows z s) : Grows z { s with srvPorts := x } :=
  h.same rfl rfl rfl rfl

theorem Grows.nsSet {z s : State} (x : Nat) (h : Grows z s) : Grows z { s with ns := x } :=
  h.same rfl rfl rfl rfl

theorem Grows.ite {z s t : State} (c : Prop) [Decidable c] (h : Grows z s) (k : Grows z t) :
    Grows z (if c then s else t) := by
  split <;> assumption

theorem Grows.ite2 {α : Type} {z : State} {a b : α × State} (c : Prop) [Decidable c] (h : Grows z a.2) (k : Grows z b.2) :
    Grows z (if c then a else b).2 := by
  split <;> assumption

theorem Grows.ite3 {α β : Type} {z : State} {a b : α × β × State} (c : Prop) [Decidable c] (h : Grows z a.2.2)
    (k : Grows z b.2.2) : Grows z (if c then a else b).2.2 := by
  split <;> assumption

theorem Grows.getD {z s : State} (o : Option State) (h : ∀ t, o = some t → Grows z t) (hs : Grows z s) :
    Grows z (o.getD s) := by
  cases o with
  | none => exact hs
  | some t => exact h t rfl

theorem GrowsR.next {z s : State} (h : Grows z s) : GrowsR z (.next s) :=
  ⟨fun _ e => by cases e; exact h⟩

theorem GrowsR.ite {z : State} {a b : Res} (c : Prop) [Decidable c] (h : GrowsR z a) (k : GrowsR z b) :
    GrowsR z (if c then a else b) := by
  split <;> assumption

theorem Grows.foldl {α : Type} {z : State} (f : State → α → State) (l : List α)
    (hf : ∀ t a, Grows z t → Grows z (f t a)) (s : State) (hs : Grows z s) : Grows z (l.foldl f s) := by
  induction l generalizing s with
  | nil => exact hs
  | cons a l ih => exact ih _ (hf s a hs)

/-- The same for a fold whose accumulator carries the state last, behind one, two or three other values. -/
theorem Grows.foldlBy {α σ : Type} {z : State} (π : σ → State) (f : σ → α → σ) (l : List α)
    (hf : ∀ t a, Grows z (π t) → Grows z (π (f t a))) (s : σ) (hs : Grows z (π s)) : Grows z (π (l.foldl f s)) := by
  induction l generalizing s with
  | nil => exact hs
  | cons a l ih => exact ih _ (hf s a hs)

theorem Grows.foldl2 {α β : Type} {z : State} (f : β × State → α → β × State) (l : List α)
    (hf : ∀ t a, Grows z t.2 → Grows z (f t a).2) (s : β × State) (hs : Grows z s.2) : Grows z (l.foldl f s).2 :=
  Grows.foldlBy (·.2) f l hf s hs

theorem Grows.foldl3 {α β γ : Type} {z : State} (f : β × γ × State → α → β × γ × State) (l : List α)
    (hf : ∀ t a, Grows z t.2.2 → Grows z (f t a).2.2) (s : β × γ × State) (hs : Grows z s.2.2) :
    Grows z (l.foldl f s).2.2 :=
  Grows.foldlBy (·.2.2) f l hf s hs

theorem Grows.foldl4 {α β γ δ : Type} {z : State} (f : β × γ × δ × State → α → β × γ × δ × State) (l : List α)
    (hf : ∀ t a, Grows z t.2.2.2 → Grows z (f t a).2.2.2) (s : β × γ × δ × State) (hs : Grows z s.2.2.2) :
    Grows z (l.foldl f s).2.2.2 :=
  Grows.foldlBy (·.2.2.2) f l hf s hs

theorem State.each_grows {α : Type} {z : State} (s : State) (l : List α) (f : State → α → State) (hs : Grows z s)
    (hf : ∀ t a, Grows z t → Grows z (f t a)) : Grows z (s.each l f) := Grows.foldl f l hf s hs

theorem State.setPav_grows {z : State} (s : State) (p : Nat) (x : Pav) (hs : Grows z s) : Grows z (s.setPav p x) :=
  hs.same rfl rfl rfl rfl

theorem State.setPlot_grows {z : State} (s : State) (p : Nat) (x : Plot) (hs : Grows z s) : Grows z (s.setPlot p x) :=
  hs.same rfl rfl rfl rfl

theorem State.setSeg_grows {z : State} (s : State) (n : Nat) (x : Seg) (hs : Grows z s) : Grows z (s.setSeg n x) :=
  hs.same rfl rfl rfl rfl

theorem State.setStack_grows {z : State} (s : State) (k : Nat) (x : Stack) (hs : Grows z s) : Grows z (s.setStack k x) :=
  hs.same rfl rfl rfl rfl

theorem State.setAllot_grows {z : State} (s : State) (a : Nat) (x : Allot) (hs : Grows z s) : Grows z (s.setAllot a x) :=
  hs.same rfl rfl rfl rfl

theorem State.setHost_grows {z : State} (s : State) (k : Nat) (x : HostPort) (hs : Grows z s) : Grows z (s.setHost k x) :=
  hs.same rfl rfl rfl rfl

theorem State.setSrv_grows {z : State} (s : State) (p : Nat) (x : SrvPort) (hs : Grows z s) : Grows z (s.setSrv p x) :=
  hs.same rfl rfl rfl rfl

theorem State.setRx_grows {z : State} (s : State) (r : Receiver) (x : Rx) (hs : Grows z s) : Grows z (s.setRx r x) :=
  hs.same rfl rfl rfl rfl

theorem State.setLink_grows {z : State} (s : State) (l : LinkId) (x : Link) (hs : Grows z s) : Grows z (s.setLink l x) :=
  hs.same rfl rfl rfl rfl

theorem State.setLodge_grows {z : State} (s : State) (x : Lodge) (hs : Grows z s) : Grows z (s.setLodge x) :=
  hs.same rfl rfl rfl rfl

theorem State.modPav_grows {z : State} (s : State) (p : Nat) (f : Pav → Pav) (hs : Grows z s) : Grows z (s.modPav p f) :=
  hs.same rfl rfl rfl rfl

theorem State.modPlot_grows {z : State} (s : State) (p : Nat) (f : Plot → Plot) (hs : Grows z s) : Grows z (s.modPlot p f) :=
  hs.same rfl rfl rfl rfl

theorem State.modSeg_grows {z : State} (s : State) (n : Nat) (f : Seg → Seg) (hs : Grows z s) : Grows z (s.modSeg n f) :=
  hs.same rfl rfl rfl rfl

theorem State.modStack_grows {z : State} (s : State) (k : Nat) (f : Stack → Stack) (hs : Grows z s) : Grows z (s.modStack k f) :=
  hs.same rfl rfl rfl rfl

theorem State.modAllot_grows {z : State} (s : State) (a : Nat) (f : Allot → Allot) (hs : Grows z s) : Grows z (s.modAllot a f) :=
  hs.same rfl rfl rfl rfl

theorem State.modHost_grows {z : State} (s : State) (k : Nat) (f : HostPort → HostPort) (hs : Grows z s) : Grows z (s.modHost k f) :=
  hs.same rfl rfl rfl rfl

theorem State.modSrv_grows {z : State} (s : State) (p : Nat) (f : SrvPort → SrvPort) (hs : Grows z s) : Grows z (s.modSrv p f) :=
  hs.same rfl rfl rfl rfl

theorem State.modRx_grows {z : State} (s : State) (r : Receiver) (f : Rx → Rx) (hs : Grows z s) : Grows z (s.modRx r f) :=
  hs.same rfl rfl rfl rfl

theorem State.modLink_grows {z : State} (s : State) (l : LinkId) (f : Link → Link) (hs : Grows z s) : Grows z (s.modLink l f) :=
  hs.same rfl rfl rfl rfl

theorem State.modLodge_grows {z : State} (s : State) (f : Lodge → Lodge) (hs : Grows z s) : Grows z (s.modLodge f) :=
  hs.same rfl rfl rfl rfl

theorem State.modFn_grows {z : State} (s : State) (h f : Nat) (g : Fn → Fn) (hs : Grows z s) : Grows z (s.modFn h f g) :=
  hs.same rfl rfl rfl rfl

theorem State.modQueue_grows {z : State} (s : State) (a q : Nat) (g : Queue → Queue) (hs : Grows z s) : Grows z (s.modQueue a q g) :=
  hs.same rfl rfl rfl rfl

theorem State.modSeq_grows {z : State} (s : State) (p : Nat) (f : Seq → Seq) (hs : Grows z s) : Grows z (s.modSeq p f) :=
  hs.same rfl rfl rfl rfl

theorem State.modME_grows {z : State} (s : State) (p : Nat) (f : ME → ME) (hs : Grows z s) : Grows z (s.modME p f) :=
  hs.same rfl rfl rfl rfl

theorem State.modVE_grows {z : State} (s : State) (p : Nat) (f : VE → VE) (hs : Grows z s) : Grows z (s.modVE p f) :=
  hs.same rfl rfl rfl rfl

theorem State.emit_grows {z : State} (s : State) (x : Output) (hs : Grows z s) : Grows z (s.emit x) :=
  hs.trans ⟨rfl, ⟨[x], rfl⟩, Nat.le_refl _, id⟩

theorem State.emits_grows {z : State} (s : State) (x : List Output) (hs : Grows z s) : Grows z (s.emits x) :=
  hs.trans ⟨rfl, ⟨x, rfl⟩, Nat.le_refl _, id⟩

theorem State.fresh_grows {z : State} (s : State) (hs : Grows z s) : Grows z s.fresh.2 :=
  hs.trans ⟨rfl, ⟨[], by simp⟩, Nat.le_succ _, id⟩

theorem onlyIf_grows {z : State} (c : Bool) (s t : State) (hs : Grows z s) (ht : Grows z t) :
    GrowsR z (onlyIf c s t) := .next (by split <;> assumption)

theorem wfOr_grows {z : State} (c : Bool) (s : State) (r : Res) (hs : Grows z s) (hr : GrowsR z r) :
    GrowsR z (wfOr c s r) := by
  unfold wfOr
  split
  · exact hr
  · exact .next hs

end Sys2Proof.Machine
end

