-- ==== Sys2Proof/Laws/GrowsOps.lean ====
section
/-! SUPPORT. The operations of Machine/Ops.lean keep `Grows` (Laws/Grows.lean). -/

namespace Sys2Proof.Machine

theorem State.cellDead_grows {z : State} (s : State) (p : Nat) (k : Nat) (rdead : Bool) (hs : Grows z s) :
    Grows z (State.cellDead s p k rdead) := by
  unfold State.cellDead
  repeat' first
    | with_reducible assumption
    | intro _
    | with_reducible apply State.modPav_grows
    | with_reducible apply State.modPlot_grows
    | with_reducible apply Grows.foldl
    | with_reducible apply Grows.ite
    | dsimp only

theorem State.logRecord_grows {z : State} (s : State) (r : ErrRec) (hs : Grows z s) :
    Grows z (State.logRecord s r) := by
  unfold State.logRecord
  repeat' first
    | with_reducible assumption
    | intro _
    | with_reducible apply State.modAllot_grows
    | with_reducible apply State.modLodge_grows
    | with_reducible apply Grows.ite
    | dsimp only

theorem State.record_grows {z : State} (s : State) (r : ErrRec) (hs : Grows z s) :
    Grows z (State.record s r) := by
  unfold State.record
  repeat' first
    | with_reducible assumption
    | intro _
    | with_reducible apply State.modPlot_grows
    | with_reducible apply State.modSeg_grows
    | with_reducible apply State.logRecord_grows
    | with_reducible apply Grows.ite
    | dsimp only
    | split

theorem State.ringOut_grows {z : State} (s : State) (f : HFrame) (hs : Grows z s) :
    Grows z (State.ringOut s f) := by
  unfold State.ringOut
  repeat' first
    | with_reducible assumption
    | intro _
    | with_reducible apply State.emits_grows
    | with_reducible apply Grows.ite
    | dsimp only

theorem State.queueEvent_grows {z : State} (s : State) (e : Event) (a : Nat) (hs : Grows z s) :
    Grows z (State.queueEvent s e a) := by
  unfold State.queueEvent
  repeat' first
    | with_reducible assumption
    | intro _
    | with_reducible apply State.modAllot_grows
    | with_reducible apply State.modLodge_grows
    | with_reducible apply Grows.ite
    | dsimp only

theorem State.event_grows {z : State} (s : State) (code : Nat) (value : Nat) (index : Nat) (sub : Nat) (allot : Nat) (hs : Grows z s) :
    Grows z (State.event s code value index sub allot) := by
  unfold State.event
  repeat' first
    | with_reducible assumption
    | intro _
    | with_reducible apply State.ringOut_grows
    | with_reducible apply State.modLodge_grows
    | with_reducible apply State.each_grows
    | with_reducible apply State.queueEvent_grows
    | with_reducible apply Grows.ite
    | dsimp only

end Sys2Proof.Machine
end

