-- ==== Sys2Proof/Laws/GrowsOperands.lean ====
section
/-! SUPPORT. The operations of Machine/Operands.lean keep `Grows` (Laws/Grows.lean). -/

namespace Sys2Proof.Machine

theorem State.gardenSeen_grows {z : State} (s : State) (p : Nat) (row : Nat) (k : Seen) (merge : Bool) (hs : Grows z s) :
    Grows z (State.gardenSeen s p row k merge) := by
  unfold State.gardenSeen
  repeat' first
    | with_reducible assumption
    | intro _
    | with_reducible apply State.modPav_grows
    | with_reducible apply State.record_grows
    | with_reducible apply Grows.ite
    | dsimp only
    | split

theorem State.gardenTake_grows {z : State} (s : State) (p : Nat) (row : Nat) (merge : Bool) (hs : Grows z s) :
    Grows z (State.gardenTake s p row merge).2 := by
  unfold State.gardenTake
  repeat' first
    | with_reducible assumption
    | intro _
    | with_reducible apply State.fresh_grows
    | with_reducible apply State.gardenSeen_grows
    | with_reducible apply Grows.ite
    | dsimp only

theorem State.gardenRead_grows {z : State} (s : State) (p : Nat) (row : Nat) (hs : Grows z s) :
    Grows z (State.gardenRead s p row).2 := by
  unfold State.gardenRead
  repeat' first
    | with_reducible assumption
    | intro _
    | with_reducible apply State.gardenTake_grows
    | dsimp only

theorem State.stageRead_grows {z : State} (s : State) (p : Nat) (row : Nat) (hs : Grows z s) :
    Grows z (State.stageRead s p row).2 := by
  unfold State.stageRead
  repeat' first
    | with_reducible assumption
    | intro _
    | with_reducible apply State.fresh_grows
    | with_reducible apply State.modPav_grows
    | with_reducible apply State.record_grows
    | with_reducible apply Grows.ite
    | dsimp only
    | split

theorem State.rowRead_grows {z : State} (s : State) (p : Nat) (stage : Bool) (row : Nat) (hs : Grows z s) :
    Grows z (State.rowRead s p stage row).2 := by
  unfold State.rowRead
  repeat' first
    | with_reducible assumption
    | intro _
    | with_reducible apply State.stageRead_grows
    | with_reducible apply State.gardenRead_grows
    | with_reducible apply Grows.ite
    | with_reducible apply Grows.ite2
    | with_reducible apply Grows.ite3
    | dsimp only
    | split

theorem State.rowsRead_grows {z : State} (s : State) (p : Nat) (stage : Bool) (row : Nat) (x4 : Nat) (hs : Grows z s) :
    Grows z (State.rowsRead s p stage row x4).2 := by
  induction x4 generalizing s p stage row with
  | zero =>
    simp only [State.rowsRead]
    assumption
  | succ n ih =>
    simp only [State.rowsRead]
    repeat' first
      | with_reducible assumption
      | with_reducible apply ih
      | intro _
      | with_reducible apply State.rowRead_grows
      | dsimp only

theorem State.keepRow_grows {z : State} (s : State) (p : Nat) (stage : Bool) (iv : Nat) (row : Nat) (hs : Grows z s) :
    Grows z (State.keepRow s p stage iv row) := by
  unfold State.keepRow
  repeat' first
    | with_reducible assumption
    | intro _
    | with_reducible apply State.modPav_grows
    | with_reducible apply State.fresh_grows
    | with_reducible apply Grows.ite
    | dsimp only

theorem State.rowPut_grows {z : State} (s : State) (p : Nat) (stage : Bool) (iv : Nat) (row : Nat) (d : List Byte) (poison : Bool) (hs : Grows z s) :
    Grows z (State.rowPut s p stage iv row d poison) := by
  unfold State.rowPut
  repeat' first
    | with_reducible assumption
    | intro _
    | with_reducible apply State.keepRow_grows
    | with_reducible apply State.modPav_grows
    | with_reducible apply Grows.ite
    | dsimp only

theorem State.touchWatch_grows {z : State} (s : State) (p : Nat) (row : Nat) (hs : Grows z s) :
    Grows z (State.touchWatch s p row) := by
  unfold State.touchWatch
  repeat' first
    | with_reducible assumption
    | intro _
    | with_reducible apply State.modPav_grows
    | with_reducible apply Grows.ite
    | dsimp only
    | split

theorem State.writeRows_grows {z : State} (s : State) (p : Nat) (stage : Bool) (w : Writer) (rows : List (Nat × List Byte × Bool)) (hs : Grows z s) :
    Grows z (State.writeRows s p stage w rows) := by
  unfold State.writeRows
  repeat' first
    | with_reducible assumption
    | intro _
    | with_reducible apply State.each_grows
    | with_reducible apply State.rowPut_grows
    | with_reducible apply State.touchWatch_grows
    | with_reducible apply State.modSeq_grows
    | with_reducible apply Grows.foldl
    | with_reducible apply Grows.ite
    | dsimp only
    | split

theorem State.mergeRow_grows {z : State} (s : State) (p : Nat) (stage : Bool) (row : Nat) (o : Nat) (d : List Byte) (poison : Bool) (hs : Grows z s) :
    Grows z (State.mergeRow s p stage row o d poison).2 := by
  unfold State.mergeRow
  repeat' first
    | with_reducible assumption
    | intro _
    | with_reducible apply State.stageRead_grows
    | with_reducible apply State.gardenTake_grows
    | with_reducible apply Grows.ite
    | with_reducible apply Grows.ite2
    | with_reducible apply Grows.ite3
    | dsimp only
    | split

theorem State.localPut_grows {z : State} (s : State) (p : Nat) (stage : Bool) (w : Writer) (a : Nat) (d : List Byte) (poison : Bool) (x7 : Nat) (hs : Grows z s) :
    Grows z (State.localPut s p stage w a d poison x7) := by
  induction x7 generalizing s p stage w a d poison with
  | zero =>
    simp only [State.localPut]
    assumption
  | succ n ih =>
    simp only [State.localPut]
    repeat' first
      | with_reducible assumption
      | with_reducible apply ih
      | intro _
      | with_reducible apply State.writeRows_grows
      | with_reducible apply State.mergeRow_grows
      | with_reducible apply Grows.ite
      | dsimp only

theorem State.localGet_grows {z : State} (s : State) (p : Nat) (stage : Bool) (a : Nat) (len : Nat) (hs : Grows z s) :
    Grows z (State.localGet s p stage a len).2 := by
  unfold State.localGet
  repeat' first
    | with_reducible assumption
    | intro _
    | with_reducible apply State.rowsRead_grows
    | dsimp only

theorem State.failStack_grows {z : State} (s : State) (k : Nat) (hs : Grows z s) :
    Grows z (State.failStack s k) := by
  unfold State.failStack
  repeat' first
    | with_reducible assumption
    | intro _
    | with_reducible apply State.modStack_grows
    | with_reducible apply State.record_grows
    | with_reducible apply State.each_grows
    | with_reducible apply State.event_grows
    | with_reducible apply Grows.ite
    | dsimp only

theorem State.failPc_grows {z : State} (s : State) (k : Nat) (pc : Nat) (hs : Grows z s) :
    Grows z (State.failPc s k pc) := by
  unfold State.failPc
  repeat' first
    | with_reducible assumption
    | intro _
    | with_reducible apply State.modStack_grows
    | with_reducible apply State.record_grows
    | with_reducible apply State.failStack_grows
    | with_reducible apply Grows.ite
    | dsimp only

theorem State.repairRow_grows {z : State} (s : State) (k : Nat) (row : Nat) (hs : Grows z s) :
    Grows z (State.repairRow s k row) := by
  unfold State.repairRow
  repeat' first
    | with_reducible assumption
    | intro _
    | with_reducible apply State.modStack_grows
    | with_reducible apply Grows.ite
    | dsimp only

theorem State.lineSeen_grows {z : State} (s : State) (line : Nat) (r : Seen × List Byte) (hs : Grows z s) :
    Grows z (State.lineSeen s line r) := by
  unfold State.lineSeen
  repeat' first
    | with_reducible assumption
    | intro _
    | with_reducible apply State.repairRow_grows
    | with_reducible apply State.modStack_grows
    | with_reducible apply State.record_grows
    | with_reducible apply State.failPc_grows
    | with_reducible apply Store.wf_putFixed
    | with_reducible apply Store.wf_poisonRow
    | with_reducible apply Grows.ite
    | with_reducible apply Grows.ite2
    | with_reducible apply Grows.ite3
    | dsimp only
    | split
    | with_reducible apply Grows.hbmSet

theorem State.lineRead_grows {z : State} (s : State) (line : Nat) (hs : Grows z s) :
    Grows z (State.lineRead s line).2 := by
  unfold State.lineRead
  repeat' first
    | with_reducible assumption
    | intro _
    | with_reducible apply State.fresh_grows
    | with_reducible apply State.lineSeen_grows
    | with_reducible apply Grows.ite
    | with_reducible apply Grows.ite2
    | with_reducible apply Grows.ite3
    | dsimp only
    | split

theorem State.linePut_grows {z : State} (s : State) (line : Nat) (d : List Byte) (poison : Bool) (hs : Grows z s) :
    Grows z (State.linePut s line d poison) := by
  unfold State.linePut
  repeat' first
    | with_reducible assumption
    | intro _
    | with_reducible apply Store.wf_putRow
    | with_reducible apply Grows.ite
    | dsimp only
    | with_reducible apply Grows.hbmSet

theorem State.linesRead_grows {z : State} (s : State) (line : Nat) (x2 : Nat) (hs : Grows z s) :
    Grows z (State.linesRead s line x2).2 := by
  induction x2 generalizing s line with
  | zero =>
    simp only [State.linesRead]
    assumption
  | succ n ih =>
    simp only [State.linesRead]
    repeat' first
      | with_reducible assumption
      | with_reducible apply ih
      | intro _
      | with_reducible apply State.lineRead_grows
      | dsimp only

theorem State.hbmGet_grows {z : State} (s : State) (a : Nat) (len : Nat) (hs : Grows z s) :
    Grows z (State.hbmGet s a len).2 := by
  unfold State.hbmGet
  repeat' first
    | with_reducible assumption
    | intro _
    | with_reducible apply State.linesRead_grows
    | dsimp only

theorem State.hbmPut_grows {z : State} (s : State) (a : Nat) (d : List Byte) (poison : Bool) (x4 : Nat) (hs : Grows z s) :
    Grows z (State.hbmPut s a d poison x4) := by
  induction x4 generalizing s a d poison with
  | zero =>
    simp only [State.hbmPut]
    assumption
  | succ n ih =>
    simp only [State.hbmPut]
    repeat' first
      | with_reducible assumption
      | with_reducible apply ih
      | intro _
      | with_reducible apply State.lineRead_grows
      | with_reducible apply State.linePut_grows
      | with_reducible apply Grows.ite
      | dsimp only

theorem State.allotRead_grows {z : State} (s : State) (a : Nat) (off : Nat) (x3 : Nat) (hs : Grows z s) :
    Grows z (State.allotRead s a off x3).2 := by
  induction x3 generalizing s a off with
  | zero =>
    simp only [State.allotRead]
    assumption
  | succ n ih =>
    simp only [State.allotRead]
    repeat' first
      | with_reducible assumption
      | with_reducible apply ih
      | intro _
      | with_reducible apply State.lineRead_grows
      | dsimp only
      | split

theorem State.keepLine_grows {z : State} (s : State) (a : Nat) (line : Nat) (hs : Grows z s) :
    Grows z (State.keepLine s a line) := by
  unfold State.keepLine
  repeat' first
    | with_reducible assumption
    | intro _
    | with_reducible apply State.fresh_grows
    | with_reducible apply State.modAllot_grows
    | with_reducible apply Store.wf_putRow
    | with_reducible apply Grows.ite
    | dsimp only
    | with_reducible apply Grows.hbmSet

theorem State.allotWrite_grows {z : State} (s : State) (a : Nat) (off : Nat) (unit : Nat) (rows : List (List Byte × Bool)) (hs : Grows z s) :
    Grows z (State.allotWrite s a off unit rows) := by
  unfold State.allotWrite
  repeat' first
    | with_reducible assumption
    | intro _
    | with_reducible apply State.each_grows
    | with_reducible apply State.linePut_grows
    | with_reducible apply State.keepLine_grows
    | with_reducible apply State.modSeq_grows
    | with_reducible apply State.modAllot_grows
    | with_reducible apply Grows.foldl
    | with_reducible apply Grows.ite
    | dsimp only
    | split

theorem State.targetRows_grows {z : State} (s : State) (a : Nat) (t : Target) (len : Nat) (hs : Grows z s) :
    Grows z (State.targetRows s a t len).2 := by
  unfold State.targetRows
  repeat' first
    | with_reducible assumption
    | intro _
    | with_reducible apply State.rowsRead_grows
    | with_reducible apply State.allotRead_grows
    | dsimp only
    | split

theorem State.targetGet_grows {z : State} (s : State) (a : Nat) (t : Target) (len : Nat) (hs : Grows z s) :
    Grows z (State.targetGet s a t len).2 := by
  unfold State.targetGet
  repeat' first
    | with_reducible assumption
    | intro _
    | with_reducible apply State.targetRows_grows
    | dsimp only

theorem State.allotPut_grows {z : State} (s : State) (a : Nat) (off : Nat) (d : List Byte) (poison : Bool) (x5 : Nat) (hs : Grows z s) :
    Grows z (State.allotPut s a off d poison x5) := by
  induction x5 generalizing s a off d poison with
  | zero =>
    simp only [State.allotPut]
    assumption
  | succ n ih =>
    simp only [State.allotPut]
    repeat' first
      | with_reducible assumption
      | with_reducible apply ih
      | intro _
      | with_reducible apply State.hbmPut_grows
      | with_reducible apply State.keepLine_grows
      | with_reducible apply Grows.ite
      | dsimp only
      | split

theorem State.targetPut_grows {z : State} (s : State) (a : Nat) (t : Target) (w : Writer) (d : List Byte) (poison : Bool) (hs : Grows z s) :
    Grows z (State.targetPut s a t w d poison) := by
  unfold State.targetPut
  repeat' first
    | with_reducible assumption
    | intro _
    | with_reducible apply State.localPut_grows
    | with_reducible apply State.allotPut_grows
    | with_reducible apply State.modAllot_grows
    | with_reducible apply Grows.foldl
    | with_reducible apply Grows.ite
    | dsimp only
    | split

end Sys2Proof.Machine
end

