-- ==== Sys2Proof/Laws/GrowsJobs.lean ====
section
/-! SUPPORT. The operations of Machine/Jobs.lean keep `Grows` (Laws/Grows.lean). -/

namespace Sys2Proof.Machine

theorem State.msix_grows {z : State} (s : State) (h : PortIx) (f : FnIx) (v : Nat) (hs : Grows z s) :
    Grows z (State.msix s h f v) := by
  unfold State.msix
  repeat' first
    | with_reducible assumption
    | intro _
    | with_reducible apply State.modFn_grows
    | with_reducible apply State.emit_grows
    | with_reducible apply Grows.ite
    | dsimp only

theorem State.queueInterrupt_grows {z : State} (s : State) (a : Nat) (q : Nat) (hs : Grows z s) :
    Grows z (State.queueInterrupt s a q) := by
  unfold State.queueInterrupt
  repeat' first
    | with_reducible assumption
    | intro _
    | with_reducible apply State.modQueue_grows
    | with_reducible apply State.msix_grows
    | with_reducible apply Grows.ite
    | dsimp only

theorem State.endOperation_grows {z : State} (s : State) (a : Nat) (op : Nat × Nat × Nat) (status : Nat) (hs : Grows z s) :
    Grows z (State.endOperation s a op status) := by
  unfold State.endOperation
  repeat' first
    | with_reducible assumption
    | intro _
    | with_reducible apply State.event_grows
    | with_reducible apply State.modLodge_grows
    | with_reducible apply Grows.ite
    | dsimp only
    | split

theorem State.complete_grows {z : State} (s : State) (a : Nat) (q : Nat) (id : Nat) (status : Nat) (result : Nat) (hs : Grows z s) :
    Grows z (State.complete s a q id status result) := by
  unfold State.complete
  repeat' first
    | with_reducible assumption
    | intro _
    | with_reducible apply State.modQueue_grows
    | with_reducible apply State.emit_grows
    | with_reducible apply State.endOperation_grows
    | with_reducible apply State.modHost_grows
    | with_reducible apply State.queueInterrupt_grows
    | with_reducible apply Grows.ite
    | dsimp only
    | split

theorem State.cmdTo_grows {z : State} (s : State) (a : Nat) (q : Nat) (id : Nat) (st : CmdState) (hs : Grows z s) :
    Grows z (State.cmdTo s a q id st) := by
  unfold State.cmdTo
  repeat' first
    | with_reducible assumption
    | intro _
    | with_reducible apply State.modQueue_grows
    | with_reducible apply Grows.ite
    | dsimp only

theorem State.modJob_grows {z : State} (s : State) (a : Nat) (id : Nat) (f : Job → Job) (hs : Grows z s) :
    Grows z (State.modJob s a id f) := by
  unfold State.modJob
  repeat' first
    | with_reducible assumption
    | intro _
    | with_reducible apply State.modAllot_grows
    | with_reducible apply Grows.ite
    | dsimp only

theorem State.modLaunch_grows {z : State} (s : State) (a : Nat) (f : Job → Job) (hs : Grows z s) :
    Grows z (State.modLaunch s a f) := by
  unfold State.modLaunch
  repeat' first
    | with_reducible assumption
    | intro _
    | with_reducible apply State.modAllot_grows
    | with_reducible apply Grows.ite
    | dsimp only

theorem State.stopIssue_grows {z : State} (s : State) (a : Nat) (hs : Grows z s) :
    Grows z (State.stopIssue s a) := by
  unfold State.stopIssue
  repeat' first
    | with_reducible assumption
    | intro _
    | with_reducible apply State.each_grows
    | with_reducible apply State.modSeq_grows
    | dsimp only

theorem State.stopJob_grows {z : State} (s : State) (a : Nat) (status : Nat) (record : Nat) (hs : Grows z s) :
    Grows z (State.stopJob s a status record) := by
  unfold State.stopJob
  repeat' first
    | with_reducible assumption
    | intro _
    | with_reducible apply State.stopIssue_grows
    | with_reducible apply State.modLaunch_grows
    | with_reducible apply State.modAllot_grows
    | with_reducible apply Grows.ite
    | dsimp only

theorem State.stopJobOf_grows {z : State} (s : State) (p : Nat) (status : Nat) (record : Nat) (hs : Grows z s) :
    Grows z (State.stopJobOf s p status record) := by
  unfold State.stopJobOf
  repeat' first
    | with_reducible assumption
    | intro _
    | with_reducible apply State.stopJob_grows
    | with_reducible apply State.modSeq_grows
    | dsimp only
    | split

theorem State.freeze_grows {z : State} (s : State) (a : Nat) (c : FreezeCause) (hs : Grows z s) :
    Grows z (State.freeze s a c) := by
  unfold State.freeze
  repeat' first
    | with_reducible assumption
    | intro _
    | with_reducible apply State.modAllot_grows
    | with_reducible apply State.each_grows
    | with_reducible apply State.modSeq_grows
    | dsimp only
    | split

theorem State.noteUnit_grows {z : State} (s : State) (a : Nat) (u : Nat) (hs : Grows z s) :
    Grows z (State.noteUnit s a u) := by
  unfold State.noteUnit
  repeat' first
    | with_reducible assumption
    | intro _
    | with_reducible apply State.modAllot_grows
    | with_reducible apply Grows.ite
    | dsimp only

theorem State.recover_grows {z : State} (s : State) (a : Nat) (c : FreezeCause) (hs : Grows z s) :
    Grows z (State.recover s a c) := by
  unfold State.recover
  repeat' first
    | with_reducible assumption
    | intro _
    | with_reducible apply State.stopJob_grows
    | with_reducible apply State.record_grows
    | with_reducible apply State.freeze_grows
    | with_reducible apply Grows.ite
    | dsimp only
    | split

theorem State.recoverPav_grows {z : State} (s : State) (p : Nat) (c : FreezeCause) (hs : Grows z s) :
    Grows z (State.recoverPav s p c) := by
  unfold State.recoverPav
  repeat' first
    | with_reducible assumption
    | intro _
    | with_reducible apply State.recover_grows
    | dsimp only
    | split

theorem State.programFault_grows {z : State} (s : State) (p : Nat) (code : Nat) (slot : Nat) (opcode : Nat) (hs : Grows z s) :
    Grows z (State.programFault s p code slot opcode) := by
  unfold State.programFault
  repeat' first
    | with_reducible assumption
    | intro _
    | with_reducible apply State.record_grows
    | with_reducible apply State.modPav_grows
    | with_reducible apply State.stopJobOf_grows
    | with_reducible apply Grows.ite
    | dsimp only

theorem State.checkFault_grows {z : State} (s : State) (p : Nat) (r : ErrRec) (hs : Grows z s) :
    Grows z (State.checkFault s p r) := by
  unfold State.checkFault
  repeat' first
    | with_reducible assumption
    | intro _
    | with_reducible apply State.record_grows
    | with_reducible apply State.modPav_grows
    | with_reducible apply State.noteUnit_grows
    | with_reducible apply State.recoverPav_grows
    | dsimp only
    | split

theorem State.skewFault_grows {z : State} (s : State) (plot : Nat) (subunit : Nat) (expected : Nat) (offered : Nat) (hs : Grows z s) :
    Grows z (State.skewFault s plot subunit expected offered) := by
  unfold State.skewFault
  repeat' first
    | with_reducible assumption
    | intro _
    | with_reducible apply State.record_grows
    | with_reducible apply State.modPlot_grows
    | with_reducible apply State.stopJob_grows
    | dsimp only
    | split

theorem State.circuitFault_grows {z : State} (s : State) (plot : Nat) (detail : Nat) (subunit : Nat) (hs : Grows z s) :
    Grows z (State.circuitFault s plot detail subunit) := by
  unfold State.circuitFault
  repeat' first
    | with_reducible assumption
    | intro _
    | with_reducible apply State.record_grows
    | with_reducible apply State.modPlot_grows
    | with_reducible apply State.recover_grows
    | with_reducible apply State.noteUnit_grows
    | dsimp only
    | split

theorem State.refetch_grows {z t : State} (s : State) (p : Nat) (stage : Bool) (row : Nat) (hs : Grows z s) (ht : State.refetch s p stage row = some t) :
    Grows z t := by
  unfold State.refetch at ht
  repeat' first
    | with_reducible assumption
    | intro _
    | with_reducible apply State.lineRead_grows
    | with_reducible apply State.modSeq_grows
    | with_reducible apply State.rowPut_grows
    | with_reducible apply Grows.ite
    | dsimp only
    | split
    | split at ht
    | dsimp only at ht
    | cases ht

theorem State.poisonTry_grows {z : State} {r : Bool × State} (s : State) (a : Nat) (p : Nat) (stage : Bool) (row : Nat) (hs : Grows z s) (ht : State.poisonTry s a p stage row = some r) :
    Grows z r.2 := by
  unfold State.poisonTry at ht
  repeat' first
    | with_reducible assumption
    | intro _
    | refine State.refetch_grows _ _ _ _ ?_ (by assumption)
    | with_reducible apply State.freeze_grows
    | with_reducible apply State.modAllot_grows
    | with_reducible apply Grows.ite
    | dsimp only
    | split
    | split at ht
    | dsimp only at ht
    | cases ht

theorem State.consume_grows {z : State} (s : State) (p : Nat) (stage : Bool) (row : Nat) (carrier : Nat) (hs : Grows z s) :
    Grows z (State.consume s p stage row carrier).2 := by
  unfold State.consume
  repeat' first
    | with_reducible assumption
    | intro _
    | with_reducible apply State.recover_grows
    | refine State.poisonTry_grows _ _ _ _ _ ?_ (by assumption)
    | with_reducible apply State.modLaunch_grows
    | with_reducible apply State.stopJob_grows
    | with_reducible apply State.record_grows
    | with_reducible apply Grows.ite
    | dsimp only
    | split

theorem State.consumeRows_grows {z : State} (s : State) (p : Nat) (stage : Bool) (row : Nat) (n : Nat) (hs : Grows z s) :
    Grows z (State.consumeRows s p stage row n) := by
  unfold State.consumeRows
  repeat' first
    | with_reducible assumption
    | intro _
    | with_reducible apply State.consume_grows
    | with_reducible apply Grows.ite
    | dsimp only
    | split

theorem State.markHorizon_grows {z : State} (s : State) (a : Nat) (c : Cmd) (hs : Grows z s) :
    Grows z (State.markHorizon s a c) := by
  unfold State.markHorizon
  repeat' first
    | with_reducible assumption
    | intro _
    | with_reducible apply State.modJob_grows
    | with_reducible apply State.modAllot_grows
    | dsimp only
    | split

theorem State.wakeOne_grows {z t : State} (s : State) (a : Nat) (hs : Grows z s) (ht : State.wakeOne s a = some t) :
    Grows z t := by
  unfold State.wakeOne at ht
  repeat' first
    | with_reducible assumption
    | intro _
    | with_reducible apply State.markHorizon_grows
    | with_reducible apply State.complete_grows
    | with_reducible apply Grows.ite
    | dsimp only
    | split
    | split at ht
    | dsimp only at ht
    | cases ht

theorem State.wakeN_grows {z : State} (s : State) (a : Nat) (x2 : Nat) (hs : Grows z s) :
    Grows z (State.wakeN s a x2) := by
  induction x2 generalizing s a with
  | zero =>
    simp only [State.wakeN]
    assumption
  | succ n ih =>
    simp only [State.wakeN]
    repeat' first
      | with_reducible assumption
      | with_reducible apply ih
      | intro _
      | refine State.wakeOne_grows _ _ ?_ (by assumption)
      | dsimp only
      | split

theorem State.wake_grows {z : State} (s : State) (a : Nat) (hs : Grows z s) :
    Grows z (State.wake s a) := by
  unfold State.wake
  repeat' first
    | with_reducible assumption
    | intro _
    | with_reducible apply State.wakeN_grows
    | dsimp only

theorem State.completeWake_grows {z : State} (s : State) (a : Nat) (q : Nat) (id : Nat) (status : Nat) (result : Nat) (hs : Grows z s) :
    Grows z (State.completeWake s a q id status result) := by
  unfold State.completeWake
  repeat' first
    | with_reducible assumption
    | intro _
    | with_reducible apply State.wake_grows
    | with_reducible apply State.complete_grows
    | dsimp only

theorem State.wakeAll_grows {z : State} (s : State) (hs : Grows z s) :
    Grows z (State.wakeAll s) := by
  unfold State.wakeAll
  repeat' first
    | with_reducible assumption
    | intro _
    | with_reducible apply State.each_grows
    | with_reducible apply State.wake_grows
    | dsimp only

theorem State.stageLoad_grows {z : State} (s : State) (p : Nat) (a : Nat) (d : List Byte) (hs : Grows z s) :
    Grows z (State.stageLoad s p a d) := by
  unfold State.stageLoad
  repeat' first
    | with_reducible assumption
    | intro _
    | with_reducible apply State.modPav_grows
    | with_reducible apply Grows.foldl
    | dsimp only

theorem State.stageWrite_grows {z : State} (s : State) (p : Nat) (a : Nat) (d : List Byte) (hs : Grows z s) :
    Grows z (State.stageWrite s p a d) := by
  unfold State.stageWrite
  repeat' first
    | with_reducible assumption
    | intro _
    | with_reducible apply State.writeRows_grows
    | dsimp only

theorem State.setCore_grows {z : State} (s : State) (p : Nat) (n : Nat) (c : Core) (hs : Grows z s) :
    Grows z (State.setCore s p n c) := by
  unfold State.setCore
  repeat' first
    | with_reducible assumption
    | intro _
    | with_reducible apply State.modPav_grows
    | dsimp only

theorem State.sectionGarden_grows {z : State} (s : State) (p : Nat) (target : Nat) (cs : List Chunk) (sec : Nat) (hs : Grows z s) :
    Grows z (State.sectionGarden s p target cs sec) := by
  unfold State.sectionGarden
  repeat' first
    | with_reducible assumption
    | intro _
    | with_reducible apply State.modPav_grows
    | with_reducible apply Grows.ite
    | dsimp only
    | split

theorem State.fetchNext_grows {z : State} (s : State) (a : Nat) (hs : Grows z s) :
    Grows z (State.fetchNext s a) := by
  unfold State.fetchNext
  repeat' first
    | with_reducible assumption
    | intro _
    | with_reducible apply State.each_grows
    | with_reducible apply State.modPlot_grows
    | dsimp only
    | split

theorem State.setPlotSection_grows {z : State} (s : State) (plot : Nat) (set : PromSet) (hs : Grows z s) :
    Grows z (State.setPlotSection s plot set) := by
  unfold State.setPlotSection
  repeat' first
    | with_reducible assumption
    | intro _
    | with_reducible apply State.modPlot_grows
    | with_reducible apply State.each_grows
    | with_reducible apply State.modPav_grows
    | dsimp only

theorem State.discardBeats_grows {z : State} (s : State) (a : Nat) (count : Bool) (hs : Grows z s) :
    Grows z (State.discardBeats s a count) := by
  unfold State.discardBeats
  repeat' first
    | with_reducible assumption
    | intro _
    | with_reducible apply State.each_grows
    | with_reducible apply State.modPlot_grows
    | with_reducible apply State.modPav_grows
    | with_reducible apply Grows.ite
    | dsimp only

theorem State.enterSection_grows {z : State} (s : State) (a : Nat) (pos : Nat) (hs : Grows z s) :
    Grows z (State.enterSection s a pos) := by
  unfold State.enterSection
  repeat' first
    | with_reducible assumption
    | intro _
    | with_reducible apply State.modAllot_grows
    | with_reducible apply State.fetchNext_grows
    | with_reducible apply State.each_grows
    | with_reducible apply State.setPlotSection_grows
    | with_reducible apply State.stageWrite_grows
    | with_reducible apply State.modSeq_grows
    | with_reducible apply State.sectionGarden_grows
    | dsimp only
    | split

theorem State.beginLaunch_grows {z : State} (s : State) (a : Nat) (q : Nat) (c : Cmd) (hs : Grows z s) :
    Grows z (State.beginLaunch s a q c) := by
  unfold State.beginLaunch
  repeat' first
    | with_reducible assumption
    | intro _
    | with_reducible apply State.cmdTo_grows
    | with_reducible apply State.each_grows
    | with_reducible apply State.stageLoad_grows
    | with_reducible apply State.modPav_grows
    | with_reducible apply State.modAllot_grows
    | with_reducible apply State.enterSection_grows
    | dsimp only

theorem State.startHeldN_grows {z : State} (s : State) (a : Nat) (x2 : Nat) (hs : Grows z s) :
    Grows z (State.startHeldN s a x2) := by
  induction x2 generalizing s a with
  | zero =>
    simp only [State.startHeldN]
    assumption
  | succ n ih =>
    simp only [State.startHeldN]
    repeat' first
      | with_reducible assumption
      | with_reducible apply ih
      | intro _
      | with_reducible apply State.beginLaunch_grows
      | with_reducible apply State.completeWake_grows
      | with_reducible apply Grows.ite
      | dsimp only
      | split

theorem State.startHeld_grows {z : State} (s : State) (a : Nat) (hs : Grows z s) :
    Grows z (State.startHeld s a) := by
  unfold State.startHeld
  repeat' first
    | with_reducible assumption
    | intro _
    | with_reducible apply State.startHeldN_grows
    | dsimp only

end Sys2Proof.Machine
end

