-- ==== Sys2Proof/Laws/GrowsTags.lean ====
section
/-! SUPPORT. The operations of Machine/Tags.lean keep `Grows` (Laws/Grows.lean). -/

namespace Sys2Proof.Machine

theorem State.release_grows {z : State} (s : State) (p : Nat) (ids : List Nat) (hs : Grows z s) :
    Grows z (State.release s p ids) := by
  unfold State.release
  repeat' first
    | with_reducible assumption
    | intro _
    | with_reducible apply State.modSeq_grows
    | dsimp only

theorem State.brokenTag_grows {z : State} (s : State) (p : Nat) (t : Nat) (hs : Grows z s) :
    Grows z (State.brokenTag s p t) := by
  unfold State.brokenTag
  repeat' first
    | with_reducible assumption
    | intro _
    | with_reducible apply State.record_grows
    | with_reducible apply State.modPav_grows
    | dsimp only

end Sys2Proof.Machine
end

