-- ==== Sys2Proof/Laws/GrowsServerPorts.lean ====
section
/-! SUPPORT. The operations of Machine/ServerPorts.lean keep `Grows` (Laws/Grows.lean). -/

namespace Sys2Proof.Machine

theorem State.srvCount_grows {z : State} (s : State) (n : Nat) (i : Nat) (hs : Grows z s) :
    Grows z (State.srvCount s n i) := by
  unfold State.srvCount
  repeat' first
    | with_reducible assumption
    | intro _
    | with_reducible apply State.modSrv_grows
    | dsimp only

theorem State.modWindow_grows {z : State} (s : State) (n : Nat) (e : Nat) (f : Window → Window) (hs : Grows z s) :
    Grows z (State.modWindow s n e f) := by
  unfold State.modWindow
  repeat' first
    | with_reducible assumption
    | intro _
    | with_reducible apply State.modSrv_grows
    | with_reducible apply Grows.ite
    | dsimp only

theorem State.sendFrame_grows {z : State} (s : State) (n : Nat) (e : Nat) (f : TFrame) (hs : Grows z s) :
    Grows z (State.sendFrame s n e f) := by
  unfold State.sendFrame
  repeat' first
    | with_reducible assumption
    | intro _
    | with_reducible apply State.srvCount_grows
    | with_reducible apply State.emit_grows
    | with_reducible apply State.modWindow_grows
    | with_reducible apply Grows.ite
    | dsimp only
    | split

theorem State.sendDone_grows {z : State} (s : State) (n : Nat) (e : Nat) (peer : BitVec 48) (handle : BitVec 32) (xid : BitVec 16) (st : Nat) (hs : Grows z s) :
    Grows z (State.sendDone s n e peer handle xid st) := by
  unfold State.sendDone
  repeat' first
    | with_reducible assumption
    | intro _
    | with_reducible apply State.sendFrame_grows
    | dsimp only

theorem State.refuse_grows {z : State} (s : State) (n : Nat) (f : TFrame) (st : Nat) (hs : Grows z s) :
    Grows z (State.refuse s n f st) := by
  unfold State.refuse
  repeat' first
    | with_reducible assumption
    | intro _
    | with_reducible apply State.srvCount_grows
    | with_reducible apply State.modSrv_grows
    | with_reducible apply State.sendFrame_grows
    | with_reducible apply Grows.ite
    | dsimp only

theorem State.sendPart_grows {z : State} (s : State) (n : Nat) (o : Outgoing) (retry : Bool) (i : Nat) (hs : Grows z s) :
    Grows z (State.sendPart s n o retry i) := by
  unfold State.sendPart
  repeat' first
    | with_reducible assumption
    | intro _
    | with_reducible apply State.targetGet_grows
    | with_reducible apply State.record_grows
    | with_reducible apply State.srvCount_grows
    | with_reducible apply State.sendFrame_grows
    | with_reducible apply Grows.foldl
    | with_reducible apply Grows.foldl2
    | with_reducible apply Grows.foldl3
    | with_reducible apply Grows.foldl4
    | with_reducible apply Grows.ite
    | with_reducible apply Grows.ite2
    | with_reducible apply Grows.ite3
    | dsimp only
    | split

theorem State.sendParts_grows {z : State} (s : State) (n : Nat) (o : Outgoing) (retry : Bool) (l : List Nat) (hs : Grows z s) :
    Grows z (State.sendParts s n o retry l) := by
  unfold State.sendParts
  repeat' first
    | with_reducible assumption
    | intro _
    | with_reducible apply State.each_grows
    | with_reducible apply State.sendPart_grows
    | dsimp only

theorem State.startOut_grows {z : State} (s : State) (n : Nat) (o : Outgoing) (hs : Grows z s) :
    Grows z (State.startOut s n o) := by
  unfold State.startOut
  repeat' first
    | with_reducible assumption
    | intro _
    | with_reducible apply State.sendParts_grows
    | with_reducible apply State.modPav_grows
    | with_reducible apply State.modSrv_grows
    | with_reducible apply Grows.ite
    | dsimp only
    | split

theorem State.failOut_grows {z : State} (s : State) (n : Nat) (o : Outgoing) (st : Nat) (hs : Grows z s) :
    Grows z (State.failOut s n o st) := by
  unfold State.failOut
  repeat' first
    | with_reducible assumption
    | intro _
    | with_reducible apply State.modSrv_grows
    | with_reducible apply State.srvCount_grows
    | with_reducible apply State.record_grows
    | with_reducible apply Grows.ite
    | dsimp only
    | split

theorem State.tryOut_grows {z : State} (s : State) (n : Nat) (o : Outgoing) (hs : Grows z s) :
    Grows z (State.tryOut s n o) := by
  unfold State.tryOut
  repeat' first
    | with_reducible assumption
    | intro _
    | with_reducible apply State.failOut_grows
    | with_reducible apply State.brokenTag_grows
    | with_reducible apply State.startOut_grows
    | with_reducible apply Grows.ite
    | dsimp only
    | split

theorem State.addOut_grows {z : State} (s : State) (n : Nat) (o : Outgoing) (hs : Grows z s) :
    Grows z (State.addOut s n o) := by
  unfold State.addOut
  repeat' first
    | with_reducible assumption
    | intro _
    | with_reducible apply State.tryOut_grows
    | with_reducible apply State.modSrv_grows
    | dsimp only

theorem State.pushExports_grows {z : State} (s : State) (a : Nat) (hs : Grows z s) :
    Grows z (State.pushExports s a) := by
  unfold State.pushExports
  repeat' first
    | with_reducible assumption
    | intro _
    | with_reducible apply State.each_grows
    | with_reducible apply State.modSrv_grows
    | with_reducible apply State.addOut_grows
    | dsimp only
    | split

theorem State.closeWindow_grows {z : State} (s : State) (n : Nat) (e : Nat) (hs : Grows z s) :
    Grows z (State.closeWindow s n e) := by
  unfold State.closeWindow
  repeat' first
    | with_reducible assumption
    | intro _
    | with_reducible apply State.each_grows
    | with_reducible apply State.failOut_grows
    | with_reducible apply State.modWindow_grows
    | with_reducible apply Grows.ite
    | dsimp only
    | split

theorem State.closeWindows_grows {z : State} (s : State) (n : Nat) (f : Window → Bool) (hs : Grows z s) :
    Grows z (State.closeWindows s n f) := by
  unfold State.closeWindows
  repeat' first
    | with_reducible assumption
    | intro _
    | with_reducible apply State.each_grows
    | with_reducible apply State.closeWindow_grows
    | dsimp only

theorem State.wopen_grows {z : State} (s : State) (a : Nat) (q : Nat) (c : Cmd) (hs : Grows z s) :
    Grows z (State.wopen s a q c) := by
  unfold State.wopen
  repeat' first
    | with_reducible assumption
    | intro _
    | with_reducible apply State.completeWake_grows
    | with_reducible apply State.modWindow_grows
    | with_reducible apply State.cmdTo_grows
    | with_reducible apply State.modSrv_grows
    | with_reducible apply Grows.ite
    | dsimp only
    | split

theorem State.windowEnd_grows {z : State} (s : State) (n : Nat) (e : Nat) (hs : Grows z s) :
    Grows z (State.windowEnd s n e) := by
  unfold State.windowEnd
  repeat' first
    | with_reducible assumption
    | intro _
    | with_reducible apply State.modSrv_grows
    | with_reducible apply State.each_grows
    | with_reducible apply State.complete_grows
    | with_reducible apply State.wake_grows
    | with_reducible apply State.wopen_grows
    | dsimp only
    | split

theorem State.settleSrv_grows {z : State} (s : State) (n : Nat) (hs : Grows z s) :
    Grows z (State.settleSrv s n) := by
  unfold State.settleSrv
  repeat' first
    | with_reducible assumption
    | intro _
    | with_reducible apply State.modSrv_grows
    | with_reducible apply State.event_grows
    | with_reducible apply Grows.ite
    | dsimp only
    | split

theorem State.frameFirst_grows {z t : State} (s : State) (n : Nat) (f : TFrame) (hs : Grows z s) (ht : State.frameFirst s n f = some t) :
    Grows z t := by
  unfold State.frameFirst at ht
  repeat' first
    | with_reducible assumption
    | intro _
    | with_reducible apply State.srvCount_grows
    | with_reducible apply Grows.ite
    | dsimp only
    | split at ht
    | dsimp only at ht
    | cases ht

theorem State.checkFrame_grows {z t : State} (s : State) (n : Nat) (f : TFrame) (needs : Nat) (off : Nat) (len : Nat) (shape : Bool) (known : Bool) (hs : Grows z s) (ht : State.checkFrame s n f needs off len shape known = .stop t) :
    Grows z t := by
  unfold State.checkFrame at ht
  repeat' first
    | with_reducible assumption
    | intro _
    | with_reducible apply State.srvCount_grows
    | refine State.frameFirst_grows _ _ _ ?_ (by assumption)
    | with_reducible apply State.refuse_grows
    | with_reducible apply State.modWindow_grows
    | with_reducible apply Grows.ite
    | dsimp only
    | split
    | split at ht
    | dsimp only at ht
    | cases ht

theorem State.landKeep_grows {z : State} (s : State) (a : Nat) (t : Target) (hs : Grows z s) :
    Grows z (State.landKeep s a t) := by
  unfold State.landKeep
  repeat' first
    | with_reducible assumption
    | intro _
    | with_reducible apply State.modPav_grows
    | with_reducible apply State.fresh_grows
    | with_reducible apply Store.wf_putRow
    | with_reducible apply Grows.ite
    | with_reducible apply Grows.ite2
    | with_reducible apply Grows.ite3
    | dsimp only
    | split
    | with_reducible apply Grows.hbmSet

theorem State.landFrame_grows {z : State} (s : State) (w : Window) (f : TFrame) (hs : Grows z s) :
    Grows z (State.landFrame s w f) := by
  unfold State.landFrame
  repeat' first
    | with_reducible assumption
    | intro _
    | with_reducible apply State.each_grows
    | with_reducible apply State.landKeep_grows
    | with_reducible apply State.targetPut_grows
    | dsimp only

theorem State.landIncoming_grows {z : State} (s : State) (n : Nat) (e : Nat) (w : Window) (i : Incoming) (f : TFrame) (hs : Grows z s) :
    Grows z (State.landIncoming s n e w i f) := by
  unfold State.landIncoming
  repeat' first
    | with_reducible assumption
    | intro _
    | with_reducible apply State.modSrv_grows
    | with_reducible apply State.landFrame_grows
    | with_reducible apply State.modPav_grows
    | with_reducible apply State.modWindow_grows
    | with_reducible apply State.wake_grows
    | with_reducible apply State.sendDone_grows
    | with_reducible apply State.srvCount_grows
    | with_reducible apply Grows.ite
    | dsimp only
    | split

theorem State.answerFrame_grows {z t : State} (s : State) (n : Nat) (f : TFrame) (hs : Grows z s) (ht : State.answerFrame s n f = .stop t) :
    Grows z t := by
  unfold State.answerFrame at ht
  repeat' first
    | with_reducible assumption
    | intro _
    | with_reducible apply State.srvCount_grows
    | refine State.frameFirst_grows _ _ _ ?_ (by assumption)
    | with_reducible apply State.refuse_grows
    | with_reducible apply State.modWindow_grows
    | with_reducible apply Grows.ite
    | dsimp only
    | split
    | split at ht
    | dsimp only at ht
    | cases ht

theorem State.pumpOut_grows {z : State} (s : State) (n : Nat) (hs : Grows z s) :
    Grows z (State.pumpOut s n) := by
  unfold State.pumpOut
  repeat' first
    | with_reducible assumption
    | intro _
    | with_reducible apply State.each_grows
    | with_reducible apply State.tryOut_grows
    | dsimp only

theorem State.nackMissing_grows {z : State} (s : State) (n : Nat) (e : Nat) (i : Incoming) (round : Nat) (hs : Grows z s) :
    Grows z (State.nackMissing s n e i round) := by
  unfold State.nackMissing
  repeat' first
    | with_reducible assumption
    | intro _
    | with_reducible apply State.each_grows
    | with_reducible apply State.sendFrame_grows
    | with_reducible apply State.srvCount_grows
    | with_reducible apply Grows.ite
    | dsimp only

theorem State.pumpIn_grows {z : State} (s : State) (n : Nat) (hs : Grows z s) :
    Grows z (State.pumpIn s n) := by
  unfold State.pumpIn
  repeat' first
    | with_reducible assumption
    | intro _
    | with_reducible apply State.each_grows
    | with_reducible apply State.modPav_grows
    | with_reducible apply State.modSrv_grows
    | with_reducible apply State.landIncoming_grows
    | with_reducible apply Grows.ite
    | dsimp only
    | split

end Sys2Proof.Machine
end

