-- ==== Sys2Proof/Laws/GrowsFabric.lean ====
section
/-! SUPPORT. The operations of Machine/Fabric.lean keep `Grows` (Laws/Grows.lean). -/

namespace Sys2Proof.Machine

theorem State.discard_grows {z : State} (s : State) (k : Packet) (hs : Grows z s) :
    Grows z (State.discard s k) := by
  unfold State.discard
  repeat' first
    | with_reducible assumption
    | intro _
    | with_reducible apply State.modPlot_grows
    | dsimp only
    | split

theorem State.reply_grows {z : State} (s : State) (k : Packet) (st : BitVec 4) (entry : Nat) (length : Nat) (landed : Nat) (hs : Grows z s) :
    Grows z (State.reply s k st entry length landed) := by
  unfold State.reply
  repeat' first
    | with_reducible assumption
    | intro _
    | with_reducible apply State.emit_grows
    | dsimp only

theorem State.crcFailed_grows {z : State} (s : State) (k : Packet) (hs : Grows z s) :
    Grows z (State.crcFailed s k) := by
  unfold State.crcFailed
  repeat' first
    | with_reducible assumption
    | intro _
    | with_reducible apply State.record_grows
    | with_reducible apply State.modLink_grows
    | with_reducible apply State.fresh_grows
    | with_reducible apply Grows.ite
    | dsimp only

theorem State.passage_grows {z t : State} (s : State) (k : Packet) (hs : Grows z s) (ht : State.passage s k = .dropped t) :
    Grows z t := by
  unfold State.passage at ht
  repeat' first
    | with_reducible assumption
    | intro _
    | with_reducible apply State.reply_grows
    | with_reducible apply State.crcFailed_grows
    | with_reducible apply State.discard_grows
    | with_reducible apply State.record_grows
    | with_reducible apply Grows.ite
    | dsimp only
    | split
    | split at ht
    | dsimp only at ht
    | cases ht

theorem State.tagsTaken_grows {z : State} (s : State) (t : Target) (len : Nat) (hs : Grows z s) :
    Grows z (State.tagsTaken s t len) := by
  unfold State.tagsTaken
  repeat' first
    | with_reducible assumption
    | intro _
    | with_reducible apply State.modPav_grows
    | dsimp only
    | split

theorem State.tagsFull_grows {z : State} (s : State) (t : Target) (len : Nat) (hs : Grows z s) :
    Grows z (State.tagsFull s t len) := by
  unfold State.tagsFull
  repeat' first
    | with_reducible assumption
    | intro _
    | with_reducible apply State.modPav_grows
    | dsimp only
    | split

theorem State.tagsRead_grows {z : State} (s : State) (t : Target) (len : Nat) (hs : Grows z s) :
    Grows z (State.tagsRead s t len) := by
  unfold State.tagsRead
  repeat' first
    | with_reducible assumption
    | intro _
    | with_reducible apply State.modPav_grows
    | dsimp only
    | split

theorem State.grant_grows {z : State} (s : State) (r : Receiver) (q : HeldReq) (t : Target) (hs : Grows z s) :
    Grows z (State.grant s r q t) := by
  unfold State.grant
  repeat' first
    | with_reducible assumption
    | intro _
    | with_reducible apply State.modRx_grows
    | with_reducible apply State.tagsTaken_grows
    | with_reducible apply State.emit_grows
    | dsimp only
    | split

theorem State.replyDone_grows {z : State} (s : State) (k : Packet) (d : DoneRec) (hs : Grows z s) :
    Grows z (State.replyDone s k d) := by
  unfold State.replyDone
  repeat' first
    | with_reducible assumption
    | intro _
    | with_reducible apply State.reply_grows
    | with_reducible apply Grows.ite
    | dsimp only

theorem State.answerQuery_grows {z : State} (s : State) (r : Receiver) (k : Packet) (hs : Grows z s) :
    Grows z (State.answerQuery s r k) := by
  unfold State.answerQuery
  repeat' first
    | with_reducible assumption
    | intro _
    | with_reducible apply State.reply_grows
    | with_reducible apply State.replyDone_grows
    | with_reducible apply Grows.ite
    | dsimp only
    | split

theorem State.sendRange_grows {z : State} (s : State) (a : Nat) (t : Target) (len : Nat) (src : BitVec 9 × BitVec 9) (dst : BitVec 9 × BitVec 9) (entry : BitVec 12) (sel : Bool) (retry : Bool) (want : Nat → Bool) (hs : Grows z s) :
    Grows z (State.sendRange s a t len src dst entry sel retry want) := by
  unfold State.sendRange
  repeat' first
    | with_reducible assumption
    | intro _
    | with_reducible apply State.targetRows_grows
    | with_reducible apply State.emits_grows
    | dsimp only

theorem State.sendData_grows {z : State} (s : State) (r : Receiver) (x : Tx) (retry : Bool) (want : Nat → Bool) (hs : Grows z s) :
    Grows z (State.sendData s r x retry want) := by
  unfold State.sendData
  repeat' first
    | with_reducible assumption
    | intro _
    | with_reducible apply State.sendRange_grows
    | dsimp only

theorem State.startTx_grows {z : State} (s : State) (r : Receiver) (owner : TxOwner) (read : Bool) (dst : BitVec 9 × BitVec 9) (address : Nat) (source : Nat) (len : Nat) (hs : Grows z s) :
    Grows z (State.startTx s r owner read dst address source len) := by
  unfold State.startTx
  repeat' first
    | with_reducible assumption
    | intro _
    | with_reducible apply State.modRx_grows
    | with_reducible apply State.emit_grows
    | with_reducible apply Grows.ite
    | dsimp only

theorem State.resendReq_grows {z : State} (s : State) (r : Receiver) (tag : Nat) (x : Tx) (query : Bool) (hs : Grows z s) :
    Grows z (State.resendReq s r tag x query) := by
  unfold State.resendReq
  repeat' first
    | with_reducible assumption
    | intro _
    | with_reducible apply State.emit_grows
    | with_reducible apply Grows.ite
    | dsimp only

theorem State.modParts_grows {z : State} (s : State) (r : Receiver) (o : TxOwner) (f : Parts → Parts) (hs : Grows z s) :
    Grows z (State.modParts s r o f) := by
  unfold State.modParts
  repeat' first
    | with_reducible assumption
    | intro _
    | with_reducible apply State.modSeq_grows
    | with_reducible apply State.setCore_grows
    | dsimp only
    | split

theorem State.failOwner_grows {z : State} (s : State) (r : Receiver) (o : TxOwner) (code : Nat) (hs : Grows z s) :
    Grows z (State.failOwner s r o code) := by
  unfold State.failOwner
  repeat' first
    | with_reducible assumption
    | intro _
    | with_reducible apply State.modRx_grows
    | with_reducible apply State.programFault_grows
    | with_reducible apply State.modSeq_grows
    | with_reducible apply State.modParts_grows
    | dsimp only
    | split

theorem State.startPart_grows {z : State} (s : State) (r : Receiver) (o : TxOwner) (x : Parts) (hs : Grows z s) :
    Grows z (State.startPart s r o x) := by
  unfold State.startPart
  repeat' first
    | with_reducible assumption
    | intro _
    | with_reducible apply State.tagsTaken_grows
    | with_reducible apply State.startTx_grows
    | with_reducible apply State.modParts_grows
    | with_reducible apply Grows.ite
    | dsimp only

theorem State.pumpParts_grows {z : State} (s : State) (r : Receiver) (o : TxOwner) (x3 : Nat) (hs : Grows z s) :
    Grows z (State.pumpParts s r o x3) := by
  induction x3 generalizing s r o with
  | zero =>
    simp only [State.pumpParts]
    assumption
  | succ n ih =>
    simp only [State.pumpParts]
    repeat' first
      | with_reducible assumption
      | with_reducible apply ih
      | intro _
      | with_reducible apply State.modPav_grows
      | with_reducible apply State.startPart_grows
      | with_reducible apply State.brokenTag_grows
      | with_reducible apply State.failOwner_grows
      | with_reducible apply Grows.ite
      | dsimp only
      | split

theorem State.pumpAll_grows {z : State} (s : State) (r : Receiver) (hs : Grows z s) :
    Grows z (State.pumpAll s r) := by
  unfold State.pumpAll
  repeat' first
    | with_reducible assumption
    | intro _
    | with_reducible apply State.each_grows
    | with_reducible apply State.pumpParts_grows
    | dsimp only
    | split

theorem State.partDone_grows {z : State} (s : State) (r : Receiver) (tag : Nat) (x : Tx) (hs : Grows z s) :
    Grows z (State.partDone s r tag x) := by
  unfold State.partDone
  repeat' first
    | with_reducible assumption
    | intro _
    | with_reducible apply State.modRx_grows
    | with_reducible apply State.pumpAll_grows
    | with_reducible apply State.modParts_grows
    | with_reducible apply Grows.ite
    | dsimp only

theorem State.partSent_grows {z : State} (s : State) (r : Receiver) (x : Tx) (hs : Grows z s) :
    Grows z (State.partSent s r x) := by
  unfold State.partSent
  repeat' first
    | with_reducible assumption
    | intro _
    | with_reducible apply State.tagsRead_grows
    | with_reducible apply State.modParts_grows
    | with_reducible apply State.modSeq_grows
    | with_reducible apply Grows.ite
    | dsimp only
    | split

theorem State.failTx_grows {z : State} (s : State) (r : Receiver) (tag : Nat) (x : Tx) (status : Nat) (hs : Grows z s) :
    Grows z (State.failTx s r tag x status) := by
  unfold State.failTx
  repeat' first
    | with_reducible assumption
    | intro _
    | with_reducible apply State.modRx_grows
    | with_reducible apply State.record_grows
    | with_reducible apply State.failOwner_grows
    | with_reducible apply Grows.ite
    | dsimp only
    | split

theorem State.failFrom_grows {z : State} (s : State) (q : HeldReq) (hs : Grows z s) :
    Grows z (State.failFrom s q) := by
  unfold State.failFrom
  repeat' first
    | with_reducible assumption
    | intro _
    | with_reducible apply State.failTx_grows
    | dsimp only
    | split

theorem State.grantHeld_grows {z : State} (s : State) (r : Receiver) (hs : Grows z s) :
    Grows z (State.grantHeld s r) := by
  unfold State.grantHeld
  repeat' first
    | with_reducible assumption
    | intro _
    | with_reducible apply State.each_grows
    | with_reducible apply State.modRx_grows
    | with_reducible apply State.grant_grows
    | with_reducible apply State.emit_grows
    | with_reducible apply State.failFrom_grows
    | with_reducible apply State.brokenTag_grows
    | dsimp only
    | split

theorem State.agentPump_grows {z : State} (s : State) (plot : Nat) (x2 : Nat) (hs : Grows z s) :
    Grows z (State.agentPump s plot x2) := by
  induction x2 generalizing s plot with
  | zero =>
    simp only [State.agentPump]
    assumption
  | succ n ih =>
    simp only [State.agentPump]
    repeat' first
      | with_reducible assumption
      | with_reducible apply ih
      | intro _
      | with_reducible apply State.emits_grows
      | with_reducible apply State.modPlot_grows
      | with_reducible apply Grows.ite
      | dsimp only
      | split

theorem State.agentAsk_grows {z : State} (s : State) (plot : Nat) (a : Nat) (off : Nat) (len : Nat) (write : Bool) (entry : Option (BitVec 12)) (hs : Grows z s) :
    Grows z (State.agentAsk s plot a off len write entry) := by
  unfold State.agentAsk
  repeat' first
    | with_reducible assumption
    | intro _
    | with_reducible apply State.agentPump_grows
    | with_reducible apply State.modPlot_grows
    | dsimp only

theorem State.serveRead_grows {z : State} (s : State) (r : Receiver) (q : HeldReq) (hs : Grows z s) :
    Grows z (State.serveRead s r q) := by
  unfold State.serveRead
  repeat' first
    | with_reducible assumption
    | intro _
    | with_reducible apply State.modRx_grows
    | with_reducible apply State.emit_grows
    | with_reducible apply State.agentAsk_grows
    | with_reducible apply State.tagsRead_grows
    | with_reducible apply State.sendRange_grows
    | dsimp only
    | split

theorem State.pumpReads_grows {z : State} (s : State) (r : Receiver) (hs : Grows z s) :
    Grows z (State.pumpReads s r) := by
  unfold State.pumpReads
  repeat' first
    | with_reducible assumption
    | intro _
    | with_reducible apply State.each_grows
    | with_reducible apply State.modRx_grows
    | with_reducible apply State.serveRead_grows
    | with_reducible apply State.failFrom_grows
    | with_reducible apply State.brokenTag_grows
    | with_reducible apply Grows.ite
    | dsimp only
    | split

theorem State.endRead_grows {z : State} (s : State) (r : Receiver) (q : HeldReq) (hs : Grows z s) :
    Grows z (State.endRead s r q) := by
  unfold State.endRead
  repeat' first
    | with_reducible assumption
    | intro _
    | with_reducible apply State.pumpReads_grows
    | with_reducible apply State.modRx_grows
    | dsimp only

theorem State.answerTx_grows {z : State} (s : State) (r : Receiver) (k : Packet) (x : Tx) (hs : Grows z s) :
    Grows z (State.answerTx s r k x) := by
  unfold State.answerTx
  repeat' first
    | with_reducible assumption
    | intro _
    | with_reducible apply State.modRx_grows
    | with_reducible apply State.partSent_grows
    | with_reducible apply State.sendData_grows
    | with_reducible apply State.pumpAll_grows
    | with_reducible apply State.partDone_grows
    | with_reducible apply State.failTx_grows
    | with_reducible apply Grows.ite
    | dsimp only
    | split

theorem State.sendLanded_grows {z : State} (s : State) (r : Receiver) (entry : Nat) (e : Landing) (st : BitVec 4) (landed : Nat) (hs : Grows z s) :
    Grows z (State.sendLanded s r entry e st landed) := by
  unfold State.sendLanded
  repeat' first
    | with_reducible assumption
    | intro _
    | with_reducible apply State.emit_grows
    | with_reducible apply Grows.ite
    | dsimp only

theorem State.landDone_grows {z : State} (s : State) (r : Receiver) (entry : Nat) (e : Landing) (hs : Grows z s) :
    Grows z (State.landDone s r entry e) := by
  unfold State.landDone
  repeat' first
    | with_reducible assumption
    | intro _
    | with_reducible apply State.tagsFull_grows
    | with_reducible apply State.sendLanded_grows
    | with_reducible apply State.modRx_grows
    | with_reducible apply State.partDone_grows
    | with_reducible apply State.pumpAll_grows
    | with_reducible apply Grows.ite
    | dsimp only
    | split

theorem State.landData_grows {z : State} (s : State) (r : Receiver) (k : Packet) (e : Landing) (hs : Grows z s) :
    Grows z (State.landData s r k e) := by
  unfold State.landData
  repeat' first
    | with_reducible assumption
    | intro _
    | with_reducible apply State.targetPut_grows
    | with_reducible apply State.modRx_grows
    | with_reducible apply State.agentAsk_grows
    | with_reducible apply State.landDone_grows
    | with_reducible apply Grows.ite
    | dsimp only
    | split

theorem State.landFail_grows {z : State} (s : State) (r : Receiver) (entry : Nat) (e : Landing) (landed : Nat) (hs : Grows z s) :
    Grows z (State.landFail s r entry e landed) := by
  unfold State.landFail
  repeat' first
    | with_reducible assumption
    | intro _
    | with_reducible apply State.sendLanded_grows
    | with_reducible apply State.modRx_grows
    | with_reducible apply State.failTx_grows
    | with_reducible apply Grows.ite
    | dsimp only
    | split

theorem State.withdrawProm_grows {z : State} (s : State) (p : PlotIx) (e : Fin 4) (c : Fin 64) (hs : Grows z s) :
    Grows z (State.withdrawProm s p e c) := by
  unfold State.withdrawProm
  repeat' first
    | with_reducible assumption
    | intro _
    | with_reducible apply State.modPlot_grows
    | dsimp only
    | split

theorem State.breakSpine_grows {z : State} (s : State) (east : Bool) (point : Nat) (hs : Grows z s) :
    Grows z (State.breakSpine s east point) := by
  unfold State.breakSpine
  repeat' first
    | with_reducible assumption
    | intro _
    | with_reducible apply State.modLodge_grows
    | with_reducible apply State.record_grows
    | with_reducible apply State.each_grows
    | with_reducible apply State.modPlot_grows
    | with_reducible apply Grows.foldl
    | with_reducible apply Grows.ite
    | dsimp only

theorem State.cutLink_grows {z : State} (s : State) (l : LinkId) (hs : Grows z s) :
    Grows z (State.cutLink s l) := by
  cases l with
  | prom p e c => exact State.withdrawProm_grows s p e c hs
  | cellTorus p x y d => exact State.cellDead_grows s _ _ true hs
  | spine => exact State.breakSpine_grows _ _ _ (State.breakSpine_grows _ _ _ hs)
  | _ => exact hs

theorem State.withdraw_grows {z : State} (s : State) (l : LinkId) (hs : Grows z s) :
    Grows z (State.withdraw s l) := by
  unfold State.withdraw
  repeat' first
    | with_reducible assumption
    | intro _
    | with_reducible apply State.cutLink_grows
    | with_reducible apply State.modLink_grows
    | with_reducible apply State.record_grows
    | with_reducible apply State.event_grows
    | with_reducible apply Grows.ite
    | with_reducible apply Grows.ite2
    | with_reducible apply Grows.ite3
    | dsimp only
    | split

theorem State.failWires_grows {z : State} (s : State) (l : LinkId) (ks : List Nat) (hs : Grows z s) :
    Grows z (State.failWires s l ks) := by
  unfold State.failWires
  repeat' first
    | with_reducible assumption
    | intro _
    | with_reducible apply State.modLink_grows
    | with_reducible apply State.withdraw_grows
    | with_reducible apply Grows.ite
    | dsimp only
    | split

theorem State.failLanes_grows {z : State} (s : State) (n : Nat) (lanes : List (LinkId × Nat)) (hs : Grows z s) :
    Grows z (State.failLanes s n lanes) := by
  unfold State.failLanes
  repeat' first
    | with_reducible assumption
    | intro _
    | with_reducible apply State.each_grows
    | with_reducible apply State.failWires_grows
    | dsimp only

end Sys2Proof.Machine
end

