-- ==== Sys2Proof/Laws/GrowsUnits.lean ====
section
/-! SUPPORT. The operations of Machine/Units.lean keep `Grows` (Laws/Grows.lean). -/

namespace Sys2Proof.Machine

theorem State.progressTo_grows {z : State} (s : State) (i : Nat) (state : Nat) (position : Nat) (total : Nat) (subject : Nat) (hs : Grows z s) :
    Grows z (State.progressTo s i state position total subject) := by
  unfold State.progressTo
  repeat' first
    | with_reducible assumption
    | intro _
    | with_reducible apply State.modLodge_grows
    | dsimp only

theorem State.progressEnd_grows {z : State} (s : State) (i : Nat) (state : Nat) (hs : Grows z s) :
    Grows z (State.progressEnd s i state) := by
  unfold State.progressEnd
  repeat' first
    | with_reducible assumption
    | intro _
    | with_reducible apply State.progressTo_grows
    | with_reducible apply State.wakeAll_grows
    | with_reducible apply State.event_grows
    | with_reducible apply Grows.ite
    | dsimp only

theorem State.assignProgress_grows {z : State} (s : State) (owner : Nat × Nat × Nat) (subject : Nat) (hs : Grows z s) :
    Grows z (State.assignProgress s owner subject).2 := by
  unfold State.assignProgress
  repeat' first
    | with_reducible assumption
    | intro _
    | with_reducible apply State.modLodge_grows
    | dsimp only
    | split

theorem State.flashWrite_grows {z : State} (s : State) (r : FlashRegion) (slot : Nat) (sectors : Nat) (hs : Grows z s) :
    Grows z (State.flashWrite s r slot sectors) := by
  unfold State.flashWrite
  repeat' first
    | with_reducible assumption
    | intro _
    | with_reducible apply State.modLodge_grows
    | dsimp only

theorem State.settleStart_grows {z : State} (s : State) (hs : Grows z s) :
    Grows z (State.settleStart s) := by
  unfold State.settleStart
  repeat' first
    | with_reducible assumption
    | intro _
    | with_reducible apply State.modLodge_grows
    | with_reducible apply State.progressTo_grows
    | with_reducible apply Grows.ite
    | dsimp only

theorem State.endStep1_grows {z : State} (s : State) (hs : Grows z s) :
    Grows z (State.endStep1 s) := by
  unfold State.endStep1
  repeat' first
    | with_reducible assumption
    | intro _
    | with_reducible apply State.settleStart_grows
    | with_reducible apply State.modLodge_grows
    | dsimp only

theorem State.settleStep1_grows {z : State} (s : State) (hs : Grows z s) :
    Grows z (State.settleStep1 s) := by
  unfold State.settleStep1
  repeat' first
    | with_reducible assumption
    | intro _
    | with_reducible apply State.endStep1_grows
    | with_reducible apply Grows.ite
    | dsimp only

theorem State.remapCell_grows {z : State} {r : Nat × State} (s : State) (p : Nat) (n : Nat) (rdead : Bool) (hs : Grows z s) (ht : State.remapCell s p n rdead = some r) :
    Grows z r.2 := by
  unfold State.remapCell at ht
  repeat' first
    | with_reducible assumption
    | intro _
    | with_reducible apply State.modPlot_grows
    | with_reducible apply State.modPav_grows
    | with_reducible apply State.record_grows
    | with_reducible apply Grows.ite
    | dsimp only
    | split
    | split at ht
    | dsimp only at ht
    | cases ht

theorem State.eachPav_grows {z : State} (s : State) (plot : Nat) (f : Pav → Pav) (hs : Grows z s) :
    Grows z (State.eachPav s plot f) := by
  unfold State.eachPav
  repeat' first
    | with_reducible assumption
    | intro _
    | with_reducible apply State.each_grows
    | with_reducible apply State.modPav_grows
    | dsimp only

theorem State.retireRec_grows {z : State} (s : State) (p : Nat) (kind : Nat) (severity : Nat) (hs : Grows z s) :
    Grows z (State.retireRec s p kind severity) := by
  unfold State.retireRec
  repeat' first
    | with_reducible assumption
    | intro _
    | with_reducible apply State.record_grows
    | with_reducible apply Grows.ite
    | dsimp only

theorem State.changePav_grows {z : State} (s : State) (p : Nat) (f : Pav → Pav) (hs : Grows z s) :
    Grows z (State.changePav s p f) := by
  unfold State.changePav
  repeat' first
    | with_reducible assumption
    | intro _
    | with_reducible apply State.modPav_grows
    | with_reducible apply State.event_grows
    | with_reducible apply Grows.ite
    | dsimp only

theorem State.failPav_grows {z : State} (s : State) (p : Nat) (hs : Grows z s) :
    Grows z (State.failPav s p) := by
  unfold State.failPav
  repeat' first
    | with_reducible assumption
    | intro _
    | with_reducible apply State.retireRec_grows
    | with_reducible apply State.changePav_grows
    | dsimp only
    | split

theorem State.bistFail_grows {z : State} (s : State) (p : Nat) (hs : Grows z s) :
    Grows z (State.bistFail s p) := by
  unfold State.bistFail
  repeat' first
    | with_reducible assumption
    | intro _
    | with_reducible apply State.failPav_grows
    | with_reducible apply Grows.ite
    | dsimp only

theorem State.takeDummy_grows {z : State} (s : State) (p : Nat) (n : Nat) (rdead : Bool) (hs : Grows z s) :
    Grows z (State.takeDummy s p n rdead) := by
  unfold State.takeDummy
  generalize hr : State.remapCell _ _ _ _ = o
  rcases o with _ | r
  · exact State.bistFail_grows _ _ hs
  · exact State.remapCell_grows _ _ _ _ hs hr

theorem State.bistCell_grows {z : State} (s : State) (p : Nat) (cell : Nat) (rdead : Bool) (hs : Grows z s) :
    Grows z (State.bistCell s p cell rdead) := by
  unfold State.bistCell
  dsimp only
  have hs' := State.cellDead_grows s p cell rdead hs
  generalize s.cellDead p cell rdead = s' at hs' ⊢
  with_reducible apply Grows.ite
  · exact State.bistFail_grows _ _ hs'
  · with_reducible apply Grows.ite
    · generalize List.find? _ _ = o
      rcases o with _ | r
      · exact hs'
      · dsimp only
        generalize cellNumber _ _ _ = o
        rcases o with _ | n
        · exact hs'
        · exact State.takeDummy_grows _ _ _ _ hs'
    · generalize cellNumber _ _ _ = o
      rcases o with _ | n
      · exact hs'
      · exact Grows.ite _ hs' (State.takeDummy_grows _ _ _ _ hs')

theorem State.gardenLoad_grows {z : State} (s : State) (p : Nat) (a : Nat) (d : List Byte) (hs : Grows z s) :
    Grows z (State.gardenLoad s p a d) := by
  unfold State.gardenLoad
  repeat' first
    | with_reducible assumption
    | intro _
    | with_reducible apply State.each_grows
    | with_reducible apply State.modPav_grows
    | dsimp only

theorem State.dealPav_grows {z : State} (s : State) (p : Nat) (cs : List Chunk) (hs : Grows z s) :
    Grows z (State.dealPav s p cs) := by
  unfold State.dealPav
  repeat' first
    | with_reducible assumption
    | intro _
    | with_reducible apply State.each_grows
    | with_reducible apply State.stageLoad_grows
    | with_reducible apply State.gardenLoad_grows
    | with_reducible apply State.modPav_grows
    | dsimp only
    | split

theorem State.settingsPav_grows {z : State} (s : State) (p : Nat) (cs : List Chunk) (hs : Grows z s) :
    Grows z (State.settingsPav s p cs) := by
  unfold State.settingsPav
  repeat' first
    | with_reducible assumption
    | intro _
    | with_reducible apply State.each_grows
    | with_reducible apply State.modPav_grows
    | with_reducible apply Grows.ite
    | dsimp only
    | split

theorem State.moveContext_grows {z : State} (s : State) (src : Nat) (dst : Nat) (readable : Bool) (hs : Grows z s) :
    Grows z (State.moveContext s src dst readable) := by
  unfold State.moveContext
  repeat' first
    | with_reducible assumption
    | intro _
    | with_reducible apply State.fresh_grows
    | with_reducible apply State.modPav_grows
    | with_reducible apply Grows.ite
    | dsimp only

theorem State.mapPav_grows {z : State} (s : State) (a : Nat) (p : Nat) (d : Nat) (doubled : Bool) (hs : Grows z s) :
    Grows z (State.mapPav s a p d doubled) := by
  unfold State.mapPav
  repeat' first
    | with_reducible assumption
    | intro _
    | with_reducible apply State.modAllot_grows
    | dsimp only

theorem State.noRemedy_grows {z : State} (s : State) (a : Nat) (p : Nat) (hs : Grows z s) :
    Grows z (State.noRemedy s a p) := by
  unfold State.noRemedy
  repeat' first
    | with_reducible assumption
    | intro _
    | with_reducible apply State.stopJob_grows
    | with_reducible apply State.retireRec_grows
    | dsimp only

theorem State.presentedEvent_grows {z : State} (s : State) (a : Nat) (hs : Grows z s) :
    Grows z (State.presentedEvent s a) := by
  unfold State.presentedEvent
  repeat' first
    | with_reducible assumption
    | intro _
    | with_reducible apply State.event_grows
    | dsimp only

theorem State.freeSlot_grows {z : State} (s : State) (a : Nat) (c : Nat) (hs : Grows z s) :
    Grows z (State.freeSlot s a c) := by
  unfold State.freeSlot
  repeat' first
    | with_reducible assumption
    | intro _
    | with_reducible apply State.modAllot_grows
    | dsimp only
    | split

theorem State.freeOwn_grows {z : State} (s : State) (a : Nat) (d : Nat) (hs : Grows z s) :
    Grows z (State.freeOwn s a d) := by
  unfold State.freeOwn
  repeat' first
    | with_reducible assumption
    | intro _
    | with_reducible apply State.modPav_grows
    | with_reducible apply State.modAllot_grows
    | with_reducible apply Grows.ite
    | dsimp only
    | split

theorem State.double_grows {z : State} (s : State) (a : Nat) (p : Nat) (src : Nat) (left : Option Nat) (readable : Bool) (retire : Bool) (hs : Grows z s) :
    Grows z (State.double s a p src left readable retire) := by
  unfold State.double
  repeat' first
    | with_reducible assumption
    | intro _
    | with_reducible apply State.modAllot_grows
    | with_reducible apply State.noRemedy_grows
    | with_reducible apply State.modPav_grows
    | with_reducible apply State.moveContext_grows
    | with_reducible apply State.changePav_grows
    | with_reducible apply State.mapPav_grows
    | with_reducible apply State.presentedEvent_grows
    | with_reducible apply State.retireRec_grows
    | with_reducible apply State.freeSlot_grows
    | with_reducible apply Grows.ite
    | dsimp only
    | split

theorem State.place_grows {z : State} (s : State) (a : Nat) (p : Nat) (src : Nat) (left : Option Nat) (readable : Bool) (copy : Bool) (retire : Bool) (hs : Grows z s) :
    Grows z (State.place s a p src left readable copy retire) := by
  unfold State.place
  repeat' first
    | with_reducible assumption
    | intro _
    | with_reducible apply State.modPav_grows
    | with_reducible apply State.moveContext_grows
    | with_reducible apply State.settingsPav_grows
    | with_reducible apply State.dealPav_grows
    | with_reducible apply State.modAllot_grows
    | with_reducible apply State.each_grows
    | with_reducible apply State.modPlot_grows
    | with_reducible apply State.mapPav_grows
    | with_reducible apply State.freeSlot_grows
    | with_reducible apply State.changePav_grows
    | with_reducible apply State.retireRec_grows
    | with_reducible apply State.event_grows
    | with_reducible apply State.double_grows
    | with_reducible apply Grows.ite
    | dsimp only
    | split
    | with_reducible apply Grows.pavsSet

theorem State.shuffled_grows {z : State} (s : State) (a : Nat) (kind : Nat) (hs : Grows z s) :
    Grows z (State.shuffled s a kind) := by
  unfold State.shuffled
  repeat' first
    | with_reducible assumption
    | intro _
    | with_reducible apply State.modLodge_grows
    | with_reducible apply State.modAllot_grows
    | dsimp only

theorem State.offEG_grows {z : State} (s : State) (plot : Nat) (why : OffCause) (power : Nat) (hs : Grows z s) :
    Grows z (State.offEG s plot why power) := by
  unfold State.offEG
  repeat' first
    | with_reducible assumption
    | intro _
    | with_reducible apply State.modPlot_grows
    | dsimp only

theorem State.dropRxs_grows {z : State} (s : State) (plot : Nat) (k : DomainKind) (hs : Grows z s) :
    Grows z (State.dropRxs s plot k) := by
  unfold State.dropRxs
  repeat' first
    | with_reducible assumption
    | intro _
    | dsimp only
    | with_reducible apply Grows.rxsSet

theorem State.plotOn_grows {z : State} (s : State) (plot : Nat) (k : DomainKind) (hs : Grows z s) :
    Grows z (State.plotOn s plot k) := by
  unfold State.plotOn
  repeat' first
    | with_reducible assumption
    | intro _
    | with_reducible apply State.dropRxs_grows
    | with_reducible apply State.modPlot_grows
    | with_reducible apply State.eachPav_grows
    | with_reducible apply Grows.ite
    | dsimp only
    | split

theorem State.placeAll_grows {z : State} (s : State) (a : Nat) (d : Nat) (readable : Bool) (retire : Bool) (hs : Grows z s) :
    Grows z (State.placeAll s a d readable retire) := by
  unfold State.placeAll
  repeat' first
    | with_reducible assumption
    | intro _
    | with_reducible apply State.modPav_grows
    | with_reducible apply State.freeOwn_grows
    | with_reducible apply State.each_grows
    | with_reducible apply State.place_grows
    | dsimp only
    | with_reducible apply Grows.pavsSet

theorem State.plotPlace_grows {z : State} (s : State) (a : Nat) (plot : Nat) (readable : Bool) (retire : Bool) (hs : Grows z s) :
    Grows z (State.plotPlace s a plot readable retire) := by
  unfold State.plotPlace
  repeat' first
    | with_reducible assumption
    | intro _
    | with_reducible apply State.modPlot_grows
    | with_reducible apply State.each_grows
    | with_reducible apply State.placeAll_grows
    | dsimp only

theorem State.freezePlot_grows {z : State} (s : State) (plot : Nat) (c : FreezeCause) (hs : Grows z s) :
    Grows z (State.freezePlot s plot c) := by
  unfold State.freezePlot
  repeat' first
    | with_reducible assumption
    | intro _
    | with_reducible apply State.recover_grows
    | dsimp only
    | split

theorem State.toReserves_grows {z : State} (s : State) (plot : Nat) (hs : Grows z s) :
    Grows z (State.toReserves s plot) := by
  unfold State.toReserves
  repeat' first
    | with_reducible assumption
    | intro _
    | with_reducible apply State.eachPav_grows
    | with_reducible apply Grows.ite
    | dsimp only

theorem State.shedPlot_grows {z : State} (s : State) (plot : Nat) (why : OffCause) (power : Nat) (hs : Grows z s) :
    Grows z (State.shedPlot s plot why power) := by
  unfold State.shedPlot
  repeat' first
    | with_reducible assumption
    | intro _
    | with_reducible apply State.plotPlace_grows
    | with_reducible apply State.freezePlot_grows
    | with_reducible apply State.offEG_grows
    | with_reducible apply Grows.ite
    | dsimp only
    | split

theorem State.backPlot_grows {z : State} (s : State) (plot : Nat) (hs : Grows z s) :
    Grows z (State.backPlot s plot) := by
  unfold State.backPlot
  repeat' first
    | with_reducible assumption
    | intro _
    | with_reducible apply State.plotOn_grows
    | with_reducible apply State.modPlot_grows
    | with_reducible apply State.toReserves_grows
    | with_reducible apply Grows.ite
    | dsimp only

theorem State.openPlot_grows {z : State} (s : State) (plot : Nat) (failedDrill : List Nat) (hs : Grows z s) :
    Grows z (State.openPlot s plot failedDrill) := by
  unfold State.openPlot
  repeat' first
    | with_reducible assumption
    | intro _
    | with_reducible apply State.modPlot_grows
    | with_reducible apply State.each_grows
    | with_reducible apply State.modPav_grows
    | with_reducible apply State.backPlot_grows
    | with_reducible apply Grows.ite
    | dsimp only

theorem State.closePlot_grows {z : State} (s : State) (plot : Nat) (hs : Grows z s) :
    Grows z (State.closePlot s plot) := by
  unfold State.closePlot
  repeat' first
    | with_reducible assumption
    | intro _
    | with_reducible apply State.modPlot_grows
    | with_reducible apply State.shedPlot_grows
    | with_reducible apply State.openPlot_grows
    | with_reducible apply State.fresh_grows
    | with_reducible apply State.event_grows
    | with_reducible apply Grows.ite
    | dsimp only

theorem State.plotOpened_grows {z : State} (s : State) (plot : Nat) (hs : Grows z s) :
    Grows z (State.plotOpened s plot) := by
  unfold State.plotOpened
  repeat' first
    | with_reducible assumption
    | intro _
    | with_reducible apply State.modPlot_grows
    | with_reducible apply State.event_grows
    | with_reducible apply Grows.ite
    | dsimp only

theorem State.closePav_grows {z : State} (s : State) (p : Nat) (hs : Grows z s) :
    Grows z (State.closePav s p) := by
  unfold State.closePav
  repeat' first
    | with_reducible assumption
    | intro _
    | with_reducible apply State.stopJob_grows
    | with_reducible apply State.modLaunch_grows
    | with_reducible apply State.modPav_grows
    | dsimp only
    | split

theorem State.openPav_grows {z : State} (s : State) (p : Nat) (drillOk : Bool) (hs : Grows z s) :
    Grows z (State.openPav s p drillOk) := by
  unfold State.openPav
  repeat' first
    | with_reducible assumption
    | intro _
    | with_reducible apply State.modPav_grows
    | with_reducible apply State.settingsPav_grows
    | with_reducible apply State.dealPav_grows
    | with_reducible apply State.shuffled_grows
    | with_reducible apply State.placeAll_grows
    | with_reducible apply State.failPav_grows
    | with_reducible apply Grows.ite
    | dsimp only
    | split

theorem State.afterShuffle_grows {z : State} (s : State) (a : Nat) (hs : Grows z s) :
    Grows z (State.afterShuffle s a) := by
  unfold State.afterShuffle
  repeat' first
    | with_reducible assumption
    | intro _
    | with_reducible apply State.each_grows
    | with_reducible apply State.closePlot_grows
    | with_reducible apply State.closePav_grows
    | with_reducible apply State.event_grows
    | with_reducible apply State.openPav_grows
    | with_reducible apply State.fresh_grows
    | with_reducible apply Grows.ite
    | dsimp only

theorem State.shuffleEnd_grows {z : State} (s : State) (a : Nat) (kind : Nat) (hs : Grows z s) :
    Grows z (State.shuffleEnd s a kind) := by
  unfold State.shuffleEnd
  repeat' first
    | with_reducible assumption
    | intro _
    | with_reducible apply State.afterShuffle_grows
    | with_reducible apply State.shuffled_grows
    | dsimp only

theorem State.loseH_grows {z : State} (s : State) (p : PlotIx) (hs : Grows z s) :
    Grows z (State.loseH s p) := by
  unfold State.loseH
  repeat' first
    | with_reducible assumption
    | intro _
    | with_reducible apply State.modPlot_grows
    | with_reducible apply State.event_grows
    | with_reducible apply State.offEG_grows
    | with_reducible apply State.each_grows
    | with_reducible apply State.withdraw_grows
    | with_reducible apply Grows.ite
    | dsimp only

theorem State.endRun_grows {z : State} (s : State) (p : Nat) (hs : Grows z s) :
    Grows z (State.endRun s p) := by
  unfold State.endRun
  repeat' first
    | with_reducible assumption
    | intro _
    | with_reducible apply State.modPav_grows
    | with_reducible apply State.settingsPav_grows
    | with_reducible apply Grows.ite
    | dsimp only
    | split

theorem State.endRuns_grows {z : State} (s : State) (a : Nat) (hs : Grows z s) :
    Grows z (State.endRuns s a) := by
  unfold State.endRuns
  repeat' first
    | with_reducible assumption
    | intro _
    | with_reducible apply State.each_grows
    | with_reducible apply State.modPav_grows
    | with_reducible apply State.endRun_grows
    | dsimp only

theorem State.settleStop_grows {z : State} (s : State) (hs : Grows z s) :
    Grows z (State.settleStop s) := by
  unfold State.settleStop
  repeat' first
    | with_reducible assumption
    | intro _
    | with_reducible apply State.event_grows
    | with_reducible apply State.modLodge_grows
    | with_reducible apply Grows.ite
    | dsimp only

theorem State.finishJob_grows {z : State} (s : State) (a : Nat) (j : Job) (status : Nat) (hs : Grows z s) :
    Grows z (State.finishJob s a j status) := by
  unfold State.finishJob
  repeat' first
    | with_reducible assumption
    | intro _
    | with_reducible apply State.endRuns_grows
    | with_reducible apply State.modQueue_grows
    | with_reducible apply State.modAllot_grows
    | with_reducible apply State.settleStop_grows
    | with_reducible apply State.startHeld_grows
    | with_reducible apply State.completeWake_grows
    | with_reducible apply Grows.ite
    | dsimp only

end Sys2Proof.Machine
end

