-- ==== Sys2Proof/Laws/GrowsAllots.lean ====
section
/-! SUPPORT. The operations of Machine/Allots.lean keep `Grows` (Laws/Grows.lean). -/

namespace Sys2Proof.Machine

theorem State.scrubStart_grows {z : State} (s : State) (p : Nat) (hs : Grows z s) :
    Grows z (State.scrubStart s p) := by
  unfold State.scrubStart
  repeat' first
    | with_reducible assumption
    | intro _
    | with_reducible apply State.progressTo_grows
    | with_reducible apply State.modPlot_grows
    | dsimp only

theorem State.startOpen_grows {z : State} (s : State) (a : Nat) (pending : Bool) (hs : Grows z s) :
    Grows z (State.startOpen s a pending) := by
  unfold State.startOpen
  repeat' first
    | with_reducible assumption
    | intro _
    | with_reducible apply State.modLodge_grows
    | with_reducible apply State.modAllot_grows
    | with_reducible apply State.each_grows
    | with_reducible apply State.scrubStart_grows
    | with_reducible apply State.progressTo_grows
    | dsimp only

theorem State.allotEnable_grows {z : State} (s : State) (a : Nat) (hs : Grows z s) :
    Grows z (State.allotEnable s a).2 := by
  unfold State.allotEnable
  repeat' first
    | with_reducible assumption
    | intro _
    | with_reducible apply State.modAllot_grows
    | with_reducible apply State.startOpen_grows
    | with_reducible apply Grows.ite
    | dsimp only
    | split

theorem State.idleFn_grows {z : State} (s : State) (h : Nat) (f : Nat) (hs : Grows z s) :
    Grows z (State.idleFn s h f) := by
  unfold State.idleFn
  repeat' first
    | with_reducible assumption
    | intro _
    | with_reducible apply State.modFn_grows
    | dsimp only

theorem State.putParcel_grows {z : State} (s : State) (a : Nat) (hs : Grows z s) :
    Grows z (State.putParcel s a) := by
  unfold State.putParcel
  repeat' first
    | with_reducible assumption
    | intro _
    | with_reducible apply State.modAllot_grows
    | with_reducible apply State.each_grows
    | with_reducible apply State.settingsPav_grows
    | dsimp only
    | split

theorem State.replaceFailed_grows {z : State} (s : State) (a : Nat) (want : Nat → Bool) (hs : Grows z s) :
    Grows z (State.replaceFailed s a want) := by
  unfold State.replaceFailed
  repeat' first
    | with_reducible assumption
    | intro _
    | with_reducible apply State.each_grows
    | with_reducible apply State.place_grows
    | dsimp only

theorem State.dropDeal_grows {z : State} (s : State) (a : Nat) (hs : Grows z s) :
    Grows z (State.dropDeal s a) := by
  unfold State.dropDeal
  repeat' first
    | with_reducible assumption
    | intro _
    | with_reducible apply State.modLodge_grows
    | with_reducible apply State.modAllot_grows
    | with_reducible apply Grows.ite
    | dsimp only

theorem State.emptySlot_grows {z : State} (s : State) (n : Nat) (hs : Grows z s) :
    Grows z (State.emptySlot s n) := by
  unfold State.emptySlot
  repeat' first
    | with_reducible assumption
    | intro _
    | with_reducible apply State.flashWrite_grows
    | with_reducible apply State.modLodge_grows
    | dsimp only

theorem State.closeSteps_grows {z : State} (s : State) (a : Nat) (hs : Grows z s) :
    Grows z (State.closeSteps s a) := by
  unfold State.closeSteps
  repeat' first
    | with_reducible assumption
    | intro _
    | with_reducible apply State.finishJob_grows
    | with_reducible apply State.each_grows
    | with_reducible apply State.emptySlot_grows
    | with_reducible apply State.complete_grows
    | with_reducible apply State.closeWindows_grows
    | with_reducible apply State.wake_grows
    | with_reducible apply State.modAllot_grows
    | with_reducible apply Grows.ite
    | dsimp only
    | split

theorem State.allotDisable_grows {z : State} (s : State) (a : Nat) (hs : Grows z s) :
    Grows z (State.allotDisable s a).2 := by
  unfold State.allotDisable
  repeat' first
    | with_reducible assumption
    | intro _
    | with_reducible apply State.modAllot_grows
    | with_reducible apply State.dropDeal_grows
    | with_reducible apply State.closeSteps_grows
    | with_reducible apply Grows.ite
    | dsimp only
    | split

theorem State.resetWindows_grows {z : State} (s : State) (hs : Grows z s) :
    Grows z (State.resetWindows s) := by
  unfold State.resetWindows
  repeat' first
    | with_reducible assumption
    | intro _
    | with_reducible apply State.each_grows
    | with_reducible apply State.fresh_grows
    | with_reducible apply State.modSrv_grows
    | dsimp only

theorem State.computeReset_grows {z : State} (s : State) (hs : Grows z s) :
    Grows z (State.computeReset s) := by
  unfold State.computeReset
  repeat' first
    | with_reducible assumption
    | intro _
    | with_reducible apply State.each_grows
    | with_reducible apply State.dropRxs_grows
    | with_reducible apply State.eachPav_grows
    | with_reducible apply State.modPlot_grows
    | with_reducible apply State.resetWindows_grows
    | with_reducible apply State.modLodge_grows
    | with_reducible apply State.event_grows
    | with_reducible apply State.progressTo_grows
    | with_reducible apply Grows.ite
    | dsimp only
    | split
    | with_reducible apply Grows.linksSet

end Sys2Proof.Machine
end

