-- ==== Sys2Proof/Laws/GrowsCells.lean ====
section
/-! SUPPORT. The operations of Machine/Cells.lean keep `Grows` (Laws/Grows.lean). -/

namespace Sys2Proof.Machine

theorem State.onCore_grows {z : State} (s : State) (c : CellXY) (f : Nat → Nat → Core → State) (hs : Grows z s) (hf : ∀ v0 v1 v2, Grows z (f v0 v1 v2)) :
    GrowsR z (State.onCore s c f) := by
  unfold State.onCore
  repeat' first
    | with_reducible assumption
    | intro _
    | with_reducible apply hf
    | with_reducible apply GrowsR.next
    | with_reducible apply onlyIf_grows
    | dsimp only
    | split

theorem State.trapStop_grows {z : State} (s : State) (p : Nat) (n : Nat) (cause : Nat) (hs : Grows z s) :
    Grows z (State.trapStop s p n cause) := by
  unfold State.trapStop
  repeat' first
    | with_reducible assumption
    | intro _
    | with_reducible apply State.stopJobOf_grows
    | with_reducible apply State.record_grows
    | with_reducible apply State.setCore_grows
    | dsimp only

theorem State.alu_grows {z : State} (s : State) (c : CellXY) (gd : RegIx) (f : Core → Word) (hs : Grows z s) :
    GrowsR z (State.alu s c gd f) := by
  unfold State.alu
  repeat' first
    | with_reducible assumption
    | intro _
    | with_reducible apply GrowsR.next
    | with_reducible apply State.onCore_grows
    | with_reducible apply State.setCore_grows
    | dsimp only

theorem State.aluOpen_grows {z : State} (s : State) (c : CellXY) (gd : RegIx) (op : Nat) (a : Core → Word) (b : Core → Word) (f : Core → Option Word) (hs : Grows z s) :
    GrowsR z (State.aluOpen s c gd op a b f) := by
  unfold State.aluOpen
  repeat' first
    | with_reducible assumption
    | intro _
    | with_reducible apply GrowsR.next
    | with_reducible apply State.onCore_grows
    | with_reducible apply State.setCore_grows
    | with_reducible apply State.fresh_grows
    | dsimp only
    | split

theorem State.fpu_grows {z : State} (s : State) (c : CellXY) (gd : RegIx) (f : Core → Word × Flags) (hs : Grows z s) :
    GrowsR z (State.fpu s c gd f) := by
  unfold State.fpu
  repeat' first
    | with_reducible assumption
    | intro _
    | with_reducible apply GrowsR.next
    | with_reducible apply State.onCore_grows
    | with_reducible apply State.setCore_grows
    | dsimp only

theorem State.fpuOpen_grows {z : State} (s : State) (c : CellXY) (gd : RegIx) (op : Nat) (a : Core → Word) (b : Core → Word) (f : Core → Option Word × Flags) (hs : Grows z s) :
    GrowsR z (State.fpuOpen s c gd op a b f) := by
  unfold State.fpuOpen
  repeat' first
    | with_reducible assumption
    | intro _
    | with_reducible apply GrowsR.next
    | with_reducible apply State.onCore_grows
    | with_reducible apply State.setCore_grows
    | with_reducible apply State.fresh_grows
    | dsimp only
    | split

theorem State.access_grows {z : State} (s : State) (p : Nat) (n : Nat) (k : Core) (addr : Nat) (size : Nat) (f : Nat → State) (hs : Grows z s) (hf : ∀ v0, Grows z (f v0)) :
    Grows z (State.access s p n k addr size f) := by
  unfold State.access
  repeat' first
    | with_reducible assumption
    | intro _
    | with_reducible apply hf
    | with_reducible apply State.trapStop_grows
    | dsimp only
    | split

theorem State.coreLoad_grows {z : State} (s : State) (p : Nat) (n : Nat) (a : Nat) (size : Nat) (cause : Nat) (f : Nat → Core → Core) (hs : Grows z s) :
    Grows z (State.coreLoad s p n a size cause f) := by
  unfold State.coreLoad
  repeat' first
    | with_reducible assumption
    | intro _
    | with_reducible apply State.gardenRead_grows
    | with_reducible apply State.consume_grows
    | with_reducible apply State.setCore_grows
    | with_reducible apply Grows.ite
    | dsimp only

theorem State.coreStore_grows {z : State} (s : State) (p : Nat) (a : Nat) (size : Nat) (v : Nat) (hs : Grows z s) :
    Grows z (State.coreStore s p a size v) := by
  unfold State.coreStore
  repeat' first
    | with_reducible assumption
    | intro _
    | with_reducible apply State.mergeRow_grows
    | with_reducible apply State.rowPut_grows
    | with_reducible apply State.modPav_grows
    | with_reducible apply State.touchWatch_grows
    | with_reducible apply State.modSeq_grows
    | dsimp only

end Sys2Proof.Machine
end

