-- ==== Sys2Proof/Laws/GrowsDict.lean ====
section
/-! SUPPORT. The operations of Machine/Dict.lean keep `Grows` (Laws/Grows.lean). -/

namespace Sys2Proof.Machine

theorem State.clearCounter_grows {z : State} (s : State) (i : Nat) (sub : Nat) (hs : Grows z s) :
    Grows z (State.clearCounter s i sub) := by
  unfold State.clearCounter
  repeat' first
    | with_reducible assumption
    | intro _
    | with_reducible apply State.modLodge_grows
    | with_reducible apply State.modPlot_grows
    | with_reducible apply State.modPav_grows
    | with_reducible apply State.modStack_grows
    | with_reducible apply Grows.ite
    | dsimp only
    | split

theorem State.logRead_grows {z : State} (s : State) (r : Reader) (hs : Grows z s) :
    Grows z (State.logRead s r).2.2 := by
  unfold State.logRead
  repeat' first
    | with_reducible assumption
    | intro _
    | with_reducible apply State.modLodge_grows
    | dsimp only
    | split

theorem State.lostRead_grows {z : State} (s : State) (r : Reader) (hs : Grows z s) :
    Grows z (State.lostRead s r).2 := by
  unfold State.lostRead
  repeat' first
    | with_reducible assumption
    | intro _
    | with_reducible apply State.modLodge_grows
    | dsimp only

end Sys2Proof.Machine
end

