-- ==== Sys2Proof/Laws/GrowsSessions.lean ====
section
/-! SUPPORT. The operations of Machine/Sessions.lean keep `Grows` (Laws/Grows.lean). -/

namespace Sys2Proof.Machine

theorem State.tagged_grows {z : State} (s : State) (f : HFrame) (hs : Grows z s) :
    Grows z (State.tagged s f).2 := by
  unfold State.tagged
  repeat' first
    | with_reducible assumption
    | intro _
    | with_reducible apply State.modLodge_grows
    | with_reducible apply Grows.ite
    | dsimp only
    | split

theorem State.sendRing_grows {z : State} (s : State) (f : HFrame) (hs : Grows z s) :
    Grows z (State.sendRing s f) := by
  unfold State.sendRing
  repeat' first
    | with_reducible assumption
    | intro _
    | with_reducible apply State.tagged_grows
    | with_reducible apply State.ringOut_grows
    | dsimp only

theorem State.nextSeq_grows {z : State} (s : State) (hs : Grows z s) :
    Grows z (State.nextSeq s).2 := by
  unfold State.nextSeq
  repeat' first
    | with_reducible assumption
    | intro _
    | with_reducible apply State.modLodge_grows
    | dsimp only

theorem State.respond_grows {z : State} (s : State) (f : HFrame) (code : Nat) (d : List Byte) (hs : Grows z s) :
    Grows z (State.respond s f code d) := by
  unfold State.respond
  repeat' first
    | with_reducible assumption
    | intro _
    | with_reducible apply State.sendRing_grows
    | with_reducible apply Grows.ite
    | dsimp only

theorem State.sendStep_grows {z : State} (s : State) (step : Nat) (dst : Nat) (session : Nat) (d : List Byte) (hs : Grows z s) :
    Grows z (State.sendStep s step dst session d) := by
  unfold State.sendStep
  repeat' first
    | with_reducible assumption
    | intro _
    | with_reducible apply State.each_grows
    | with_reducible apply State.nextSeq_grows
    | with_reducible apply State.sendRing_grows
    | dsimp only

theorem State.hello_grows {z : State} (s : State) (f : HFrame) (d : List Byte) (hs : Grows z s) :
    Grows z (State.hello s f d) := by
  unfold State.hello
  repeat' first
    | with_reducible assumption
    | intro _
    | with_reducible apply State.respond_grows
    | with_reducible apply State.fresh_grows
    | with_reducible apply State.modLodge_grows
    | with_reducible apply State.sendStep_grows
    | with_reducible apply Grows.ite
    | dsimp only

theorem State.accept_grows {z : State} (s : State) (f : HFrame) (d : List Byte) (hs : Grows z s) :
    Grows z (State.accept s f d) := by
  unfold State.accept
  repeat' first
    | with_reducible assumption
    | intro _
    | with_reducible apply State.respond_grows
    | with_reducible apply State.modLodge_grows
    | with_reducible apply State.sendStep_grows
    | with_reducible apply Grows.ite
    | dsimp only
    | split

theorem State.endSession_grows {z : State} (s : State) (n : BitVec 16) (hs : Grows z s) :
    Grows z (State.endSession s n) := by
  unfold State.endSession
  repeat' first
    | with_reducible assumption
    | intro _
    | with_reducible apply State.modLodge_grows
    | dsimp only

theorem State.closeSession_grows {z : State} (s : State) (f : HFrame) (d : List Byte) (hs : Grows z s) :
    Grows z (State.closeSession s f d) := by
  unfold State.closeSession
  repeat' first
    | with_reducible assumption
    | intro _
    | with_reducible apply State.respond_grows
    | with_reducible apply State.endSession_grows
    | with_reducible apply Grows.ite
    | dsimp only

theorem State.wkeySet_grows {z : State} (s : State) (x : Session) (f : HFrame) (d : List Byte) (hs : Grows z s) :
    Grows z (State.wkeySet s x f d) := by
  unfold State.wkeySet
  repeat' first
    | with_reducible assumption
    | intro _
    | with_reducible apply State.respond_grows
    | with_reducible apply State.modAllot_grows
    | with_reducible apply Grows.ite
    | dsimp only
    | split

theorem State.wkeyDel_grows {z : State} (s : State) (f : HFrame) (d : List Byte) (hs : Grows z s) :
    Grows z (State.wkeyDel s f d) := by
  unfold State.wkeyDel
  repeat' first
    | with_reducible assumption
    | intro _
    | with_reducible apply State.respond_grows
    | with_reducible apply State.modAllot_grows
    | with_reducible apply Grows.ite
    | dsimp only

theorem State.ownersSet_grows {z : State} (s : State) (x : Session) (f : HFrame) (d : List Byte) (hs : Grows z s) :
    Grows z (State.ownersSet s x f d) := by
  unfold State.ownersSet
  repeat' first
    | with_reducible assumption
    | intro _
    | with_reducible apply State.respond_grows
    | with_reducible apply State.flashWrite_grows
    | with_reducible apply State.modLodge_grows
    | with_reducible apply Grows.ite
    | dsimp only

theorem State.runStep_grows {z : State} (s : State) (step : Nat) (f : HFrame) (d : List Byte) (hs : Grows z s) :
    Grows z (State.runStep s step f d) := by
  unfold State.runStep
  repeat' first
    | with_reducible assumption
    | intro _
    | with_reducible apply State.closeSession_grows
    | with_reducible apply State.respond_grows
    | with_reducible apply State.wkeySet_grows
    | with_reducible apply State.wkeyDel_grows
    | with_reducible apply State.ownersSet_grows
    | with_reducible apply State.hello_grows
    | with_reducible apply State.accept_grows
    | with_reducible apply Grows.ite
    | dsimp only
    | split

theorem State.stepFragment_grows {z : State} (s : State) (f : HFrame) (hs : Grows z s) :
    Grows z (State.stepFragment s f) := by
  unfold State.stepFragment
  repeat' first
    | with_reducible assumption
    | intro _
    | with_reducible apply State.respond_grows
    | with_reducible apply State.modLodge_grows
    | with_reducible apply State.runStep_grows
    | with_reducible apply Grows.ite
    | dsimp only
    | split

theorem State.reportRead_grows {z : State} (s : State) (r : Requester) (hs : Grows z s) :
    Grows z (State.reportRead s r).2.2 := by
  unfold State.reportRead
  repeat' first
    | with_reducible assumption
    | intro _
    | with_reducible apply State.modLodge_grows
    | dsimp only
    | split

theorem State.closeAll_grows {z : State} (s : State) (hs : Grows z s) :
    Grows z (State.closeAll s) := by
  unfold State.closeAll
  repeat' first
    | with_reducible assumption
    | intro _
    | with_reducible apply State.each_grows
    | with_reducible apply State.closeSteps_grows
    | with_reducible apply State.modAllot_grows
    | with_reducible apply State.windowEnd_grows
    | with_reducible apply State.idleFn_grows
    | with_reducible apply Grows.ite
    | dsimp only
    | with_reducible apply Grows.plotsSet

theorem State.debugErase_grows {z : State} (s : State) (hs : Grows z s) :
    Grows z (State.debugErase s) := by
  unfold State.debugErase
  repeat' first
    | with_reducible assumption
    | intro _
    | with_reducible apply State.modLodge_grows
    | with_reducible apply State.each_grows
    | with_reducible apply State.modPav_grows
    | with_reducible apply State.modPlot_grows
    | with_reducible apply State.progressEnd_grows
    | with_reducible apply State.progressTo_grows
    | with_reducible apply State.emit_grows
    | with_reducible apply State.event_grows
    | exact Store.wf_empty
    | dsimp only
    | with_reducible apply Grows.hbmSet

theorem State.debugOpening_grows {z : State} (s : State) (hs : Grows z s) :
    Grows z (State.debugOpening s) := by
  unfold State.debugOpening
  repeat' first
    | with_reducible assumption
    | intro _
    | with_reducible apply State.modLodge_grows
    | with_reducible apply State.closeAll_grows
    | with_reducible apply State.debugErase_grows
    | with_reducible apply State.event_grows
    | with_reducible apply Grows.ite
    | dsimp only

theorem State.unlockWrite_grows {z : State} (s : State) (r : Requester) (token : List Byte) (hs : Grows z s) :
    Grows z (State.unlockWrite s r token).2 := by
  unfold State.unlockWrite
  repeat' first
    | with_reducible assumption
    | intro _
    | with_reducible apply State.modLodge_grows
    | with_reducible apply State.debugOpening_grows
    | with_reducible apply Grows.ite
    | dsimp only
    | split

end Sys2Proof.Machine
end

