-- ==== Sys2Proof/Laws/GrowsDictWrite.lean ====
section
/-! SUPPORT. The operations of Machine/DictWrite.lean keep `Grows` (Laws/Grows.lean). -/

namespace Sys2Proof.Machine

theorem State.answer_grows {z : State} (s : State) (r : Requester) (code : Nat) (data : List Byte) (hs : Grows z s) :
    Grows z (State.answer s r code data) := by
  unfold State.answer
  repeat' first
    | with_reducible assumption
    | intro _
    | with_reducible apply State.emit_grows
    | dsimp only

theorem ranged_grows {z : State} (ok : Bool) (s : State) (t : State) (hs : Grows z s) (ht : Grows z t) :
    Grows z (ranged ok s t).2 := by
  unfold ranged
  repeat' first
    | with_reducible assumption
    | intro _
    | with_reducible apply Grows.ite
    | with_reducible apply Grows.ite2
    | with_reducible apply Grows.ite3
    | dsimp only
    | split

theorem State.keepSet_grows {z : State} (s : State) (f : Settings → Settings) (hs : Grows z s) :
    Grows z (State.keepSet s f) := by
  unfold State.keepSet
  repeat' first
    | with_reducible assumption
    | intro _
    | with_reducible apply State.flashWrite_grows
    | with_reducible apply State.modLodge_grows
    | dsimp only

theorem State.toState_grows {z : State} (s : State) (n : Nat) (hs : Grows z s) :
    Grows z (State.toState s n) := by
  unfold State.toState
  repeat' first
    | with_reducible assumption
    | intro _
    | with_reducible apply State.event_grows
    | with_reducible apply State.modLodge_grows
    | dsimp only

theorem State.moduleWrite_grows {z : State} (s : State) (n : Nat) (hs : Grows z s) :
    Grows z (State.moduleWrite s n).2 := by
  unfold State.moduleWrite
  repeat' first
    | with_reducible assumption
    | intro _
    | with_reducible apply State.toState_grows
    | with_reducible apply State.computeReset_grows
    | with_reducible apply Grows.ite
    | with_reducible apply Grows.ite2
    | with_reducible apply Grows.ite3
    | dsimp only
    | split

theorem State.setStation_grows {z : State} (s : State) (n : Nat) (hs : Grows z s) :
    Grows z (State.setStation s n) := by
  unfold State.setStation
  repeat' first
    | with_reducible assumption
    | intro _
    | with_reducible apply State.keepSet_grows
    | dsimp only

theorem State.ringWrite_grows {z : State} (s : State) (sub : Nat) (n : Nat) (v : List Byte) (hs : Grows z s) :
    Grows z (State.ringWrite s sub n v).2 := by
  unfold State.ringWrite
  repeat' first
    | with_reducible assumption
    | intro _
    | with_reducible apply ranged_grows
    | with_reducible apply State.setStation_grows
    | with_reducible apply State.keepSet_grows
    | with_reducible apply State.modLodge_grows
    | with_reducible apply Grows.ite
    | dsimp only
    | split

theorem State.settingWrite_grows {z : State} (s : State) (sub : Nat) (n : Nat) (hs : Grows z s) :
    Grows z (State.settingWrite s sub n).2 := by
  unfold State.settingWrite
  repeat' first
    | with_reducible assumption
    | intro _
    | with_reducible apply State.moduleWrite_grows
    | with_reducible apply ranged_grows
    | with_reducible apply State.keepSet_grows
    | with_reducible apply State.modLodge_grows
    | dsimp only
    | split

theorem State.plotWrite_grows {z : State} (s : State) (p : Nat) (n : Nat) (failedDrill : List Nat) (hs : Grows z s) :
    Grows z (State.plotWrite s p n failedDrill).2 := by
  unfold State.plotWrite
  repeat' first
    | with_reducible assumption
    | intro _
    | with_reducible apply State.modPlot_grows
    | with_reducible apply State.closePlot_grows
    | with_reducible apply State.openPlot_grows
    | with_reducible apply Grows.ite
    | dsimp only
    | split

theorem State.pavWrite_grows {z : State} (s : State) (p : Nat) (n : Nat) (drillOk : Bool) (hs : Grows z s) :
    Grows z (State.pavWrite s p n drillOk).2 := by
  unfold State.pavWrite
  repeat' first
    | with_reducible assumption
    | intro _
    | with_reducible apply State.modPav_grows
    | with_reducible apply State.closePav_grows
    | with_reducible apply State.openPav_grows
    | with_reducible apply Grows.ite
    | dsimp only
    | split

theorem State.rearm_grows {z : State} (s : State) (p : Nat) (bits : BitVec 64) (hs : Grows z s) :
    Grows z (State.rearm s p bits) := by
  unfold State.rearm
  repeat' first
    | with_reducible assumption
    | intro _
    | with_reducible apply State.modPav_grows
    | dsimp only

theorem State.takeOverlay_grows {z : State} (s : State) (a : Nat) (hs : Grows z s) :
    Grows z (State.takeOverlay s a) := by
  unfold State.takeOverlay
  repeat' first
    | with_reducible assumption
    | intro _
    | with_reducible apply State.modAllot_grows
    | with_reducible apply State.each_grows
    | with_reducible apply State.modPav_grows
    | with_reducible apply State.settingsPav_grows
    | with_reducible apply Grows.ite
    | dsimp only
    | split

theorem State.overlayWrite_grows {z : State} (s : State) (a : Nat) (n : Nat) (hs : Grows z s) :
    Grows z (State.overlayWrite s a n).2 := by
  unfold State.overlayWrite
  repeat' first
    | with_reducible assumption
    | intro _
    | with_reducible apply State.modAllot_grows
    | with_reducible apply State.takeOverlay_grows
    | with_reducible apply Grows.ite
    | with_reducible apply Grows.ite2
    | with_reducible apply Grows.ite3
    | dsimp only
    | split

theorem State.attachWrite_grows {z : State} (s : State) (a : Nat) (n : Nat) (hs : Grows z s) :
    Grows z (State.attachWrite s a n).2 := by
  unfold State.attachWrite
  repeat' first
    | with_reducible assumption
    | intro _
    | with_reducible apply State.modAllot_grows
    | with_reducible apply Grows.ite
    | with_reducible apply Grows.ite2
    | with_reducible apply Grows.ite3
    | dsimp only
    | split

theorem State.portsWrite_grows {z : State} (s : State) (a : Nat) (v : BitVec 16) (hs : Grows z s) :
    Grows z (State.portsWrite s a v).2 := by
  unfold State.portsWrite
  repeat' first
    | with_reducible assumption
    | intro _
    | with_reducible apply State.each_grows
    | with_reducible apply State.closeWindows_grows
    | with_reducible apply State.modAllot_grows
    | with_reducible apply Grows.ite
    | with_reducible apply Grows.ite2
    | with_reducible apply Grows.ite3
    | dsimp only
    | split

theorem State.allotWriteObj_grows {z : State} (s : State) (a : Nat) (sub : Nat) (n : Nat) (v : List Byte) (hs : Grows z s) :
    Grows z (State.allotWriteObj s a sub n v).2 := by
  unfold State.allotWriteObj
  repeat' first
    | with_reducible assumption
    | intro _
    | with_reducible apply ranged_grows
    | with_reducible apply State.modAllot_grows
    | with_reducible apply State.allotEnable_grows
    | with_reducible apply State.allotDisable_grows
    | with_reducible apply State.attachWrite_grows
    | with_reducible apply State.portsWrite_grows
    | with_reducible apply State.overlayWrite_grows
    | with_reducible apply Grows.ite
    | dsimp only
    | split
    | with_reducible apply Grows.plotsSet

theorem State.quiesceFn_grows {z : State} (s : State) (h : Nat) (f : Nat) (hs : Grows z s) :
    Grows z (State.quiesceFn s h f) := by
  unfold State.quiesceFn
  repeat' first
    | with_reducible assumption
    | intro _
    | with_reducible apply State.endRuns_grows
    | with_reducible apply State.stopIssue_grows
    | with_reducible apply State.settleStop_grows
    | with_reducible apply State.modAllot_grows
    | with_reducible apply State.modFn_grows
    | with_reducible apply Grows.ite
    | dsimp only
    | split

theorem State.quiescePort_grows {z : State} (s : State) (h : Nat) (hs : Grows z s) :
    Grows z (State.quiescePort s h) := by
  unfold State.quiescePort
  repeat' first
    | with_reducible assumption
    | intro _
    | with_reducible apply State.each_grows
    | with_reducible apply State.quiesceFn_grows
    | dsimp only

theorem State.latchBars_grows {z : State} (s : State) (h : Nat) (hs : Grows z s) :
    Grows z (State.latchBars s h) := by
  unfold State.latchBars
  repeat' first
    | with_reducible assumption
    | intro _
    | with_reducible apply State.each_grows
    | with_reducible apply State.modFn_grows
    | dsimp only
    | split

theorem State.hostPortWrite_grows {z : State} (s : State) (h : Nat) (n : Nat) (hs : Grows z s) :
    Grows z (State.hostPortWrite s h n).2 := by
  unfold State.hostPortWrite
  repeat' first
    | with_reducible assumption
    | intro _
    | with_reducible apply State.latchBars_grows
    | with_reducible apply State.modHost_grows
    | with_reducible apply State.quiescePort_grows
    | dsimp only
    | split

theorem State.srvWrite_grows {z : State} (s : State) (n : Nat) (v : Nat) (hs : Grows z s) :
    Grows z (State.srvWrite s n v).2 := by
  unfold State.srvWrite
  repeat' first
    | with_reducible assumption
    | intro _
    | with_reducible apply State.modSrv_grows
    | with_reducible apply State.settleSrv_grows
    | with_reducible apply State.closeWindows_grows
    | dsimp only
    | split

theorem State.storeImage_grows {z : State} (s : State) (n : Nat) (d : List Byte) (writer : Option AllotIx) (hs : Grows z s) :
    Grows z (State.storeImage s n d writer) := by
  unfold State.storeImage
  repeat' first
    | with_reducible assumption
    | intro _
    | with_reducible apply State.progressTo_grows
    | with_reducible apply State.flashWrite_grows
    | with_reducible apply State.modLodge_grows
    | dsimp only

theorem State.imageWrite_grows {z : State} (s : State) (n : Nat) (d : List Byte) (hs : Grows z s) :
    Grows z (State.imageWrite s n d).2 := by
  unfold State.imageWrite
  repeat' first
    | with_reducible assumption
    | intro _
    | with_reducible apply State.storeImage_grows
    | with_reducible apply Grows.ite
    | with_reducible apply Grows.ite2
    | with_reducible apply Grows.ite3
    | dsimp only
    | split

theorem State.packageWrite_grows {z : State} (s : State) (d : List Byte) (hs : Grows z s) :
    Grows z (State.packageWrite s d).2 := by
  unfold State.packageWrite
  repeat' first
    | with_reducible assumption
    | intro _
    | with_reducible apply State.progressTo_grows
    | with_reducible apply State.modLodge_grows
    | with_reducible apply Grows.ite
    | with_reducible apply Grows.ite2
    | with_reducible apply Grows.ite3
    | dsimp only
    | split

theorem State.firmwareWrite_grows {z : State} (s : State) (d : List Byte) (hs : Grows z s) :
    Grows z (State.firmwareWrite s d).2 := by
  unfold State.firmwareWrite
  repeat' first
    | with_reducible assumption
    | intro _
    | with_reducible apply State.flashWrite_grows
    | with_reducible apply State.modLodge_grows
    | with_reducible apply Grows.ite
    | with_reducible apply Grows.ite2
    | with_reducible apply Grows.ite3
    | dsimp only
    | split

theorem State.eraseWrite_grows {z : State} (s : State) (n : Nat) (v : Nat) (hs : Grows z s) :
    Grows z (State.eraseWrite s n v).2 := by
  unfold State.eraseWrite
  repeat' first
    | with_reducible assumption
    | intro _
    | with_reducible apply State.emptySlot_grows
    | with_reducible apply Grows.ite
    | with_reducible apply Grows.ite2
    | with_reducible apply Grows.ite3
    | dsimp only
    | split

theorem State.clearLog_grows {z : State} (s : State) (hs : Grows z s) :
    Grows z (State.clearLog s) := by
  unfold State.clearLog
  repeat' first
    | with_reducible assumption
    | intro _
    | with_reducible apply State.modLodge_grows
    | dsimp only
    | split

theorem State.setPosition_grows {z : State} (s : State) (r : Requester) (n : Nat) (hs : Grows z s) :
    Grows z (State.setPosition s r n) := by
  unfold State.setPosition
  repeat' first
    | with_reducible assumption
    | intro _
    | with_reducible apply State.modLodge_grows
    | dsimp only

theorem State.setNonce_grows {z : State} (s : State) (r : Requester) (v : List Byte) (hs : Grows z s) :
    Grows z (State.setNonce s r v) := by
  unfold State.setNonce
  repeat' first
    | with_reducible assumption
    | intro _
    | with_reducible apply State.modLodge_grows
    | dsimp only

theorem State.writeObject_grows {z : State} (s : State) (r : Requester) (i : Nat) (sub : Nat) (v : List Byte) (block : Bool) (hs : Grows z s) :
    Grows z (State.writeObject s r i sub v block).2 := by
  unfold State.writeObject
  repeat' first
    | with_reducible assumption
    | intro _
    | with_reducible apply State.ringWrite_grows
    | with_reducible apply ranged_grows
    | with_reducible apply State.keepSet_grows
    | with_reducible apply State.modLodge_grows
    | with_reducible apply State.settingWrite_grows
    | with_reducible apply State.plotWrite_grows
    | with_reducible apply State.pavWrite_grows
    | with_reducible apply State.rearm_grows
    | with_reducible apply State.allotWriteObj_grows
    | with_reducible apply State.hostPortWrite_grows
    | with_reducible apply State.modHost_grows
    | with_reducible apply State.modSrv_grows
    | with_reducible apply State.srvWrite_grows
    | with_reducible apply State.imageWrite_grows
    | with_reducible apply State.eraseWrite_grows
    | with_reducible apply State.setPosition_grows
    | with_reducible apply State.clearLog_grows
    | with_reducible apply State.packageWrite_grows
    | with_reducible apply State.setNonce_grows
    | with_reducible apply State.unlockWrite_grows
    | with_reducible apply State.firmwareWrite_grows
    | with_reducible apply Grows.ite
    | with_reducible apply Grows.ite2
    | with_reducible apply Grows.ite3
    | dsimp only
    | split

theorem State.dictWrite_grows {z : State} (s : State) (r : Requester) (i : Nat) (sub : Nat) (v : List Byte) (block : Bool) (hs : Grows z s) :
    Grows z (State.dictWrite s r i sub v block).2 := by
  unfold State.dictWrite
  repeat' first
    | with_reducible assumption
    | intro _
    | with_reducible apply State.writeObject_grows
    | with_reducible apply Grows.ite
    | with_reducible apply Grows.ite2
    | with_reducible apply Grows.ite3
    | dsimp only
    | split

theorem State.putObject_grows {z : State} (s : State) (r : Requester) (i : Nat) (sub : Nat) (v : List Byte) (hs : Grows z s) :
    Grows z (State.putObject s r i sub v) := by
  unfold State.putObject
  repeat' first
    | with_reducible assumption
    | intro _
    | with_reducible apply State.dictWrite_grows
    | with_reducible apply State.answer_grows
    | dsimp only

theorem State.putWith_grows {z : State} (s : State) (r : Requester) (i : Nat) (sub : Nat) (len : Nat) (f : State → Nat × State) (hs : Grows z s) (hf : ∀ v0, Grows z v0 → Grows z (f v0).2) :
    Grows z (State.putWith s r i sub len f) := by
  unfold State.putWith
  repeat' first
    | with_reducible assumption
    | intro _
    | with_reducible apply hf
    | with_reducible apply State.answer_grows
    | with_reducible apply Grows.ite
    | with_reducible apply Grows.ite2
    | with_reducible apply Grows.ite3
    | dsimp only
    | split

theorem State.dictRead_grows {z : State} (s : State) (r : Requester) (i : Nat) (sub : Nat) (hs : Grows z s) :
    Grows z (State.dictRead s r i sub).2.2 := by
  unfold State.dictRead
  repeat' first
    | with_reducible assumption
    | intro _
    | with_reducible apply State.logRead_grows
    | with_reducible apply State.lostRead_grows
    | with_reducible apply State.reportRead_grows
    | with_reducible apply State.fresh_grows
    | with_reducible apply State.clearCounter_grows
    | with_reducible apply Grows.ite
    | with_reducible apply Grows.ite2
    | with_reducible apply Grows.ite3
    | dsimp only
    | split

theorem State.getObject_grows {z : State} (s : State) (r : Requester) (i : Nat) (sub : Nat) (hs : Grows z s) :
    Grows z (State.getObject s r i sub) := by
  unfold State.getObject
  repeat' first
    | with_reducible assumption
    | intro _
    | with_reducible apply State.dictRead_grows
    | with_reducible apply State.answer_grows
    | dsimp only

end Sys2Proof.Machine
end

