-- ==== Sys2Proof/Laws/GrowsHost.lean ====
section
/-! SUPPORT. The operations of Machine/Host.lean keep `Grows` (Laws/Grows.lean). -/

namespace Sys2Proof.Machine

theorem State.portCount_grows {z : State} (s : State) (h : Nat) (i : Nat) (hs : Grows z s) :
    Grows z (State.portCount s h i) := by
  unfold State.portCount
  repeat' first
    | with_reducible assumption
    | intro _
    | with_reducible apply State.modHost_grows
    | dsimp only

theorem State.mbxDone_grows {z : State} (s : State) (h : Nat) (f : Nat) (ctrl : BitVec 32) (code : Nat) (hs : Grows z s) :
    Grows z (State.mbxDone s h f ctrl code) := by
  unfold State.mbxDone
  repeat' first
    | with_reducible assumption
    | intro _
    | with_reducible apply State.modFn_grows
    | dsimp only

theorem State.mbxRead_grows {z : State} (s : State) (h : PortIx) (f : FnIx) (ctrl : BitVec 32) (hs : Grows z s) :
    Grows z (State.mbxRead s h f ctrl) := by
  unfold State.mbxRead
  repeat' first
    | with_reducible assumption
    | intro _
    | with_reducible apply State.mbxDone_grows
    | with_reducible apply State.modFn_grows
    | with_reducible apply State.dictRead_grows
    | with_reducible apply Grows.ite
    | dsimp only
    | split

theorem State.mbxWrite_grows {z : State} (s : State) (h : PortIx) (f : FnIx) (ctrl : BitVec 32) (hs : Grows z s) :
    Grows z (State.mbxWrite s h f ctrl) := by
  unfold State.mbxWrite
  repeat' first
    | with_reducible assumption
    | intro _
    | with_reducible apply State.mbxDone_grows
    | with_reducible apply State.modFn_grows
    | with_reducible apply State.dictWrite_grows
    | with_reducible apply Grows.ite
    | dsimp only

theorem State.qOpen_grows {z : State} (s : State) (a : Nat) (q : Nat) (hs : Grows z s) :
    Grows z (State.qOpen s a q) := by
  unfold State.qOpen
  repeat' first
    | with_reducible assumption
    | intro _
    | with_reducible apply State.modQueue_grows
    | dsimp only
    | split

theorem State.refuseQueue_grows {z : State} (s : State) (a : Nat) (q : Nat) (hs : Grows z s) :
    Grows z (State.refuseQueue s a q) := by
  unfold State.refuseQueue
  repeat' first
    | with_reducible assumption
    | intro _
    | with_reducible apply State.wake_grows
    | with_reducible apply State.each_grows
    | with_reducible apply State.complete_grows
    | dsimp only

theorem State.qClose_grows {z : State} (s : State) (a : Nat) (q : Nat) (hs : Grows z s) :
    Grows z (State.qClose s a q) := by
  unfold State.qClose
  repeat' first
    | with_reducible assumption
    | intro _
    | with_reducible apply State.modQueue_grows
    | with_reducible apply State.refuseQueue_grows
    | dsimp only
    | split

theorem State.failQueue_grows {z : State} (s : State) (a : Nat) (q : Nat) (cause : Nat) (hs : Grows z s) :
    Grows z (State.failQueue s a q cause) := by
  unfold State.failQueue
  repeat' first
    | with_reducible assumption
    | intro _
    | with_reducible apply State.modQueue_grows
    | dsimp only

theorem State.charge_grows {z : State} (s : State) (a : Nat) (q : Nat) (cost : Nat) (hs : Grows z s) :
    Grows z (State.charge s a q cost) := by
  unfold State.charge
  repeat' first
    | with_reducible assumption
    | intro _
    | with_reducible apply State.modQueue_grows
    | with_reducible apply Grows.ite
    | dsimp only

theorem State.msixWrite_grows {z : State} (s : State) (h : PortIx) (f : FnIx) (o : Nat) (v : BitVec 32) (hs : Grows z s) :
    Grows z (State.msixWrite s h f o v) := by
  unfold State.msixWrite
  repeat' first
    | with_reducible assumption
    | intro _
    | with_reducible apply State.modFn_grows
    | with_reducible apply State.emit_grows
    | with_reducible apply Grows.ite
    | dsimp only

theorem State.bar0Write_grows {z : State} (s : State) (h : PortIx) (f : FnIx) (off : Nat) (v : BitVec 32) (hs : Grows z s) :
    Grows z (State.bar0Write s h f off v) := by
  unfold State.bar0Write
  repeat' first
    | with_reducible assumption
    | intro _
    | with_reducible apply State.modFn_grows
    | with_reducible apply State.msixWrite_grows
    | with_reducible apply State.mbxWrite_grows
    | with_reducible apply State.mbxRead_grows
    | with_reducible apply State.qOpen_grows
    | with_reducible apply State.qClose_grows
    | with_reducible apply State.modQueue_grows
    | with_reducible apply Grows.ite
    | dsimp only
    | split

end Sys2Proof.Machine
end

