-- ==== Sys2Proof/Laws/GrowsCommands.lean ====
section
/-! SUPPORT. The operations of Machine/Commands.lean keep `Grows` (Laws/Grows.lean). -/

namespace Sys2Proof.Machine

theorem State.starting_grows {z : State} (s : State) (a : Nat) (q : Nat) (op : Nat) (f : Cmd → State) (hs : Grows z s) (hf : ∀ v0, Grows z (f v0)) :
    GrowsR z (State.starting s a q op f) := by
  unfold State.starting
  repeat' first
    | with_reducible assumption
    | intro _
    | with_reducible apply hf
    | with_reducible apply GrowsR.next
    | with_reducible apply GrowsR.ite
    | with_reducible apply State.completeWake_grows
    | with_reducible apply Grows.ite
    | dsimp only
    | split

theorem State.placeGet_grows {z : State} (s : State) (a : Nat) (x : Place) (len : Nat) (hs : Grows z s) :
    Grows z (State.placeGet s a x len).2 := by
  unfold State.placeGet
  repeat' first
    | with_reducible assumption
    | intro _
    | with_reducible apply State.allotRead_grows
    | with_reducible apply State.rowsRead_grows
    | dsimp only
    | split

theorem State.placePut_grows {z : State} (s : State) (a : Nat) (x : Place) (d : List Byte) (marks : List Bool) (lead : Nat) (hs : Grows z s) :
    Grows z (State.placePut s a x d marks lead) := by
  unfold State.placePut
  repeat' first
    | with_reducible assumption
    | intro _
    | with_reducible apply State.each_grows
    | with_reducible apply State.targetPut_grows
    | with_reducible apply State.localPut_grows
    | with_reducible apply Grows.ite
    | dsimp only
    | split

theorem State.endCopy_grows {z : State} (s : State) (a : Nat) (q : Nat) (c : Cmd) (status : Nat) (result : Nat) (hs : Grows z s) :
    Grows z (State.endCopy s a q c status result) := by
  unfold State.endCopy
  repeat' first
    | with_reducible assumption
    | intro _
    | with_reducible apply State.modAllot_grows
    | with_reducible apply State.settleStop_grows
    | with_reducible apply State.completeWake_grows
    | dsimp only
    | split

theorem State.saveRow_grows {z : State} (s : State) (a : Nat) (src : Place) (i : Nat) (hs : Grows z s) :
    Grows z (State.saveRow s a src i).2 := by
  unfold State.saveRow
  repeat' first
    | with_reducible assumption
    | intro _
    | refine State.poisonTry_grows _ _ _ _ _ ?_ (by assumption)
    | with_reducible apply State.freeze_grows
    | with_reducible apply State.modAllot_grows
    | with_reducible apply Grows.ite
    | dsimp only
    | split

theorem State.saveCopy_grows {z : State} (s : State) (a : Nat) (src : Place) (dst : Place) (len : Nat) (hs : Grows z s) :
    Grows z (State.saveCopy s a src dst len).2 := by
  cases dst with
  | host _ =>
    dsimp only [State.saveCopy]
    have hg := State.placeGet_grows s a src len hs
    refine Grows.ite2 _ hs (Grows.foldl2 _ _ (fun x i h => ?_) _ hg)
    have hr := State.saveRow_grows x.2 a src i h
    split
    · exact h
    · split
      · rename_i e
        rw [e] at hr
        exact hr
      · exact hr
  | _ => exact hs

theorem State.runCopy_grows {z : State} (s : State) (a : Nat) (q : Nat) (c : Cmd) (src : Place) (dst : Place) (len : Nat) (host : List Byte × List Bool) (hs : Grows z s) :
    Grows z (State.runCopy s a q c src dst len host) := by
  unfold State.runCopy
  repeat' first
    | with_reducible assumption
    | intro _
    | with_reducible apply State.placeGet_grows
    | with_reducible apply State.portCount_grows
    | with_reducible apply State.emit_grows
    | with_reducible apply State.modPav_grows
    | with_reducible apply State.placePut_grows
    | with_reducible apply State.modQueue_grows
    | with_reducible apply State.endCopy_grows
    | with_reducible apply State.charge_grows
    | with_reducible apply Grows.ite
    | dsimp only
    | split

theorem State.tryCopy_grows {z : State} (s : State) (a : Nat) (q : Nat) (c : Cmd) (hd : HostRead) (hs : Grows z s) :
    GrowsR z (State.tryCopy s a q c hd) := by
  unfold State.tryCopy
  repeat' first
    | with_reducible assumption
    | intro _
    | with_reducible apply GrowsR.next
    | with_reducible apply GrowsR.ite
    | with_reducible apply State.completeWake_grows
    | with_reducible apply State.endCopy_grows
    | with_reducible apply State.cmdTo_grows
    | with_reducible apply State.modAllot_grows
    | with_reducible apply State.modQueue_grows
    | with_reducible apply State.brokenTag_grows
    | with_reducible apply State.runCopy_grows
    | with_reducible apply State.saveCopy_grows
    | with_reducible apply Grows.ite
    | with_reducible apply Grows.ite2
    | with_reducible apply Grows.ite3
    | dsimp only
    | split
    | with_reducible apply Grows.getD

theorem State.waitStart_grows {z : State} (s : State) (a : Nat) (q : Nat) (c : Cmd) (hs : Grows z s) :
    Grows z (State.waitStart s a q c) := by
  unfold State.waitStart
  repeat' first
    | with_reducible assumption
    | intro _
    | with_reducible apply State.wake_grows
    | with_reducible apply State.cmdTo_grows
    | dsimp only

theorem State.loadImage_grows {z : State} (s : State) (a : AllotIx) (q : Nat) (c : Cmd) (hd : HostRead) (hs : Grows z s) :
    GrowsR z (State.loadImage s a q c hd) := by
  unfold State.loadImage
  repeat' first
    | with_reducible assumption
    | intro _
    | with_reducible apply GrowsR.next
    | with_reducible apply GrowsR.ite
    | with_reducible apply State.completeWake_grows
    | with_reducible apply State.cmdTo_grows
    | with_reducible apply State.portCount_grows
    | with_reducible apply State.charge_grows
    | with_reducible apply State.modQueue_grows
    | with_reducible apply State.storeImage_grows
    | with_reducible apply Grows.ite
    | with_reducible apply Grows.ite2
    | with_reducible apply Grows.ite3
    | dsimp only
    | split

theorem State.answerQueryProgress_grows {z : State} (s : State) (a : Nat) (q : Nat) (c : Cmd) (index : Nat) (position : Nat) (total : Nat) (state : Nat) (hs : Grows z s) :
    Grows z (State.answerQueryProgress s a q c index position total state) := by
  unfold State.answerQueryProgress
  repeat' first
    | with_reducible assumption
    | intro _
    | with_reducible apply State.emit_grows
    | with_reducible apply State.completeWake_grows
    | with_reducible apply Grows.ite
    | dsimp only

end Sys2Proof.Machine
end

