-- ==== Sys2Proof/Laws/GrowsFlags.lean ====
section
/-! SUPPORT. The operations of Machine/Flags.lean keep `Grows` (Laws/Grows.lean). -/

namespace Sys2Proof.Machine

theorem State.raise_grows {z : State} (s : State) (p : Nat) (src : Src3) (f : Flags) (hs : Grows z s) :
    Grows z (State.raise s p src f) := by
  unfold State.raise
  repeat' first
    | with_reducible assumption
    | intro _
    | with_reducible apply State.modVE_grows
    | dsimp only

theorem State.veFlags_grows {z : State} (s : State) (p : Nat) (f : Flags) (hs : Grows z s) :
    Grows z (State.veFlags s p f) := by
  unfold State.veFlags
  repeat' first
    | with_reducible assumption
    | intro _
    | with_reducible apply State.modVE_grows
    | with_reducible apply State.raise_grows
    | dsimp only

end Sys2Proof.Machine
end

