-- ==== Sys2Proof/Laws/GrowsSequencer.lean ====
section
/-! SUPPORT. The operations of Machine/Sequencer.lean keep `Grows` (Laws/Grows.lean). -/

namespace Sys2Proof.Machine

theorem State.patch_grows {z : State} (s : State) (p : Nat) (t : Nat) (hs : Grows z s) :
    Grows z (State.patch s p t) := by
  unfold State.patch
  repeat' first
    | with_reducible assumption
    | intro _
    | with_reducible apply State.each_grows
    | with_reducible apply State.modPav_grows
    | dsimp only
    | split

theorem State.programPoison_grows {z : State} (s : State) (p : Nat) (row : Nat) (hs : Grows z s) :
    Grows z (State.programPoison s p row) := by
  unfold State.programPoison
  repeat' first
    | with_reducible assumption
    | intro _
    | with_reducible apply State.modSeq_grows
    | with_reducible apply State.patch_grows
    | with_reducible apply State.modPav_grows
    | with_reducible apply State.recoverPav_grows
    | with_reducible apply Grows.ite
    | dsimp only
    | split

theorem State.modStream_grows {z : State} (s : State) (p : Nat) (i : Nat) (f : Strm → Strm) (hs : Grows z s) :
    Grows z (State.modStream s p i f) := by
  unfold State.modStream
  repeat' first
    | with_reducible assumption
    | intro _
    | with_reducible apply State.modSeq_grows
    | dsimp only

theorem State.cadenceFault_grows {z : State} (s : State) (p : Nat) (slot : Nat) (opcode : Nat) (hs : Grows z s) :
    Grows z (State.cadenceFault s p slot opcode) := by
  unfold State.cadenceFault
  repeat' first
    | with_reducible assumption
    | intro _
    | with_reducible apply State.programFault_grows
    | with_reducible apply State.modPav_grows
    | dsimp only

theorem State.hold_grows {z : State} (s : State) (p : Nat) (i : Nat) (h : Hold) (hs : Grows z s) :
    Grows z (State.hold s p i h) := by
  unfold State.hold
  repeat' first
    | with_reducible assumption
    | intro _
    | with_reducible apply State.modStream_grows
    | with_reducible apply Grows.ite
    | dsimp only

theorem State.depart_grows {z : State} (s : State) (p : Nat) (i : Nat) (op : Nat) (q : Seq) (hs : Grows z s) :
    Grows z (State.depart s p i op q) := by
  unfold State.depart
  repeat' first
    | with_reducible assumption
    | intro _
    | with_reducible apply State.modStream_grows
    | with_reducible apply State.modSeq_grows
    | dsimp only

theorem State.issue_grows {z : State} (s : State) (p : Nat) (i : Nat) (op : Nat) (x : Issue) (eff : List Nat → State → State) (hs : Grows z s) (heff : ∀ v0 v1, Grows z v1 → Grows z (eff v0 v1)) :
    Grows z (State.issue s p i op x eff) := by
  unfold State.issue
  repeat' first
    | with_reducible assumption
    | intro _
    | with_reducible apply heff
    | with_reducible apply State.stageRead_grows
    | with_reducible apply State.programPoison_grows
    | with_reducible apply State.cadenceFault_grows
    | with_reducible apply State.hold_grows
    | with_reducible apply State.programFault_grows
    | with_reducible apply State.depart_grows
    | with_reducible apply Grows.ite
    | dsimp only
    | split

theorem State.issueReserved_grows {z : State} (s : State) (p : Nat) (i : Nat) (op : Nat) (hs : Grows z s) :
    Grows z (State.issueReserved s p i op) := by
  unfold State.issueReserved
  repeat' first
    | with_reducible assumption
    | intro _
    | with_reducible apply State.stageRead_grows
    | with_reducible apply State.programPoison_grows
    | with_reducible apply State.programFault_grows
    | with_reducible apply Grows.ite
    | dsimp only

theorem State.settlePostsN_grows {z : State} (s : State) (p : Nat) (x2 : Nat) (hs : Grows z s) :
    Grows z (State.settlePostsN s p x2) := by
  induction x2 generalizing s p with
  | zero =>
    simp only [State.settlePostsN]
    assumption
  | succ n ih =>
    simp only [State.settlePostsN]
    repeat' first
      | with_reducible assumption
      | with_reducible apply ih
      | intro _
      | with_reducible apply State.release_grows
      | with_reducible apply State.localPut_grows
      | with_reducible apply State.modSeq_grows
      | dsimp only
      | split

theorem State.settlePosts_grows {z : State} (s : State) (p : Nat) (hs : Grows z s) :
    Grows z (State.settlePosts s p) := by
  unfold State.settlePosts
  repeat' first
    | with_reducible assumption
    | intro _
    | with_reducible apply State.modPav_grows
    | with_reducible apply State.settlePostsN_grows
    | dsimp only

theorem State.addCtr_grows {z : State} (s : State) (p : Nat) (ctr : Nat) (v : Word) (hs : Grows z s) :
    Grows z (State.addCtr s p ctr v) := by
  unfold State.addCtr
  repeat' first
    | with_reducible assumption
    | intro _
    | with_reducible apply State.modSeq_grows
    | dsimp only

end Sys2Proof.Machine
end

