-- ==== Sys2Proof/Laws/GrowsMatrixCheck.lean ====
section
/-! SUPPORT. The operations of Machine/MatrixCheck.lean keep `Grows` (Laws/Grows.lean). -/

namespace Sys2Proof.Machine

theorem State.poisonLocal_grows {z : State} (s : State) (p : Nat) (e : Bool × Nat) (hs : Grows z s) :
    Grows z (State.poisonLocal s p e) := by
  unfold State.poisonLocal
  repeat' first
    | with_reducible assumption
    | intro _
    | with_reducible apply State.modPav_grows
    | with_reducible apply Grows.ite
    | dsimp only

theorem State.poisonFlight_grows {z : State} (s : State) (p : Nat) (f : RowFlight) (hs : Grows z s) :
    Grows z (State.poisonFlight s p f) := by
  unfold State.poisonFlight
  repeat' first
    | with_reducible assumption
    | intro _
    | with_reducible apply State.each_grows
    | with_reducible apply State.poisonLocal_grows
    | with_reducible apply State.modME_grows
    | dsimp only

theorem State.poisonRow_grows {z : State} (s : State) (p : Nat) (f : RowFlight) (rest : List RowFlight) (hs : Grows z s) :
    Grows z (State.poisonRow s p f rest) := by
  unfold State.poisonRow
  repeat' first
    | with_reducible assumption
    | intro _
    | with_reducible apply State.poisonFlight_grows
    | with_reducible apply State.each_grows
    | with_reducible apply State.modME_grows
    | with_reducible apply Grows.ite
    | dsimp only

theorem State.meFault_grows {z : State} (s : State) (p : Nat) (os : Bool) (addr : Nat) (f : Finding) (hs : Grows z s) :
    Grows z (State.meFault s p os addr f) := by
  unfold State.meFault
  repeat' first
    | with_reducible assumption
    | intro _
    | with_reducible apply State.checkFault_grows
    | with_reducible apply State.modPav_grows
    | with_reducible apply Grows.ite
    | dsimp only
    | split

theorem State.passDone_grows {z : State} (s : State) (p : Nat) (r : Pass) (hs : Grows z s) :
    Grows z (State.passDone s p r) := by
  unfold State.passDone
  repeat' first
    | with_reducible assumption
    | intro _
    | with_reducible apply State.modME_grows
    | with_reducible apply State.settlePosts_grows
    | with_reducible apply State.release_grows
    | with_reducible apply State.modPav_grows
    | dsimp only

end Sys2Proof.Machine
end

