-- ==== Sys2Proof/Laws/GrowsDma.lean ====
section
/-! SUPPORT. The operations of Machine/Dma.lean keep `Grows` (Laws/Grows.lean). -/

namespace Sys2Proof.Machine

theorem State.dmaEnd_grows {z : State} (s : State) (p : Nat) (k : Nat) (d : Dma) (ctr : Option Nat) (hs : Grows z s) :
    Grows z (State.dmaEnd s p k d ctr) := by
  unfold State.dmaEnd
  repeat' first
    | with_reducible assumption
    | intro _
    | with_reducible apply State.modSeq_grows
    | with_reducible apply State.addCtr_grows
    | with_reducible apply State.settlePosts_grows
    | with_reducible apply State.modPav_grows
    | dsimp only
    | split

theorem State.dmaFail_grows {z : State} (s : State) (p : Nat) (k : Nat) (d : Dma) (opcode : Nat) (hs : Grows z s) :
    Grows z (State.dmaFail s p k d opcode) := by
  unfold State.dmaFail
  repeat' first
    | with_reducible assumption
    | intro _
    | with_reducible apply State.programFault_grows
    | with_reducible apply State.modRx_grows
    | with_reducible apply State.modPav_grows
    | with_reducible apply State.modSeq_grows
    | dsimp only

theorem State.dmaTagged_grows {z : State} (s : State) (p : Nat) (k : Nat) (d : Dma) (opcode : Nat) (reads : List Nat) (writes : List Nat) (f : State → State) (hs : Grows z s) (hf : ∀ v0, Grows z v0 → Grows z (f v0)) :
    Grows z (State.dmaTagged s p k d opcode reads writes f) := by
  unfold State.dmaTagged
  repeat' first
    | with_reducible assumption
    | intro _
    | with_reducible apply hf
    | with_reducible apply State.dmaFail_grows
    | with_reducible apply State.brokenTag_grows
    | with_reducible apply State.modPav_grows
    | with_reducible apply State.modSeq_grows
    | dsimp only
    | split

theorem State.rowsAt_grows {z : State} (s : State) (al : Nat) (t : Target) (n : Nat) (hs : Grows z s) :
    Grows z (State.rowsAt s al t n).2 := by
  unfold State.rowsAt
  repeat' first
    | with_reducible assumption
    | intro _
    | with_reducible apply State.rowsRead_grows
    | with_reducible apply State.allotRead_grows
    | dsimp only
    | split

theorem State.putRowsAt_grows {z : State} (s : State) (al : Nat) (t : Target) (w : Writer) (rows : List (List Byte × Bool)) (hs : Grows z s) :
    Grows z (State.putRowsAt s al t w rows) := by
  unfold State.putRowsAt
  repeat' first
    | with_reducible assumption
    | intro _
    | with_reducible apply State.writeRows_grows
    | with_reducible apply State.allotWrite_grows
    | dsimp only
    | split

theorem State.noteCopy_grows {z : State} (s : State) (p : Nat) (al : Nat) (stage : Bool) (a : Nat) (off : Nat) (len : Nat) (hs : Grows z s) :
    Grows z (State.noteCopy s p al stage a off len) := by
  unfold State.noteCopy
  repeat' first
    | with_reducible assumption
    | intro _
    | with_reducible apply State.modSeq_grows
    | with_reducible apply Grows.foldl
    | dsimp only
    | with_reducible apply Grows.hbmSet

theorem State.dcopyMove_grows {z : State} (s : State) (p : Nat) (al : Nat) (o : Nat) (len : Nat) (x : Dma) (hs : Grows z s) :
    Grows z (State.dcopyMove s p al o len x) := by
  unfold State.dcopyMove
  repeat' first
    | with_reducible assumption
    | intro _
    | with_reducible apply State.rowsAt_grows
    | with_reducible apply State.putRowsAt_grows
    | dsimp only

theorem State.dcopySlots_grows {z : State} (s : State) (p : Nat) (k : Nat) (x3 : Nat) (hs : Grows z s) :
    Grows z (State.dcopySlots s p k x3) := by
  induction x3 generalizing s p k with
  | zero =>
    simp only [State.dcopySlots]
    assumption
  | succ n ih =>
    simp only [State.dcopySlots]
    repeat' first
      | with_reducible assumption
      | with_reducible apply ih
      | intro _
      | with_reducible apply State.dcopyMove_grows
      | with_reducible apply State.modPav_grows
      | with_reducible apply State.place_grows
      | with_reducible apply State.dmaTagged_grows
      | with_reducible apply State.modSeq_grows
      | with_reducible apply Grows.ite
      | dsimp only
      | split

theorem dcopyEff_grows {z : State} (p : PavIx) (i : Nat) (w : Nat) (slot : Nat) (k : Nat) (ids : List Nat) (s : State) (hs : Grows z s) :
    Grows z (dcopyEff p i w slot k ids s) := by
  unfold dcopyEff
  repeat' first
    | with_reducible assumption
    | intro _
    | with_reducible apply State.modRx_grows
    | with_reducible apply State.modSeq_grows
    | with_reducible apply State.pumpParts_grows
    | with_reducible apply State.dcopySlots_grows
    | with_reducible apply Grows.ite
    | dsimp only

theorem State.runDcopy_grows {z : State} (s : State) (p : PavIx) (i : Nat) (w : Nat) (hs : Grows z s) :
    Grows z (State.runDcopy s p i w) := by
  unfold State.runDcopy
  repeat' first
    | with_reducible assumption
    | intro _
    | with_reducible apply State.issue_grows
    | with_reducible apply dcopyEff_grows
    | dsimp only

theorem State.dcopyLand_grows {z : State} (s : State) (p : Nat) (k : Nat) (al : Nat) (x : Dma) (mismatch : Bool) (hs : Grows z s) :
    Grows z (State.dcopyLand s p k al x mismatch) := by
  unfold State.dcopyLand
  repeat' first
    | with_reducible assumption
    | intro _
    | with_reducible apply State.dcopyMove_grows
    | with_reducible apply State.noteCopy_grows
    | with_reducible apply State.dmaEnd_grows
    | with_reducible apply State.checkFault_grows
    | with_reducible apply Grows.ite
    | dsimp only
    | split

theorem State.putBeats_grows {z : State} (s : State) (plot : Nat) (src : Nat) (cid : Nat) (l : List Beat) (hs : Grows z s) :
    Grows z (State.putBeats s plot src cid l) := by
  unfold State.putBeats
  repeat' first
    | with_reducible assumption
    | intro _
    | with_reducible apply State.modPlot_grows
    | dsimp only

theorem State.psendPump_grows {z : State} (s : State) (p : Nat) (k : Nat) (x3 : Nat) (hs : Grows z s) :
    Grows z (State.psendPump s p k x3) := by
  induction x3 generalizing s p k with
  | zero =>
    simp only [State.psendPump]
    assumption
  | succ n ih =>
    simp only [State.psendPump]
    repeat' first
      | with_reducible assumption
      | with_reducible apply ih
      | intro _
      | with_reducible apply State.modPav_grows
      | with_reducible apply State.dmaEnd_grows
      | with_reducible apply State.place_grows
      | with_reducible apply State.dmaTagged_grows
      | with_reducible apply State.putBeats_grows
      | with_reducible apply State.modSeq_grows
      | with_reducible apply State.rowsRead_grows
      | with_reducible apply Grows.ite
      | dsimp only
      | split

theorem State.psendGo_grows {z : State} (s : State) (p : Nat) (k : Nat) (x : Dma) (hs : Grows z s) :
    Grows z (State.psendGo s p k x) := by
  unfold State.psendGo
  repeat' first
    | with_reducible assumption
    | intro _
    | with_reducible apply State.psendPump_grows
    | with_reducible apply State.modSeq_grows
    | dsimp only

theorem State.runPsend_grows {z : State} (s : State) (p : Nat) (i : Nat) (w : Nat) (hs : Grows z s) :
    Grows z (State.runPsend s p i w) := by
  unfold State.runPsend
  repeat' first
    | with_reducible assumption
    | intro _
    | with_reducible apply State.issue_grows
    | with_reducible apply State.psendGo_grows
    | dsimp only

theorem State.precvStart_grows {z : State} (s : State) (p : Nat) (k : Nat) (x : Dma) (hs : Grows z s) :
    Grows z (State.precvStart s p k x) := by
  unfold State.precvStart
  repeat' first
    | with_reducible assumption
    | intro _
    | with_reducible apply State.dmaTagged_grows
    | with_reducible apply State.modPav_grows
    | dsimp only

theorem State.runPrecv_grows {z : State} (s : State) (p : Nat) (i : Nat) (w : Nat) (hs : Grows z s) :
    Grows z (State.runPrecv s p i w) := by
  unfold State.runPrecv
  repeat' first
    | with_reducible assumption
    | intro _
    | with_reducible apply State.issue_grows
    | with_reducible apply State.precvStart_grows
    | dsimp only

theorem State.precvEnd_grows {z : State} (s : State) (p : Nat) (k : Nat) (x : Dma) (hs : Grows z s) :
    Grows z (State.precvEnd s p k x) := by
  unfold State.precvEnd
  repeat' first
    | with_reducible assumption
    | intro _
    | with_reducible apply State.dmaEnd_grows
    | with_reducible apply State.modPav_grows
    | with_reducible apply Grows.ite
    | dsimp only

theorem State.precvNext_grows {z : State} (s : State) (p : Nat) (k : Nat) (x : Dma) (hs : Grows z s) :
    Grows z (State.precvNext s p k x) := by
  unfold State.precvNext
  repeat' first
    | with_reducible assumption
    | intro _
    | with_reducible apply State.precvEnd_grows
    | with_reducible apply State.modSeq_grows
    | with_reducible apply Grows.ite
    | dsimp only

theorem State.putToken_grows {z : State} (s : State) (p : Nat) (x : Dma) (v : Bool) (poison : Bool) (hs : Grows z s) :
    Grows z (State.putToken s p x v poison) := by
  unfold State.putToken
  repeat' first
    | with_reducible assumption
    | intro _
    | with_reducible apply State.rowRead_grows
    | with_reducible apply State.writeRows_grows
    | with_reducible apply Grows.ite
    | dsimp only

theorem State.precvIndexEnd_grows {z : State} (s : State) (p : Nat) (d : Pxfer) (hs : Grows z s) :
    Grows z (State.precvIndexEnd s p d) := by
  unfold State.precvIndexEnd
  repeat' first
    | with_reducible assumption
    | intro _
    | with_reducible apply State.raise_grows
    | with_reducible apply State.each_grows
    | with_reducible apply State.poisonLocal_grows
    | dsimp only

theorem State.precvLand_grows {z : State} (s : State) (p : Nat) (k : Nat) (x : Dma) (item : List Beat) (hs : Grows z s) :
    Grows z (State.precvLand s p k x item) := by
  unfold State.precvLand
  repeat' first
    | with_reducible assumption
    | intro _
    | with_reducible apply State.skewFault_grows
    | with_reducible apply State.precvIndexEnd_grows
    | with_reducible apply State.precvEnd_grows
    | with_reducible apply State.precvNext_grows
    | with_reducible apply State.writeRows_grows
    | with_reducible apply State.putToken_grows
    | with_reducible apply Grows.ite
    | dsimp only
    | split

end Sys2Proof.Machine
end

