-- ==== Sys2Proof/Laws/GrowsSquares.lean ====
section
/-! SUPPORT. The operations of Machine/Squares.lean keep `Grows` (Laws/Grows.lean). -/

namespace Sys2Proof.Machine

theorem State.consumeList_grows {z : State} (s : State) (p : Nat) (stage : Bool) (carrier : Nat) (x4 : List Nat) (hs : Grows z s) :
    Grows z (State.consumeList s p stage carrier x4).2 := by
  induction x4 generalizing s p stage carrier with
  | nil =>
    simp only [State.consumeList]
    assumption
  | cons e l ih =>
    simp only [State.consumeList]
    repeat' first
      | with_reducible assumption
      | with_reducible apply ih
      | intro _
      | with_reducible apply State.consume_grows
      | with_reducible apply Grows.ite
      | with_reducible apply Grows.ite2
      | with_reducible apply Grows.ite3
      | dsimp only
      | split

theorem State.operandRows_grows {z : State} (s : State) (p : Nat) (stage : Bool) (row : Nat) (n : Nat) (hs : Grows z s) :
    Grows z (State.operandRows s p stage row n).2 := by
  unfold State.operandRows
  repeat' first
    | with_reducible assumption
    | intro _
    | with_reducible apply State.rowsRead_grows
    | with_reducible apply State.consumeList_grows
    | with_reducible apply Grows.ite
    | dsimp only
    | split

theorem State.operandBytes_grows {z : State} (s : State) (p : Nat) (stage : Bool) (a : Nat) (len : Nat) (hs : Grows z s) :
    Grows z (State.operandBytes s p stage a len).2 := by
  unfold State.operandBytes
  repeat' first
    | with_reducible assumption
    | intro _
    | with_reducible apply State.operandRows_grows
    | dsimp only

theorem State.operandSpans_grows {z : State} (s : State) (p : Nat) (stage : Bool) (x3 : List (Nat × Nat)) (hs : Grows z s) :
    Grows z (State.operandSpans s p stage x3).2 := by
  induction x3 generalizing s p stage with
  | nil =>
    simp only [State.operandSpans]
    assumption
  | cons e l ih =>
    simp only [State.operandSpans]
    repeat' first
      | with_reducible assumption
      | with_reducible apply ih
      | intro _
      | with_reducible apply State.operandBytes_grows
      | dsimp only

theorem State.squareRowRead_grows {z : State} (s : State) (p : Nat) (stage : Bool) (base : Nat) (pitch : Nat) (code : Nat) (r : Nat) (cols : Nat) (hs : Grows z s) :
    Grows z (State.squareRowRead s p stage base pitch code r cols).2 := by
  unfold State.squareRowRead
  repeat' first
    | with_reducible assumption
    | intro _
    | with_reducible apply State.operandSpans_grows
    | dsimp only

theorem State.squareMatrix_grows {z : State} (s : State) (p : Nat) (stage : Bool) (base : Nat) (pitch : Nat) (code : Nat) (cols : Nat) (r : Nat) (x8 : Nat) (hs : Grows z s) :
    Grows z (State.squareMatrix s p stage base pitch code cols r x8).2 := by
  induction x8 generalizing s p stage base pitch code cols r with
  | zero =>
    simp only [State.squareMatrix]
    assumption
  | succ n ih =>
    simp only [State.squareMatrix]
    repeat' first
      | with_reducible assumption
      | with_reducible apply ih
      | intro _
      | with_reducible apply State.squareRowRead_grows
      | dsimp only

theorem State.putRows_grows {z : State} (s : State) (p : Nat) (stage : Bool) (w : Writer) (wd : Nat) (a : Nat) (done : Nat) (l : List Put) (force : Bool) (d : List Byte) (x10 : Nat) (hs : Grows z s) :
    Grows z (State.putRows s p stage w wd a done l force d x10) := by
  induction x10 generalizing s p stage w wd a done l force d with
  | zero =>
    simp only [State.putRows]
    assumption
  | succ n ih =>
    simp only [State.putRows]
    repeat' first
      | with_reducible assumption
      | with_reducible apply ih
      | intro _
      | with_reducible apply State.writeRows_grows
      | with_reducible apply State.mergeRow_grows
      | with_reducible apply Grows.ite
      | dsimp only

theorem State.putElems_grows {z : State} (s : State) (p : Nat) (stage : Bool) (w : Writer) (wd : Nat) (a : Nat) (l : List Put) (force : Bool) (hs : Grows z s) :
    Grows z (State.putElems s p stage w wd a l force) := by
  unfold State.putElems
  repeat' first
    | with_reducible assumption
    | intro _
    | with_reducible apply State.putRows_grows
    | with_reducible apply Grows.ite
    | dsimp only
    | split

end Sys2Proof.Machine
end

