-- ==== Sys2Proof/Laws/GrowsMatrixLoad.lean ====
section
/-! SUPPORT. The operations of Machine/MatrixLoad.lean keep `Grows` (Laws/Grows.lean). -/

namespace Sys2Proof.Machine

theorem State.runMgeom_grows {z : State} (s : State) (p : Nat) (i : Nat) (w : Nat) (hs : Grows z s) :
    Grows z (State.runMgeom s p i w) := by
  unfold State.runMgeom
  repeat' first
    | with_reducible assumption
    | intro _
    | with_reducible apply State.issue_grows
    | with_reducible apply State.modStream_grows
    | dsimp only

theorem State.setCtx_grows {z : State} (s : State) (p : Nat) (o : Nat) (c : OutCtx) (hs : Grows z s) :
    Grows z (State.setCtx s p o c) := by
  unfold State.setCtx
  repeat' first
    | with_reducible assumption
    | intro _
    | with_reducible apply State.modME_grows
    | dsimp only

theorem State.vector512_grows {z : State} (s : State) (p : Nat) (row : Nat) (hs : Grows z s) :
    Grows z (State.vector512 s p row).2 := by
  unfold State.vector512
  repeat' first
    | with_reducible assumption
    | intro _
    | with_reducible apply State.operandRows_grows
    | dsimp only

theorem mosetEff_grows {z : State} (p : Nat) (w : Nat) (ids : List Nat) (s : State) (hs : Grows z s) :
    Grows z (mosetEff p w ids s) := by
  unfold mosetEff
  repeat' first
    | with_reducible assumption
    | intro _
    | with_reducible apply State.vector512_grows
    | with_reducible apply State.release_grows
    | with_reducible apply State.raise_grows
    | with_reducible apply State.setCtx_grows
    | with_reducible apply Grows.ite
    | with_reducible apply Grows.ite2
    | with_reducible apply Grows.ite3
    | dsimp only
    | split

theorem State.runMoset_grows {z : State} (s : State) (p : Nat) (i : Nat) (w : Nat) (hs : Grows z s) :
    Grows z (State.runMoset s p i w) := by
  unfold State.runMoset
  repeat' first
    | with_reducible assumption
    | intro _
    | with_reducible apply State.issue_grows
    | with_reducible apply mosetEff_grows
    | dsimp only

theorem State.runMpset_grows {z : State} (s : State) (p : Nat) (i : Nat) (w : Nat) (hs : Grows z s) :
    Grows z (State.runMpset s p i w) := by
  unfold State.runMpset
  repeat' first
    | with_reducible assumption
    | intro _
    | with_reducible apply State.issue_grows
    | with_reducible apply State.setCtx_grows
    | dsimp only

theorem State.fcRead_grows {z : State} (s : State) (p : Nat) (i : Nat) (row : Nat) (hs : Grows z s) :
    Grows z (State.fcRead s p i row).2 := by
  unfold State.fcRead
  repeat' first
    | with_reducible assumption
    | intro _
    | with_reducible apply State.rowsRead_grows
    | with_reducible apply State.modPav_grows
    | with_reducible apply Grows.ite
    | with_reducible apply Grows.ite2
    | with_reducible apply Grows.ite3
    | dsimp only
    | split

theorem State.setRecorder_grows {z : State} (s : State) (p : Nat) (o : Nat) (r : Option Recorder) (hs : Grows z s) :
    Grows z (State.setRecorder s p o r) := by
  unfold State.setRecorder
  repeat' first
    | with_reducible assumption
    | intro _
    | with_reducible apply State.modME_grows
    | dsimp only

theorem mfsetEff_grows {z : State} (p : Nat) (i : Nat) (w : Nat) (ids : List Nat) (s : State) (hs : Grows z s) :
    Grows z (mfsetEff p i w ids s) := by
  unfold mfsetEff
  repeat' first
    | with_reducible assumption
    | with_reducible apply State.release_grows
    | with_reducible apply State.setRecorder_grows
    | with_reducible apply State.fresh_grows
    | with_reducible apply State.localPut_grows
    | with_reducible apply Grows.ite
    | dsimp only
    | split

theorem State.runMfset_grows {z : State} (s : State) (p : Nat) (i : Nat) (w : Nat) (hs : Grows z s) :
    Grows z (State.runMfset s p i w) := by
  unfold State.runMfset
  repeat' first
    | with_reducible assumption
    | intro _
    | with_reducible apply State.issue_grows
    | with_reducible apply mfsetEff_grows
    | dsimp only

theorem State.gatherRow_grows {z : State} (s : State) (p : Nat) (base : Nat) (pitch : Nat) (code : Nat) (r : Nat) (cols : List Nat) (hs : Grows z s) :
    Grows z (State.gatherRow s p base pitch code r cols).2 := by
  unfold State.gatherRow
  repeat' first
    | with_reducible assumption
    | intro _
    | with_reducible apply State.operandSpans_grows
    | dsimp only

theorem State.gather_grows {z : State} (s : State) (p : Nat) (base : Nat) (pitch : Nat) (code : Nat) (cols : List Nat) (x6 : List Nat) (hs : Grows z s) :
    Grows z (State.gather s p base pitch code cols x6).2 := by
  induction x6 generalizing s p base pitch code cols with
  | nil =>
    simp only [State.gather]
    assumption
  | cons e l ih =>
    simp only [State.gather]
    repeat' first
      | with_reducible assumption
      | with_reducible apply ih
      | intro _
      | with_reducible apply State.gatherRow_grows
      | dsimp only

theorem State.planeRows_grows {z : State} (s : State) (p : Nat) (base : Nat) (width : Nat) (cols : List Nat) (x5 : List Nat) (hs : Grows z s) :
    Grows z (State.planeRows s p base width cols x5).2 := by
  induction x5 generalizing s p base width cols with
  | nil =>
    simp only [State.planeRows]
    assumption
  | cons e l ih =>
    simp only [State.planeRows]
    repeat' first
      | with_reducible assumption
      | with_reducible apply ih
      | intro _
      | with_reducible apply State.operandSpans_grows
      | dsimp only

theorem State.loadTile_grows {z : State} (s : State) (p : Nat) (m : Mload) (pitch : Nat) (ks : List Nat) (ns : List Nat) (hs : Grows z s) :
    Grows z (State.loadTile s p m pitch ks ns).2 := by
  unfold State.loadTile
  repeat' first
    | with_reducible assumption
    | intro _
    | with_reducible apply State.planeRows_grows
    | with_reducible apply State.gather_grows
    | with_reducible apply Grows.ite
    | dsimp only
    | split

theorem State.fillIdle_grows {z : State} (s : State) (p : Nat) (m : Mload) (pitch : Nat) (ks : List Nat) (ns : List Nat) (fc : Option FcTile) (hs : Grows z s) :
    Grows z (State.fillIdle s p m pitch ks ns fc) := by
  unfold State.fillIdle
  repeat' first
    | with_reducible assumption
    | intro _
    | with_reducible apply State.loadTile_grows
    | with_reducible apply State.raise_grows
    | with_reducible apply State.modME_grows
    | dsimp only

theorem State.mload_grows {z : State} (s : State) (p : Nat) (i : Nat) (m : Mload) (pitch : Nat) (slot : Nat) (ids : List Nat) (hs : Grows z s) :
    Grows z (State.mload s p i m pitch slot ids) := by
  unfold State.mload
  repeat' first
    | with_reducible assumption
    | intro _
    | with_reducible apply State.modME_grows
    | with_reducible apply State.fillIdle_grows
    | with_reducible apply State.fcRead_grows
    | with_reducible apply State.programFault_grows
    | with_reducible apply State.release_grows
    | with_reducible apply Grows.ite
    | dsimp only

theorem State.runMload_grows {z : State} (s : State) (p : Nat) (i : Nat) (w : Nat) (hs : Grows z s) :
    Grows z (State.runMload s p i w) := by
  unfold State.runMload
  repeat' first
    | with_reducible assumption
    | intro _
    | with_reducible apply State.issue_grows
    | with_reducible apply State.mload_grows
    | dsimp only

end Sys2Proof.Machine
end

