-- ==== Sys2Proof/Laws/GrowsMatrixRun.lean ====
section
/-! SUPPORT. The operations of Machine/MatrixRun.lean keep `Grows` (Laws/Grows.lean). -/

namespace Sys2Proof.Machine

theorem State.addPass_grows {z : State} (s : State) (p : Nat) (r : Pass) (hs : Grows z s) :
    Grows z (State.addPass s p r) := by
  unfold State.addPass
  repeat' first
    | with_reducible assumption
    | intro _
    | with_reducible apply State.modME_grows
    | dsimp only

theorem mrunEff_grows {z : State} (p : Nat) (i : Nat) (w : Nat) (v : Pav) (rs : List Rng) (ids : List Nat) (s : State) (hs : Grows z s) :
    Grows z (mrunEff p i w v rs ids s) := by
  unfold mrunEff
  repeat' first
    | with_reducible assumption
    | intro _
    | with_reducible apply State.addPass_grows
    | with_reducible apply State.modME_grows
    | with_reducible apply Grows.ite
    | dsimp only
    | split

theorem State.runMrun_grows {z : State} (s : State) (p : Nat) (i : Nat) (w : Nat) (hs : Grows z s) :
    Grows z (State.runMrun s p i w) := by
  unfold State.runMrun
  repeat' first
    | with_reducible assumption
    | intro _
    | with_reducible apply State.issue_grows
    | with_reducible apply mrunEff_grows
    | dsimp only

theorem maccEff_grows {z : State} (p : Nat) (i : Nat) (w : Nat) (v : Pav) (rs : List Rng) (ids : List Nat) (s : State) (hs : Grows z s) :
    Grows z (maccEff p i w v rs ids s) := by
  unfold maccEff
  repeat' first
    | with_reducible assumption
    | intro _
    | with_reducible apply State.addPass_grows
    | with_reducible apply State.modME_grows
    | with_reducible apply Grows.ite
    | dsimp only

theorem State.runMacc_grows {z : State} (s : State) (p : Nat) (i : Nat) (w : Nat) (hs : Grows z s) :
    Grows z (State.runMacc s p i w) := by
  unfold State.runMacc
  repeat' first
    | with_reducible assumption
    | intro _
    | with_reducible apply State.issue_grows
    | with_reducible apply maccEff_grows
    | dsimp only

theorem State.recordRow_grows {z : State} (s : State) (p : Nat) (octx : Nat) (f : FcTile) (fired : Nat → Bool) (hs : Grows z s) :
    Grows z (State.recordRow s p octx f fired) := by
  unfold State.recordRow
  repeat' first
    | with_reducible assumption
    | intro _
    | with_reducible apply State.setRecorder_grows
    | with_reducible apply State.modPav_grows
    | with_reducible apply Grows.foldl
    | with_reducible apply Grows.ite
    | dsimp only
    | split

theorem State.putOutRow_grows {z : State} (s : State) (p : Nat) (r : Pass) (row : Nat) (l : List OutElem) (hs : Grows z s) :
    Grows z (State.putOutRow s p r row l) := by
  unfold State.putOutRow
  repeat' first
    | with_reducible assumption
    | intro _
    | with_reducible apply State.each_grows
    | with_reducible apply State.putElems_grows
    | dsimp only

theorem State.putIndices_grows {z : State} (s : State) (p : Nat) (r : Pass) (g : Nat) (es : List (Nat × Bool)) (hs : Grows z s) :
    Grows z (State.putIndices s p r g es) := by
  unfold State.putIndices
  repeat' first
    | with_reducible assumption
    | intro _
    | with_reducible apply State.putElems_grows
    | with_reducible apply Grows.ite
    | dsimp only

theorem State.putGroup_grows {z : State} (s : State) (p : Nat) (r : Pass) (g : Nat) (rows : List PruneRow) (hs : Grows z s) :
    Grows z (State.putGroup s p r g rows) := by
  unfold State.putGroup
  repeat' first
    | with_reducible assumption
    | intro _
    | with_reducible apply State.operandBytes_grows
    | with_reducible apply State.putOutRow_grows
    | with_reducible apply State.raise_grows
    | with_reducible apply State.modPav_grows
    | with_reducible apply State.putIndices_grows
    | with_reducible apply Grows.ite
    | dsimp only
    | split

theorem State.outputRow_grows {z : State} (s : State) (p : Nat) (r : Pass) (m : Nat) (a : AccRow) (tile : Option Tile) (hs : Grows z s) :
    Grows z (State.outputRow s p r m a tile) := by
  unfold State.outputRow
  repeat' first
    | with_reducible assumption
    | intro _
    | with_reducible apply State.modPav_grows
    | with_reducible apply State.raise_grows
    | with_reducible apply State.recordRow_grows
    | with_reducible apply State.modME_grows
    | with_reducible apply State.putOutRow_grows
    | with_reducible apply State.putGroup_grows
    | with_reducible apply Grows.ite
    | dsimp only
    | split

theorem State.failPass_grows {z : State} (s : State) (p : Nat) (r : Pass) (hs : Grows z s) :
    Grows z (State.failPass s p r) := by
  unfold State.failPass
  repeat' first
    | with_reducible assumption
    | intro _
    | with_reducible apply State.programFault_grows
    | with_reducible apply State.release_grows
    | with_reducible apply State.modME_grows
    | with_reducible apply Grows.ite
    | dsimp only

theorem State.withTags_grows {z : State} (s : State) (p : Nat) (r : Pass) (reads : List Nat) (writes : List Nat) (f : State → State) (hs : Grows z s) (hf : ∀ v0, Grows z v0 → Grows z (f v0)) :
    Grows z (State.withTags s p r reads writes f) := by
  unfold State.withTags
  repeat' first
    | with_reducible assumption
    | intro _
    | with_reducible apply hf
    | with_reducible apply State.failPass_grows
    | with_reducible apply State.brokenTag_grows
    | with_reducible apply State.modPav_grows
    | with_reducible apply Grows.ite
    | dsimp only
    | split

theorem State.inputRow_grows {z : State} (s : State) (p : Nat) (o : Mop) (t : Tile) (xpitch : Nat) (m : Nat) (hs : Grows z s) :
    Grows z (State.inputRow s p o t xpitch m).2 := by
  unfold State.inputRow
  repeat' first
    | with_reducible assumption
    | intro _
    | with_reducible apply State.squareRowRead_grows
    | with_reducible apply State.operandBytes_grows
    | with_reducible apply Grows.ite
    | with_reducible apply Grows.ite2
    | with_reducible apply Grows.ite3
    | dsimp only
    | split

theorem State.startRow_grows {z : State} (s : State) (p : Nat) (o : Mop) (path : Path) (m : Nat) (hs : Grows z s) :
    Grows z (State.startRow s p o path m).2 := by
  unfold State.startRow
  repeat' first
    | with_reducible assumption
    | intro _
    | with_reducible apply State.fresh_grows
    | with_reducible apply Grows.ite
    | dsimp only
    | split

theorem State.passIssued_grows {z : State} (s : State) (p : Nat) (r : Pass) (hs : Grows z s) :
    Grows z (State.passIssued s p r) := by
  unfold State.passIssued
  repeat' first
    | with_reducible assumption
    | intro _
    | with_reducible apply State.release_grows
    | with_reducible apply State.modME_grows
    | dsimp only

theorem State.mrunRow_grows {z : State} (s : State) (p : Nat) (r : Pass) (t : Tile) (hs : Grows z s) :
    Grows z (State.mrunRow s p r t) := by
  unfold State.mrunRow
  repeat' first
    | with_reducible assumption
    | intro _
    | with_reducible apply State.inputRow_grows
    | with_reducible apply State.startRow_grows
    | with_reducible apply State.raise_grows
    | with_reducible apply State.modME_grows
    | with_reducible apply State.outputRow_grows
    | with_reducible apply State.passIssued_grows
    | with_reducible apply Grows.ite
    | dsimp only

theorem State.mrunStep_grows {z : State} (s : State) (p : Nat) (r : Pass) (hs : Grows z s) :
    Grows z (State.mrunStep s p r) := by
  unfold State.mrunStep
  repeat' first
    | with_reducible assumption
    | intro _
    | with_reducible apply State.withTags_grows
    | with_reducible apply State.modME_grows
    | with_reducible apply State.mrunRow_grows
    | with_reducible apply State.modPav_grows
    | with_reducible apply Grows.ite
    | dsimp only
    | split

theorem State.maccRow_grows {z : State} (s : State) (p : Nat) (r : Pass) (hs : Grows z s) :
    Grows z (State.maccRow s p r) := by
  unfold State.maccRow
  repeat' first
    | with_reducible assumption
    | intro _
    | with_reducible apply State.squareRowRead_grows
    | with_reducible apply State.fresh_grows
    | with_reducible apply State.raise_grows
    | with_reducible apply State.modME_grows
    | with_reducible apply State.release_grows
    | with_reducible apply State.passIssued_grows
    | with_reducible apply Grows.ite
    | dsimp only

theorem State.maccStep_grows {z : State} (s : State) (p : Nat) (r : Pass) (hs : Grows z s) :
    Grows z (State.maccStep s p r) := by
  unfold State.maccStep
  repeat' first
    | with_reducible assumption
    | intro _
    | with_reducible apply State.withTags_grows
    | with_reducible apply State.maccRow_grows
    | with_reducible apply State.modPav_grows
    | with_reducible apply Grows.ite
    | dsimp only

theorem State.drainRows_grows {z : State} (s : State) (p : Nat) (r : Pass) (k : Nat) (x4 : Nat) (hs : Grows z s) :
    Grows z (State.drainRows s p r k x4) := by
  induction x4 generalizing s p r k with
  | zero =>
    simp only [State.drainRows]
    assumption
  | succ n ih =>
    simp only [State.drainRows]
    repeat' first
      | with_reducible assumption
      | with_reducible apply ih
      | intro _
      | with_reducible apply State.tagged_grows
      | with_reducible apply State.outputRow_grows
      | with_reducible apply State.modME_grows
      | with_reducible apply State.withTags_grows
      | with_reducible apply Grows.ite
      | dsimp only

end Sys2Proof.Machine
end

