-- ==== Sys2Proof/Laws/GrowsUnpack.lean ====
section
/-! SUPPORT. The operations of Machine/Unpack.lean keep `Grows` (Laws/Grows.lean). -/

namespace Sys2Proof.Machine

theorem State.unpackCheck_grows {z : State} (s : State) (p : Nat) (c : Chk) (rows : List (Nat × Nat)) (hs : Grows z s) :
    Grows z (State.unpackCheck s p c rows) := by
  unfold State.unpackCheck
  repeat' first
    | with_reducible assumption
    | intro _
    | with_reducible apply State.each_grows
    | with_reducible apply State.poisonLocal_grows
    | with_reducible apply State.checkFault_grows
    | dsimp only
    | split

theorem State.writeSquare_grows {z : State} (s : State) (p : Nat) (i : Nat) (x : PathSquare) (hs : Grows z s) :
    Grows z (State.writeSquare s p i x) := by
  unfold State.writeSquare
  repeat' first
    | with_reducible assumption
    | intro _
    | with_reducible apply State.raise_grows
    | with_reducible apply State.putElems_grows
    | dsimp only

theorem State.runPath_grows {z : State} (s : State) (p : Nat) (i : Nat) (read : State → Nat × Nat → PathSquare × State) (x4 : List (Nat × Nat)) (x5 : List PathSquare) (x6 : List (Nat × List Put)) (hs : Grows z s) (hread : ∀ v0 v1, Grows z v0 → Grows z (read v0 v1).2) :
    Grows z (State.runPath s p i read x4 x5 x6).2 := by
  induction x4 generalizing s x5 x6 with
  | nil =>
    exact State.each_grows _ _ _ hs (fun t a h => State.writeSquare_grows t p i a h)
  | cons e l ih =>
    have hr := hread s e hs
    rw [State.runPath]
    generalize x5 ++ [(read s e).1] = held
    cases held with
    | nil => exact ih _ _ _ hr
    | cons x rest => exact Grows.ite2 _ (ih _ _ _ (State.writeSquare_grows _ p i x hr)) (ih _ _ _ hr)

theorem State.readStash_grows {z : State} (p : Nat) (m : Munpk) (xp : Nat) (yp : Nat) (s : State) (e : Nat × Nat) (hs : Grows z s) :
    Grows z (State.readStash p m xp yp s e).2 := by
  unfold State.readStash
  repeat' first
    | with_reducible assumption
    | intro _
    | with_reducible apply State.operandBytes_grows
    | dsimp only

theorem munpkEff_grows {z : State} (p : Nat) (i : Nat) (w : Nat) (c : Chk) (t : Strm) (ids : List Nat) (s : State) (hs : Grows z s) :
    Grows z (munpkEff p i w c t ids s) := by
  unfold munpkEff
  repeat' first
    | with_reducible assumption
    | intro _
    | with_reducible apply State.runPath_grows
    | with_reducible apply State.readStash_grows
    | with_reducible apply State.unpackCheck_grows
    | with_reducible apply State.release_grows
    | dsimp only

theorem State.runMunpk_grows {z : State} (s : State) (p : Nat) (i : Nat) (w : Nat) (c : Chk) (hs : Grows z s) :
    Grows z (State.runMunpk s p i w c) := by
  unfold State.runMunpk
  repeat' first
    | with_reducible assumption
    | intro _
    | with_reducible apply State.issue_grows
    | with_reducible apply munpkEff_grows
    | dsimp only

theorem State.readPack_grows {z : State} (p : Nat) (m : Mpack) (xp : Nat) (yp : Nat) (base : Nat) (s : State) (e : Nat × Nat) (hs : Grows z s) :
    Grows z (State.readPack p m xp yp base s e).2 := by
  unfold State.readPack
  repeat' first
    | with_reducible assumption
    | intro _
    | with_reducible apply State.operandRows_grows
    | with_reducible apply Grows.ite
    | dsimp only

theorem State.putScales_grows {z : State} (s : State) (p : Nat) (i : Nat) (m : Mpack) (l : List (Nat × List Put)) (hs : Grows z s) :
    Grows z (State.putScales s p i m l) := by
  unfold State.putScales
  repeat' first
    | with_reducible assumption
    | intro _
    | with_reducible apply State.each_grows
    | with_reducible apply State.putElems_grows
    | dsimp only

theorem mpackEff_grows {z : State} (p : Nat) (i : Nat) (w : Nat) (c : Chk) (t : Strm) (ids : List Nat) (s : State) (hs : Grows z s) :
    Grows z (mpackEff p i w c t ids s) := by
  unfold mpackEff
  repeat' first
    | with_reducible assumption
    | intro _
    | with_reducible apply State.runPath_grows
    | with_reducible apply State.readPack_grows
    | with_reducible apply State.putScales_grows
    | with_reducible apply State.modPav_grows
    | with_reducible apply State.unpackCheck_grows
    | with_reducible apply State.release_grows
    | with_reducible apply Grows.ite
    | dsimp only

theorem State.runMpack_grows {z : State} (s : State) (p : Nat) (i : Nat) (w : Nat) (c : Chk) (hs : Grows z s) :
    Grows z (State.runMpack s p i w c) := by
  unfold State.runMpack
  repeat' first
    | with_reducible assumption
    | intro _
    | with_reducible apply State.issue_grows
    | with_reducible apply mpackEff_grows
    | dsimp only

end Sys2Proof.Machine
end

