-- ==== Sys2Proof/Laws/GrowsVecForm.lean ====
section
/-! SUPPORT. The operations of Machine/VecForm.lean keep `Grows` (Laws/Grows.lean). -/

namespace Sys2Proof.Machine

theorem State.veOperand_grows {z : State} (s : State) (p : Nat) (a : Nat) (w : Nat) (n : Nat) (used : List Bool) (hs : Grows z s) :
    Grows z (State.veOperand s p a w n used).2 := by
  unfold State.veOperand
  repeat' first
    | with_reducible assumption
    | intro _
    | with_reducible apply State.rowsRead_grows
    | with_reducible apply State.consumeList_grows
    | with_reducible apply Grows.ite
    | dsimp only
    | split

theorem State.takeStream_grows {z : State} (s : State) (p : Nat) (n : Nat) (hs : Grows z s) :
    Grows z (State.takeStream s p n).2 := by
  unfold State.takeStream
  repeat' first
    | with_reducible assumption
    | intro _
    | with_reducible apply State.modME_grows
    | dsimp only

theorem State.consumePred_grows {z : State} (s : State) (p : Nat) (pr : Nat) (hs : Grows z s) :
    Grows z (State.consumePred s p pr) := by
  unfold State.consumePred
  repeat' first
    | with_reducible assumption
    | intro _
    | with_reducible apply State.recover_grows
    | with_reducible apply State.freeze_grows
    | with_reducible apply State.modAllot_grows
    | with_reducible apply State.stopJob_grows
    | with_reducible apply State.record_grows
    | with_reducible apply Grows.ite
    | dsimp only
    | split

theorem State.veRead_grows {z : State} (s : State) (p : Nat) (v : Vop) (usedA : Nat → Nat → List Bool) (usedB : Nat → Nat → List Bool) (hs : Grows z s) :
    Grows z (State.veRead s p v usedA usedB).2 := by
  unfold State.veRead
  repeat' first
    | with_reducible assumption
    | intro _
    | with_reducible apply State.consumePred_grows
    | with_reducible apply State.localGet_grows
    | with_reducible apply State.operandBytes_grows
    | with_reducible apply State.takeStream_grows
    | with_reducible apply State.veOperand_grows
    | with_reducible apply Grows.ite
    | with_reducible apply Grows.ite2
    | with_reducible apply Grows.ite3
    | dsimp only
    | split

theorem State.veCheck_grows {z : State} (s : State) (p : Nat) (v : Vop) (imm : Nat) (c : Chk) (hs : Grows z s) :
    Grows z (State.veCheck s p v imm c) := by
  unfold State.veCheck
  repeat' first
    | with_reducible assumption
    | intro _
    | with_reducible apply State.each_grows
    | with_reducible apply State.poisonLocal_grows
    | with_reducible apply State.modVE_grows
    | with_reducible apply State.checkFault_grows
    | with_reducible apply Grows.ite
    | dsimp only
    | split

theorem State.vePut_grows {z : State} (s : State) (p : Nat) (i : Nat) (v : Vop) (x : VIn) (outs : List (List VRes)) (hs : Grows z s) :
    Grows z (State.vePut s p i v x outs) := by
  unfold State.vePut
  repeat' first
    | with_reducible assumption
    | intro _
    | with_reducible apply State.each_grows
    | with_reducible apply State.putElems_grows
    | with_reducible apply State.veFlags_grows
    | dsimp only

theorem State.veRelease_grows {z : State} (s : State) (p : Nat) (v : Vop) (pass : Option Nat) (imm : Nat) (ids : List Nat) (hs : Grows z s) :
    Grows z (State.veRelease s p v pass imm ids) := by
  unfold State.veRelease
  repeat' first
    | with_reducible assumption
    | intro _
    | with_reducible apply State.release_grows
    | with_reducible apply State.modME_grows
    | dsimp only
    | split

theorem State.noteFed_grows {z : State} (s : State) (p : Nat) (v : Vop) (rows : List (Nat × Nat)) (imm : Nat) (ids : List Nat) (hs : Grows z s) :
    Grows z (State.noteFed s p v rows imm ids) := by
  unfold State.noteFed
  repeat' first
    | with_reducible assumption
    | intro _
    | with_reducible apply State.modME_grows
    | dsimp only

theorem State.veDone_grows {z : State} (s : State) (p : Nat) (v : Vop) (pass : Option Nat) (rows : List (Nat × Nat)) (imm : Nat) (c : Chk) (ids : List Nat) (hs : Grows z s) :
    Grows z (State.veDone s p v pass rows imm c ids) := by
  unfold State.veDone
  repeat' first
    | with_reducible assumption
    | intro _
    | with_reducible apply State.veCheck_grows
    | with_reducible apply State.veRelease_grows
    | with_reducible apply State.noteFed_grows
    | dsimp only

theorem State.runVe_grows {z : State} (s : State) (p : Nat) (i : Nat) (v : Vop) (c : Chk) (eff : State → State) (hs : Grows z s) (heff : ∀ v0, Grows z v0 → Grows z (eff v0)) :
    Grows z (State.runVe s p i v c eff) := by
  unfold State.runVe
  repeat' first
    | with_reducible assumption
    | intro _
    | with_reducible apply heff
    | with_reducible apply State.issue_grows
    | with_reducible apply State.veDone_grows
    | dsimp only

end Sys2Proof.Machine
end

