-- ==== Sys2Proof/Laws/GrowsVector.lean ====
section
/-! SUPPORT. The operations of Machine/Vector.lean keep `Grows` (Laws/Grows.lean). -/

namespace Sys2Proof.Machine

theorem State.veMap_grows {z : State} (s : State) (p : Nat) (i : Nat) (v : Vop) (used : Nat → Nat → List Bool) (f : VIn → Nat → Nat × Flags) (bad : VIn → Nat → Bool) (hs : Grows z s) :
    Grows z (State.veMap s p i v used f bad) := by
  unfold State.veMap
  repeat' first
    | with_reducible assumption
    | intro _
    | with_reducible apply State.veRead_grows
    | with_reducible apply State.vePut_grows
    | with_reducible apply Grows.ite
    | dsimp only

theorem State.takeDraws_grows {z : State} (s : State) (p : Nat) (on : Bool) (n : Nat) (hs : Grows z s) :
    Grows z (State.takeDraws s p on n) := by
  unfold State.takeDraws
  repeat' first
    | with_reducible assumption
    | intro _
    | with_reducible apply State.modPav_grows
    | with_reducible apply Grows.ite
    | dsimp only

theorem State.veArith_grows {z : State} (s : State) (p : Nat) (i : Nat) (v : Vop) (g : VIn → Nat → FV × Flags) (bad : VIn → Nat → Bool) (hs : Grows z s) :
    Grows z (State.veArith s p i v g bad) := by
  unfold State.veArith
  repeat' first
    | with_reducible assumption
    | intro _
    | with_reducible apply State.takeDraws_grows
    | with_reducible apply State.veMap_grows
    | dsimp only

theorem State.veInt_grows {z : State} (s : State) (p : Nat) (i : Nat) (v : Vop) (f : VIn → Nat → Nat) (bad : VIn → Nat → Bool) (hs : Grows z s) :
    Grows z (State.veInt s p i v f bad) := by
  unfold State.veInt
  repeat' first
    | with_reducible assumption
    | intro _
    | with_reducible apply State.veMap_grows
    | dsimp only

theorem State.veMove_grows {z : State} (s : State) (p : Nat) (i : Nat) (v : Vop) (f : VIn → Nat → Nat) (bad : VIn → Nat → Bool) (hs : Grows z s) :
    Grows z (State.veMove s p i v f bad) := by
  unfold State.veMove
  repeat' first
    | with_reducible assumption
    | intro _
    | with_reducible apply State.veMap_grows
    | dsimp only

theorem State.veCompare_grows {z : State} (s : State) (p : Nat) (v : Vop) (f : VIn → Nat → Bool × Flags) (bad : VIn → Nat → Bool) (hs : Grows z s) :
    Grows z (State.veCompare s p v f bad) := by
  unfold State.veCompare
  repeat' first
    | with_reducible assumption
    | intro _
    | with_reducible apply State.veRead_grows
    | with_reducible apply State.modVE_grows
    | with_reducible apply State.veFlags_grows
    | with_reducible apply Grows.foldl
    | with_reducible apply Grows.ite
    | dsimp only

theorem State.veTrans_grows {z : State} (s : State) (p : Nat) (i : Nat) (v : Vop) (hs : Grows z s) :
    Grows z (State.veTrans s p i v) := by
  unfold State.veTrans
  repeat' first
    | with_reducible assumption
    | intro _
    | with_reducible apply State.veArith_grows
    | with_reducible apply Grows.ite
    | dsimp only

theorem vaddEff_grows {z : State} (p : Nat) (i : Nat) (v : Vop) (s : State) (hs : Grows z s) :
    Grows z (vaddEff p i v s) := by
  unfold vaddEff
  repeat' first
    | with_reducible assumption
    | intro _
    | with_reducible apply State.veArith_grows
    | dsimp only

theorem State.runVadd_grows {z : State} (s : State) (p : Nat) (i : Nat) (w : Nat) (c : Chk) (hs : Grows z s) :
    Grows z (State.runVadd s p i w c) := by
  unfold State.runVadd
  repeat' first
    | with_reducible assumption
    | intro _
    | with_reducible apply State.runVe_grows
    | with_reducible apply vaddEff_grows
    | dsimp only

theorem vsubEff_grows {z : State} (p : Nat) (i : Nat) (v : Vop) (s : State) (hs : Grows z s) :
    Grows z (vsubEff p i v s) := by
  unfold vsubEff
  repeat' first
    | with_reducible assumption
    | intro _
    | with_reducible apply State.veArith_grows
    | dsimp only

theorem State.runVsub_grows {z : State} (s : State) (p : Nat) (i : Nat) (w : Nat) (c : Chk) (hs : Grows z s) :
    Grows z (State.runVsub s p i w c) := by
  unfold State.runVsub
  repeat' first
    | with_reducible assumption
    | intro _
    | with_reducible apply State.runVe_grows
    | with_reducible apply vsubEff_grows
    | dsimp only

theorem vmulEff_grows {z : State} (p : Nat) (i : Nat) (v : Vop) (s : State) (hs : Grows z s) :
    Grows z (vmulEff p i v s) := by
  unfold vmulEff
  repeat' first
    | with_reducible assumption
    | intro _
    | with_reducible apply State.veArith_grows
    | dsimp only

theorem State.runVmul_grows {z : State} (s : State) (p : Nat) (i : Nat) (w : Nat) (c : Chk) (hs : Grows z s) :
    Grows z (State.runVmul s p i w c) := by
  unfold State.runVmul
  repeat' first
    | with_reducible assumption
    | intro _
    | with_reducible apply State.runVe_grows
    | with_reducible apply vmulEff_grows
    | dsimp only

theorem vfmaEff_grows {z : State} (p : Nat) (i : Nat) (v : Vop) (s : State) (hs : Grows z s) :
    Grows z (vfmaEff p i v s) := by
  unfold vfmaEff
  repeat' first
    | with_reducible assumption
    | intro _
    | with_reducible apply State.veArith_grows
    | dsimp only

theorem State.runVfma_grows {z : State} (s : State) (p : Nat) (i : Nat) (w : Nat) (c : Chk) (hs : Grows z s) :
    Grows z (State.runVfma s p i w c) := by
  unfold State.runVfma
  repeat' first
    | with_reducible assumption
    | intro _
    | with_reducible apply State.runVe_grows
    | with_reducible apply vfmaEff_grows
    | dsimp only

theorem vfmaiEff_grows {z : State} (p : Nat) (i : Nat) (v : Vop) (s : State) (hs : Grows z s) :
    Grows z (vfmaiEff p i v s) := by
  unfold vfmaiEff
  repeat' first
    | with_reducible assumption
    | intro _
    | with_reducible apply State.veArith_grows
    | dsimp only

theorem State.runVfmai_grows {z : State} (s : State) (p : Nat) (i : Nat) (w : Nat) (c : Chk) (hs : Grows z s) :
    Grows z (State.runVfmai s p i w c) := by
  unfold State.runVfmai
  repeat' first
    | with_reducible assumption
    | intro _
    | with_reducible apply State.runVe_grows
    | with_reducible apply vfmaiEff_grows
    | dsimp only

theorem vaddiEff_grows {z : State} (p : Nat) (i : Nat) (v : Vop) (s : State) (hs : Grows z s) :
    Grows z (vaddiEff p i v s) := by
  unfold vaddiEff
  repeat' first
    | with_reducible assumption
    | intro _
    | with_reducible apply State.veArith_grows
    | with_reducible apply Grows.ite
    | dsimp only

theorem State.runVaddi_grows {z : State} (s : State) (p : Nat) (i : Nat) (w : Nat) (c : Chk) (hs : Grows z s) :
    Grows z (State.runVaddi s p i w c) := by
  unfold State.runVaddi
  repeat' first
    | with_reducible assumption
    | intro _
    | with_reducible apply State.runVe_grows
    | with_reducible apply vaddiEff_grows
    | dsimp only

theorem vmuliEff_grows {z : State} (p : Nat) (i : Nat) (v : Vop) (s : State) (hs : Grows z s) :
    Grows z (vmuliEff p i v s) := by
  unfold vmuliEff
  repeat' first
    | with_reducible assumption
    | intro _
    | with_reducible apply State.veArith_grows
    | dsimp only

theorem State.runVmuli_grows {z : State} (s : State) (p : Nat) (i : Nat) (w : Nat) (c : Chk) (hs : Grows z s) :
    Grows z (State.runVmuli s p i w c) := by
  unfold State.runVmuli
  repeat' first
    | with_reducible assumption
    | intro _
    | with_reducible apply State.runVe_grows
    | with_reducible apply vmuliEff_grows
    | dsimp only

theorem vmaxEff_grows {z : State} (p : Nat) (i : Nat) (v : Vop) (s : State) (hs : Grows z s) :
    Grows z (vmaxEff p i v s) := by
  unfold vmaxEff
  repeat' first
    | with_reducible assumption
    | intro _
    | with_reducible apply State.veArith_grows
    | dsimp only

theorem State.runVmax_grows {z : State} (s : State) (p : Nat) (i : Nat) (w : Nat) (c : Chk) (hs : Grows z s) :
    Grows z (State.runVmax s p i w c) := by
  unfold State.runVmax
  repeat' first
    | with_reducible assumption
    | intro _
    | with_reducible apply State.runVe_grows
    | with_reducible apply vmaxEff_grows
    | dsimp only

theorem vminEff_grows {z : State} (p : Nat) (i : Nat) (v : Vop) (s : State) (hs : Grows z s) :
    Grows z (vminEff p i v s) := by
  unfold vminEff
  repeat' first
    | with_reducible assumption
    | intro _
    | with_reducible apply State.veArith_grows
    | dsimp only

theorem State.runVmin_grows {z : State} (s : State) (p : Nat) (i : Nat) (w : Nat) (c : Chk) (hs : Grows z s) :
    Grows z (State.runVmin s p i w c) := by
  unfold State.runVmin
  repeat' first
    | with_reducible assumption
    | intro _
    | with_reducible apply State.runVe_grows
    | with_reducible apply vminEff_grows
    | dsimp only

theorem vabsEff_grows {z : State} (p : Nat) (i : Nat) (v : Vop) (s : State) (hs : Grows z s) :
    Grows z (vabsEff p i v s) := by
  unfold vabsEff
  repeat' first
    | with_reducible assumption
    | intro _
    | with_reducible apply State.veMove_grows
    | with_reducible apply Grows.ite
    | dsimp only

theorem State.runVabs_grows {z : State} (s : State) (p : Nat) (i : Nat) (w : Nat) (c : Chk) (hs : Grows z s) :
    Grows z (State.runVabs s p i w c) := by
  unfold State.runVabs
  repeat' first
    | with_reducible assumption
    | intro _
    | with_reducible apply State.runVe_grows
    | with_reducible apply vabsEff_grows
    | dsimp only

theorem vnegEff_grows {z : State} (p : Nat) (i : Nat) (v : Vop) (s : State) (hs : Grows z s) :
    Grows z (vnegEff p i v s) := by
  unfold vnegEff
  repeat' first
    | with_reducible assumption
    | intro _
    | with_reducible apply State.veMove_grows
    | dsimp only

theorem State.runVneg_grows {z : State} (s : State) (p : Nat) (i : Nat) (w : Nat) (c : Chk) (hs : Grows z s) :
    Grows z (State.runVneg s p i w c) := by
  unfold State.runVneg
  repeat' first
    | with_reducible assumption
    | intro _
    | with_reducible apply State.runVe_grows
    | with_reducible apply vnegEff_grows
    | dsimp only

theorem vbcastEff_grows {z : State} (p : Nat) (i : Nat) (v : Vop) (s : State) (hs : Grows z s) :
    Grows z (vbcastEff p i v s) := by
  unfold vbcastEff
  repeat' first
    | with_reducible assumption
    | intro _
    | with_reducible apply State.veMove_grows
    | with_reducible apply Grows.ite
    | dsimp only

theorem State.runVbcast_grows {z : State} (s : State) (p : Nat) (i : Nat) (w : Nat) (c : Chk) (hs : Grows z s) :
    Grows z (State.runVbcast s p i w c) := by
  unfold State.runVbcast
  repeat' first
    | with_reducible assumption
    | intro _
    | with_reducible apply State.runVe_grows
    | with_reducible apply vbcastEff_grows
    | dsimp only

theorem viaddEff_grows {z : State} (p : Nat) (i : Nat) (v : Vop) (s : State) (hs : Grows z s) :
    Grows z (viaddEff p i v s) := by
  unfold viaddEff
  repeat' first
    | with_reducible assumption
    | intro _
    | with_reducible apply State.veInt_grows
    | with_reducible apply Grows.ite
    | dsimp only

theorem State.runViadd_grows {z : State} (s : State) (p : Nat) (i : Nat) (w : Nat) (c : Chk) (hs : Grows z s) :
    Grows z (State.runViadd s p i w c) := by
  unfold State.runViadd
  repeat' first
    | with_reducible assumption
    | intro _
    | with_reducible apply State.runVe_grows
    | with_reducible apply viaddEff_grows
    | dsimp only

theorem vimulEff_grows {z : State} (p : Nat) (i : Nat) (v : Vop) (s : State) (hs : Grows z s) :
    Grows z (vimulEff p i v s) := by
  unfold vimulEff
  repeat' first
    | with_reducible assumption
    | intro _
    | with_reducible apply State.veInt_grows
    | dsimp only

theorem State.runVimul_grows {z : State} (s : State) (p : Nat) (i : Nat) (w : Nat) (c : Chk) (hs : Grows z s) :
    Grows z (State.runVimul s p i w c) := by
  unfold State.runVimul
  repeat' first
    | with_reducible assumption
    | intro _
    | with_reducible apply State.runVe_grows
    | with_reducible apply vimulEff_grows
    | dsimp only

theorem vilogEff_grows {z : State} (p : Nat) (i : Nat) (v : Vop) (s : State) (hs : Grows z s) :
    Grows z (vilogEff p i v s) := by
  unfold vilogEff
  repeat' first
    | with_reducible assumption
    | intro _
    | with_reducible apply State.veInt_grows
    | dsimp only
    | split

theorem State.runVilog_grows {z : State} (s : State) (p : Nat) (i : Nat) (w : Nat) (c : Chk) (hs : Grows z s) :
    Grows z (State.runVilog s p i w c) := by
  unfold State.runVilog
  repeat' first
    | with_reducible assumption
    | intro _
    | with_reducible apply State.runVe_grows
    | with_reducible apply vilogEff_grows
    | dsimp only

theorem vishiEff_grows {z : State} (p : Nat) (i : Nat) (v : Vop) (s : State) (hs : Grows z s) :
    Grows z (vishiEff p i v s) := by
  unfold vishiEff
  repeat' first
    | with_reducible assumption
    | intro _
    | with_reducible apply State.veInt_grows
    | dsimp only
    | split

theorem State.runVishi_grows {z : State} (s : State) (p : Nat) (i : Nat) (w : Nat) (c : Chk) (hs : Grows z s) :
    Grows z (State.runVishi s p i w c) := by
  unfold State.runVishi
  repeat' first
    | with_reducible assumption
    | intro _
    | with_reducible apply State.runVe_grows
    | with_reducible apply vishiEff_grows
    | dsimp only

theorem vcmpEff_grows {z : State} (p : Nat) (x1 : Nat) (v : Vop) (s : State) (hs : Grows z s) :
    Grows z (vcmpEff p x1 v s) := by
  unfold vcmpEff
  repeat' first
    | with_reducible assumption
    | intro _
    | with_reducible apply State.veCompare_grows
    | dsimp only

theorem State.runVcmp_grows {z : State} (s : State) (p : Nat) (i : Nat) (w : Nat) (c : Chk) (hs : Grows z s) :
    Grows z (State.runVcmp s p i w c) := by
  unfold State.runVcmp
  repeat' first
    | with_reducible assumption
    | intro _
    | with_reducible apply State.runVe_grows
    | with_reducible apply vcmpEff_grows
    | dsimp only

theorem vcmpiEff_grows {z : State} (p : Nat) (x1 : Nat) (v : Vop) (s : State) (hs : Grows z s) :
    Grows z (vcmpiEff p x1 v s) := by
  unfold vcmpiEff
  repeat' first
    | with_reducible assumption
    | intro _
    | with_reducible apply State.veCompare_grows
    | dsimp only

theorem State.runVcmpi_grows {z : State} (s : State) (p : Nat) (i : Nat) (w : Nat) (c : Chk) (hs : Grows z s) :
    Grows z (State.runVcmpi s p i w c) := by
  unfold State.runVcmpi
  repeat' first
    | with_reducible assumption
    | intro _
    | with_reducible apply State.runVe_grows
    | with_reducible apply vcmpiEff_grows
    | dsimp only

theorem vicmpEff_grows {z : State} (p : Nat) (x1 : Nat) (v : Vop) (s : State) (hs : Grows z s) :
    Grows z (vicmpEff p x1 v s) := by
  unfold vicmpEff
  repeat' first
    | with_reducible assumption
    | intro _
    | with_reducible apply State.veCompare_grows
    | dsimp only

theorem State.runVicmp_grows {z : State} (s : State) (p : Nat) (i : Nat) (w : Nat) (c : Chk) (hs : Grows z s) :
    Grows z (State.runVicmp s p i w c) := by
  unfold State.runVicmp
  repeat' first
    | with_reducible assumption
    | intro _
    | with_reducible apply State.runVe_grows
    | with_reducible apply vicmpEff_grows
    | dsimp only

theorem vselEff_grows {z : State} (p : Nat) (i : Nat) (v : Vop) (s : State) (hs : Grows z s) :
    Grows z (vselEff p i v s) := by
  unfold vselEff
  repeat' first
    | with_reducible assumption
    | intro _
    | with_reducible apply State.veMove_grows
    | with_reducible apply Grows.ite
    | dsimp only

theorem State.runVsel_grows {z : State} (s : State) (p : Nat) (i : Nat) (w : Nat) (c : Chk) (hs : Grows z s) :
    Grows z (State.runVsel s p i w c) := by
  unfold State.runVsel
  repeat' first
    | with_reducible assumption
    | intro _
    | with_reducible apply State.runVe_grows
    | with_reducible apply vselEff_grows
    | dsimp only

theorem vpstEff_grows {z : State} (p : Nat) (i : Nat) (v : Vop) (s : State) (hs : Grows z s) :
    Grows z (vpstEff p i v s) := by
  unfold vpstEff
  repeat' first
    | with_reducible assumption
    | intro _
    | with_reducible apply State.veRead_grows
    | with_reducible apply State.vePut_grows
    | dsimp only

theorem State.runVpst_grows {z : State} (s : State) (p : Nat) (i : Nat) (w : Nat) (c : Chk) (hs : Grows z s) :
    Grows z (State.runVpst s p i w c) := by
  unfold State.runVpst
  repeat' first
    | with_reducible assumption
    | intro _
    | with_reducible apply State.runVe_grows
    | with_reducible apply vpstEff_grows
    | dsimp only

theorem vpldEff_grows {z : State} (p : Nat) (x1 : Nat) (v : Vop) (s : State) (hs : Grows z s) :
    Grows z (vpldEff p x1 v s) := by
  unfold vpldEff
  repeat' first
    | with_reducible assumption
    | intro _
    | with_reducible apply State.veRead_grows
    | with_reducible apply State.veFlags_grows
    | with_reducible apply State.modVE_grows
    | with_reducible apply Grows.foldl
    | dsimp only

theorem State.runVpld_grows {z : State} (s : State) (p : Nat) (i : Nat) (w : Nat) (c : Chk) (hs : Grows z s) :
    Grows z (State.runVpld s p i w c) := by
  unfold State.runVpld
  repeat' first
    | with_reducible assumption
    | intro _
    | with_reducible apply State.runVe_grows
    | with_reducible apply vpldEff_grows
    | dsimp only

theorem vpcntEff_grows {z : State} (p : Nat) (i : Nat) (v : Vop) (s : State) (hs : Grows z s) :
    Grows z (vpcntEff p i v s) := by
  unfold vpcntEff
  repeat' first
    | with_reducible assumption
    | with_reducible apply State.veRead_grows
    | with_reducible apply State.vePut_grows
    | dsimp only

theorem State.runVpcnt_grows {z : State} (s : State) (p : Nat) (i : Nat) (w : Nat) (c : Chk) (hs : Grows z s) :
    Grows z (State.runVpcnt s p i w c) := by
  unfold State.runVpcnt
  repeat' first
    | with_reducible assumption
    | intro _
    | with_reducible apply State.runVe_grows
    | with_reducible apply vpcntEff_grows
    | dsimp only

theorem vcvtEff_grows {z : State} (p : Nat) (i : Nat) (v : Vop) (s : State) (hs : Grows z s) :
    Grows z (vcvtEff p i v s) := by
  unfold vcvtEff
  repeat' first
    | with_reducible assumption
    | intro _
    | with_reducible apply State.veArith_grows
    | dsimp only

theorem State.runVcvt_grows {z : State} (s : State) (p : Nat) (i : Nat) (w : Nat) (c : Chk) (hs : Grows z s) :
    Grows z (State.runVcvt s p i w c) := by
  unfold State.runVcvt
  repeat' first
    | with_reducible assumption
    | intro _
    | with_reducible apply State.runVe_grows
    | with_reducible apply vcvtEff_grows
    | dsimp only

theorem vpkmxEff_grows {z : State} (p : Nat) (i : Nat) (v : Vop) (s : State) (hs : Grows z s) :
    Grows z (vpkmxEff p i v s) := by
  unfold vpkmxEff
  repeat' first
    | with_reducible assumption
    | intro _
    | with_reducible apply State.veRead_grows
    | with_reducible apply State.takeDraws_grows
    | with_reducible apply State.vePut_grows
    | with_reducible apply Grows.ite
    | dsimp only

theorem State.runVpkmx_grows {z : State} (s : State) (p : Nat) (i : Nat) (w : Nat) (c : Chk) (hs : Grows z s) :
    Grows z (State.runVpkmx s p i w c) := by
  unfold State.runVpkmx
  repeat' first
    | with_reducible assumption
    | intro _
    | with_reducible apply State.runVe_grows
    | with_reducible apply vpkmxEff_grows
    | dsimp only

theorem vupmxEff_grows {z : State} (p : Nat) (i : Nat) (v : Vop) (s : State) (hs : Grows z s) :
    Grows z (vupmxEff p i v s) := by
  unfold vupmxEff
  repeat' first
    | with_reducible assumption
    | intro _
    | with_reducible apply State.veRead_grows
    | with_reducible apply State.takeDraws_grows
    | with_reducible apply State.vePut_grows
    | with_reducible apply Grows.ite
    | dsimp only

theorem State.runVupmx_grows {z : State} (s : State) (p : Nat) (i : Nat) (w : Nat) (c : Chk) (hs : Grows z s) :
    Grows z (State.runVupmx s p i w c) := by
  unfold State.runVupmx
  repeat' first
    | with_reducible assumption
    | intro _
    | with_reducible apply State.runVe_grows
    | with_reducible apply vupmxEff_grows
    | dsimp only

theorem vsplitEff_grows {z : State} (p : Nat) (i : Nat) (v : Vop) (s : State) (hs : Grows z s) :
    Grows z (vsplitEff p i v s) := by
  unfold vsplitEff
  repeat' first
    | with_reducible assumption
    | intro _
    | with_reducible apply State.veRead_grows
    | with_reducible apply State.vePut_grows
    | with_reducible apply Grows.ite
    | dsimp only

theorem State.runVsplit_grows {z : State} (s : State) (p : Nat) (i : Nat) (w : Nat) (c : Chk) (hs : Grows z s) :
    Grows z (State.runVsplit s p i w c) := by
  unfold State.runVsplit
  repeat' first
    | with_reducible assumption
    | intro _
    | with_reducible apply State.runVe_grows
    | with_reducible apply vsplitEff_grows
    | dsimp only

theorem vi2fEff_grows {z : State} (p : Nat) (i : Nat) (v : Vop) (s : State) (hs : Grows z s) :
    Grows z (vi2fEff p i v s) := by
  unfold vi2fEff
  repeat' first
    | with_reducible assumption
    | intro _
    | with_reducible apply State.veArith_grows
    | dsimp only

theorem State.runVi2f_grows {z : State} (s : State) (p : Nat) (i : Nat) (w : Nat) (c : Chk) (hs : Grows z s) :
    Grows z (State.runVi2f s p i w c) := by
  unfold State.runVi2f
  repeat' first
    | with_reducible assumption
    | intro _
    | with_reducible apply State.runVe_grows
    | with_reducible apply vi2fEff_grows
    | dsimp only

theorem vf2iEff_grows {z : State} (p : Nat) (i : Nat) (v : Vop) (s : State) (hs : Grows z s) :
    Grows z (vf2iEff p i v s) := by
  unfold vf2iEff
  repeat' first
    | with_reducible assumption
    | intro _
    | with_reducible apply State.veMap_grows
    | dsimp only

theorem State.runVf2i_grows {z : State} (s : State) (p : Nat) (i : Nat) (w : Nat) (c : Chk) (hs : Grows z s) :
    Grows z (State.runVf2i s p i w c) := by
  unfold State.runVf2i
  repeat' first
    | with_reducible assumption
    | intro _
    | with_reducible apply State.runVe_grows
    | with_reducible apply vf2iEff_grows
    | dsimp only

theorem vrcpEff_grows {z : State} (p : Nat) (i : Nat) (v : Vop) (s : State) (hs : Grows z s) :
    Grows z (vrcpEff p i v s) := by
  unfold vrcpEff
  repeat' first
    | with_reducible assumption
    | with_reducible apply State.veTrans_grows

theorem State.runVrcp_grows {z : State} (s : State) (p : Nat) (i : Nat) (w : Nat) (c : Chk) (hs : Grows z s) :
    Grows z (State.runVrcp s p i w c) := by
  unfold State.runVrcp
  repeat' first
    | with_reducible assumption
    | intro _
    | with_reducible apply State.runVe_grows
    | with_reducible apply vrcpEff_grows
    | dsimp only

theorem vrsqrtEff_grows {z : State} (p : Nat) (i : Nat) (v : Vop) (s : State) (hs : Grows z s) :
    Grows z (vrsqrtEff p i v s) := by
  unfold vrsqrtEff
  repeat' first
    | with_reducible assumption
    | with_reducible apply State.veTrans_grows

theorem State.runVrsqrt_grows {z : State} (s : State) (p : Nat) (i : Nat) (w : Nat) (c : Chk) (hs : Grows z s) :
    Grows z (State.runVrsqrt s p i w c) := by
  unfold State.runVrsqrt
  repeat' first
    | with_reducible assumption
    | intro _
    | with_reducible apply State.runVe_grows
    | with_reducible apply vrsqrtEff_grows
    | dsimp only

theorem vexp2Eff_grows {z : State} (p : Nat) (i : Nat) (v : Vop) (s : State) (hs : Grows z s) :
    Grows z (vexp2Eff p i v s) := by
  unfold vexp2Eff
  repeat' first
    | with_reducible assumption
    | with_reducible apply State.veTrans_grows

theorem State.runVexp2_grows {z : State} (s : State) (p : Nat) (i : Nat) (w : Nat) (c : Chk) (hs : Grows z s) :
    Grows z (State.runVexp2 s p i w c) := by
  unfold State.runVexp2
  repeat' first
    | with_reducible assumption
    | intro _
    | with_reducible apply State.runVe_grows
    | with_reducible apply vexp2Eff_grows
    | dsimp only

theorem vlog2Eff_grows {z : State} (p : Nat) (i : Nat) (v : Vop) (s : State) (hs : Grows z s) :
    Grows z (vlog2Eff p i v s) := by
  unfold vlog2Eff
  repeat' first
    | with_reducible assumption
    | with_reducible apply State.veTrans_grows

theorem State.runVlog2_grows {z : State} (s : State) (p : Nat) (i : Nat) (w : Nat) (c : Chk) (hs : Grows z s) :
    Grows z (State.runVlog2 s p i w c) := by
  unfold State.runVlog2
  repeat' first
    | with_reducible assumption
    | intro _
    | with_reducible apply State.runVe_grows
    | with_reducible apply vlog2Eff_grows
    | dsimp only

theorem vtanhEff_grows {z : State} (p : Nat) (i : Nat) (v : Vop) (s : State) (hs : Grows z s) :
    Grows z (vtanhEff p i v s) := by
  unfold vtanhEff
  repeat' first
    | with_reducible assumption
    | with_reducible apply State.veTrans_grows

theorem State.runVtanh_grows {z : State} (s : State) (p : Nat) (i : Nat) (w : Nat) (c : Chk) (hs : Grows z s) :
    Grows z (State.runVtanh s p i w c) := by
  unfold State.runVtanh
  repeat' first
    | with_reducible assumption
    | intro _
    | with_reducible apply State.runVe_grows
    | with_reducible apply vtanhEff_grows
    | dsimp only

theorem vsigmEff_grows {z : State} (p : Nat) (i : Nat) (v : Vop) (s : State) (hs : Grows z s) :
    Grows z (vsigmEff p i v s) := by
  unfold vsigmEff
  repeat' first
    | with_reducible assumption
    | with_reducible apply State.veTrans_grows

theorem State.runVsigm_grows {z : State} (s : State) (p : Nat) (i : Nat) (w : Nat) (c : Chk) (hs : Grows z s) :
    Grows z (State.runVsigm s p i w c) := by
  unfold State.runVsigm
  repeat' first
    | with_reducible assumption
    | intro _
    | with_reducible apply State.runVe_grows
    | with_reducible apply vsigmEff_grows
    | dsimp only

theorem vredEff_grows {z : State} (p : Nat) (i : Nat) (v : Vop) (s : State) (hs : Grows z s) :
    Grows z (vredEff p i v s) := by
  unfold vredEff
  repeat' first
    | with_reducible assumption
    | intro _
    | with_reducible apply State.veRead_grows
    | with_reducible apply State.takeDraws_grows
    | with_reducible apply State.vePut_grows
    | with_reducible apply Grows.ite
    | dsimp only
    | split

theorem State.runVred_grows {z : State} (s : State) (p : Nat) (i : Nat) (w : Nat) (c : Chk) (hs : Grows z s) :
    Grows z (State.runVred s p i w c) := by
  unfold State.runVred
  repeat' first
    | with_reducible assumption
    | intro _
    | with_reducible apply State.runVe_grows
    | with_reducible apply vredEff_grows
    | dsimp only

theorem vscanEff_grows {z : State} (p : Nat) (i : Nat) (v : Vop) (s : State) (hs : Grows z s) :
    Grows z (vscanEff p i v s) := by
  unfold vscanEff
  repeat' first
    | with_reducible assumption
    | intro _
    | with_reducible apply State.veRead_grows
    | with_reducible apply State.takeDraws_grows
    | with_reducible apply State.vePut_grows
    | with_reducible apply Grows.foldl
    | with_reducible apply Grows.ite
    | dsimp only
    | split

theorem State.runVscan_grows {z : State} (s : State) (p : Nat) (i : Nat) (w : Nat) (c : Chk) (hs : Grows z s) :
    Grows z (State.runVscan s p i w c) := by
  unfold State.runVscan
  repeat' first
    | with_reducible assumption
    | intro _
    | with_reducible apply State.runVe_grows
    | with_reducible apply vscanEff_grows
    | dsimp only

theorem vgathEff_grows {z : State} (p : Nat) (i : Nat) (v : Vop) (s : State) (hs : Grows z s) :
    Grows z (vgathEff p i v s) := by
  unfold vgathEff
  repeat' first
    | with_reducible assumption
    | intro _
    | with_reducible apply State.veRead_grows
    | with_reducible apply State.vePut_grows
    | with_reducible apply Grows.ite
    | dsimp only

theorem State.runVgath_grows {z : State} (s : State) (p : Nat) (i : Nat) (w : Nat) (c : Chk) (hs : Grows z s) :
    Grows z (State.runVgath s p i w c) := by
  unfold State.runVgath
  repeat' first
    | with_reducible assumption
    | intro _
    | with_reducible apply State.runVe_grows
    | with_reducible apply vgathEff_grows
    | dsimp only

theorem vflagsEff_grows {z : State} (p : Nat) (i : Nat) (v : Vop) (s : State) (hs : Grows z s) :
    Grows z (vflagsEff p i v s) := by
  unfold vflagsEff
  repeat' first
    | with_reducible assumption
    | intro _
    | with_reducible apply State.modVE_grows
    | with_reducible apply State.putElems_grows
    | with_reducible apply Grows.ite
    | dsimp only

theorem State.runVflags_grows {z : State} (s : State) (p : Nat) (i : Nat) (w : Nat) (c : Chk) (hs : Grows z s) :
    Grows z (State.runVflags s p i w c) := by
  unfold State.runVflags
  repeat' first
    | with_reducible assumption
    | intro _
    | with_reducible apply State.runVe_grows
    | with_reducible apply vflagsEff_grows
    | dsimp only

end Sys2Proof.Machine
end

