-- ==== Sys2Proof/Laws/GrowsControl.lean ====
section
/-! SUPPORT. The operations of Machine/Control.lean keep `Grows` (Laws/Grows.lean). -/

namespace Sys2Proof.Machine

theorem State.issueCtl_grows {z : State} (s : State) (p : Nat) (i : Nat) (op : Nat) (refuse : Option Nat) (f : Nat → State → State) (hs : Grows z s) (hf : ∀ v0 v1, Grows z v1 → Grows z (f v0 v1)) :
    Grows z (State.issueCtl s p i op refuse f) := by
  unfold State.issueCtl
  repeat' first
    | with_reducible assumption
    | intro _
    | with_reducible apply hf
    | with_reducible apply State.issue_grows
    | dsimp only

theorem State.runNop_grows {z : State} (s : State) (p : Nat) (i : Nat) (w : Nat) (hs : Grows z s) :
    Grows z (State.runNop s p i w) := by
  unfold State.runNop
  repeat' first
    | with_reducible assumption
    | intro _
    | with_reducible apply State.issueCtl_grows
    | dsimp only

theorem State.runWait_grows {z : State} (s : State) (p : Nat) (i : Nat) (w : Nat) (hs : Grows z s) :
    Grows z (State.runWait s p i w) := by
  unfold State.runWait
  repeat' first
    | with_reducible assumption
    | intro _
    | with_reducible apply State.issueCtl_grows
    | with_reducible apply State.hold_grows
    | with_reducible apply Grows.ite
    | dsimp only

theorem State.runHalt_grows {z : State} (s : State) (p : Nat) (i : Nat) (w : Nat) (hs : Grows z s) :
    Grows z (State.runHalt s p i w) := by
  unfold State.runHalt
  repeat' first
    | with_reducible assumption
    | intro _
    | with_reducible apply State.issueCtl_grows
    | with_reducible apply State.modStream_grows
    | dsimp only

theorem State.runLoop_grows {z : State} (s : State) (p : Nat) (i : Nat) (w : Nat) (hs : Grows z s) :
    Grows z (State.runLoop s p i w) := by
  unfold State.runLoop
  repeat' first
    | with_reducible assumption
    | intro _
    | with_reducible apply State.issueCtl_grows
    | with_reducible apply State.modStream_grows
    | dsimp only

theorem State.runSyncw_grows {z : State} (s : State) (p : Nat) (i : Nat) (w : Nat) (hs : Grows z s) :
    Grows z (State.runSyncw s p i w) := by
  unfold State.runSyncw
  repeat' first
    | with_reducible assumption
    | intro _
    | with_reducible apply State.issueCtl_grows
    | with_reducible apply State.hold_grows
    | with_reducible apply Grows.ite
    | dsimp only

theorem State.runSynca_grows {z : State} (s : State) (p : Nat) (i : Nat) (w : Nat) (hs : Grows z s) :
    Grows z (State.runSynca s p i w) := by
  unfold State.runSynca
  repeat' first
    | with_reducible assumption
    | intro _
    | with_reducible apply State.issueCtl_grows
    | with_reducible apply State.addCtr_grows
    | dsimp only

theorem State.runCpost_grows {z : State} (s : State) (p : Nat) (i : Nat) (w : Nat) (hs : Grows z s) :
    Grows z (State.runCpost s p i w) := by
  unfold State.runCpost
  repeat' first
    | with_reducible assumption
    | intro _
    | with_reducible apply State.issue_grows
    | with_reducible apply State.settlePosts_grows
    | with_reducible apply State.modSeq_grows
    | dsimp only

theorem State.runFence_grows {z : State} (s : State) (p : Nat) (i : Nat) (w : Nat) (hs : Grows z s) :
    Grows z (State.runFence s p i w) := by
  unfold State.runFence
  repeat' first
    | with_reducible assumption
    | intro _
    | with_reducible apply State.issueCtl_grows
    | with_reducible apply State.hold_grows
    | with_reducible apply Grows.ite
    | dsimp only

theorem State.runMarkp_grows {z : State} (s : State) (p : Nat) (i : Nat) (w : Nat) (hs : Grows z s) :
    Grows z (State.runMarkp s p i w) := by
  unfold State.runMarkp
  repeat' first
    | with_reducible assumption
    | intro _
    | with_reducible apply State.issueCtl_grows
    | with_reducible apply State.modStream_grows
    | with_reducible apply State.modSeq_grows
    | with_reducible apply Grows.ite
    | dsimp only

theorem State.issueAny_grows {z : State} (s : State) (p : PavIx) (i : Nat) (hs : Grows z s) :
    Grows z (State.issueAny s p i) := by
  unfold State.issueAny
  repeat' first
    | with_reducible assumption
    | intro _
    | with_reducible apply State.runNop_grows
    | with_reducible apply State.runWait_grows
    | with_reducible apply State.runHalt_grows
    | with_reducible apply State.runLoop_grows
    | with_reducible apply State.runSyncw_grows
    | with_reducible apply State.runSynca_grows
    | with_reducible apply State.runCpost_grows
    | with_reducible apply State.runFence_grows
    | with_reducible apply State.runMarkp_grows
    | with_reducible apply State.runMload_grows
    | with_reducible apply State.runMunpk_grows
    | with_reducible apply State.runMpack_grows
    | with_reducible apply State.runMrun_grows
    | with_reducible apply State.runMacc_grows
    | with_reducible apply State.runMoset_grows
    | with_reducible apply State.runMpset_grows
    | with_reducible apply State.runMgeom_grows
    | with_reducible apply State.runMfset_grows
    | with_reducible apply State.runVadd_grows
    | with_reducible apply State.runVsub_grows
    | with_reducible apply State.runVmul_grows
    | with_reducible apply State.runVfma_grows
    | with_reducible apply State.runVfmai_grows
    | with_reducible apply State.runVaddi_grows
    | with_reducible apply State.runVmuli_grows
    | with_reducible apply State.runVmax_grows
    | with_reducible apply State.runVmin_grows
    | with_reducible apply State.runVabs_grows
    | with_reducible apply State.runVneg_grows
    | with_reducible apply State.runVbcast_grows
    | with_reducible apply State.runViadd_grows
    | with_reducible apply State.runVimul_grows
    | with_reducible apply State.runVilog_grows
    | with_reducible apply State.runVishi_grows
    | with_reducible apply State.runVcmp_grows
    | with_reducible apply State.runVcmpi_grows
    | with_reducible apply State.runVicmp_grows
    | with_reducible apply State.runVsel_grows
    | with_reducible apply State.runVpst_grows
    | with_reducible apply State.runVpld_grows
    | with_reducible apply State.runVpcnt_grows
    | with_reducible apply State.runVcvt_grows
    | with_reducible apply State.runVpkmx_grows
    | with_reducible apply State.runVupmx_grows
    | with_reducible apply State.runVsplit_grows
    | with_reducible apply State.runVi2f_grows
    | with_reducible apply State.runVf2i_grows
    | with_reducible apply State.runVrcp_grows
    | with_reducible apply State.runVrsqrt_grows
    | with_reducible apply State.runVexp2_grows
    | with_reducible apply State.runVlog2_grows
    | with_reducible apply State.runVtanh_grows
    | with_reducible apply State.runVsigm_grows
    | with_reducible apply State.runVred_grows
    | with_reducible apply State.runVscan_grows
    | with_reducible apply State.runVgath_grows
    | with_reducible apply State.runVflags_grows
    | with_reducible apply State.runDcopy_grows
    | with_reducible apply State.runPsend_grows
    | with_reducible apply State.runPrecv_grows
    | with_reducible apply State.issueReserved_grows
    | dsimp only
    | split

theorem State.overlayCadence_grows {z : State} (s : State) (p : Nat) (t : Nat) (row : Nat) (hs : Grows z s) :
    Grows z (State.overlayCadence s p t row) := by
  unfold State.overlayCadence
  repeat' first
    | with_reducible assumption
    | intro _
    | with_reducible apply State.stageWrite_grows
    | dsimp only
    | split

theorem State.startRun_grows {z : State} (s : State) (p : Nat) (hs : Grows z s) :
    Grows z (State.startRun s p) := by
  unfold State.startRun
  repeat' first
    | with_reducible assumption
    | intro _
    | with_reducible apply State.patch_grows
    | with_reducible apply State.stageRead_grows
    | with_reducible apply State.programPoison_grows
    | with_reducible apply State.programFault_grows
    | with_reducible apply State.overlayCadence_grows
    | with_reducible apply State.rowsRead_grows
    | with_reducible apply State.consume_grows
    | with_reducible apply State.modPav_grows
    | with_reducible apply State.fresh_grows
    | with_reducible apply Grows.ite
    | dsimp only
    | split

end Sys2Proof.Machine
end

