-- ==== Sys2Proof/Laws/GrowsPcie.lean ====
section
/-! SUPPORT. The operations of Machine/Pcie.lean keep `Grows` (Laws/Grows.lean). -/

namespace Sys2Proof.Machine

theorem State.portReset_grows {z : State} (s : State) (h : Nat) (hs : Grows z s) :
    Grows z (State.portReset s h) := by
  unfold State.portReset
  repeat' first
    | with_reducible assumption
    | intro _
    | with_reducible apply State.latchBars_grows
    | with_reducible apply State.modHost_grows
    | with_reducible apply State.quiescePort_grows
    | dsimp only

theorem State.hostCount_grows {z : State} (s : State) (h : Nat) (i : Nat) (hs : Grows z s) :
    Grows z (State.hostCount s h i) := by
  unfold State.hostCount
  repeat' first
    | with_reducible assumption
    | intro _
    | with_reducible apply State.modHost_grows
    | dsimp only

end Sys2Proof.Machine
end

