-- ==== Sys2Proof/Laws/GrowsRecovery.lean ====
section
/-! SUPPORT. The operations of Machine/Recovery.lean keep `Grows` (Laws/Grows.lean). -/

namespace Sys2Proof.Machine

theorem State.restoreRow_grows {z : State} (s : State) (p : Nat) (space : Nat) (row : Nat) (d : List Byte) (poison : Bool) (hs : Grows z s) :
    Grows z (State.restoreRow s p space row d poison) := by
  unfold State.restoreRow
  repeat' first
    | with_reducible assumption
    | intro _
    | with_reducible apply State.modPav_grows
    | with_reducible apply Grows.ite
    | dsimp only

theorem State.restorePav_grows {z : State} (s : State) (p : Nat) (older : Bool) (hs : Grows z s) :
    Grows z (State.restorePav s p older) := by
  unfold State.restorePav
  repeat' first
    | with_reducible assumption
    | intro _
    | with_reducible apply State.each_grows
    | with_reducible apply State.restoreRow_grows
    | with_reducible apply State.fresh_grows
    | with_reducible apply State.modPav_grows
    | with_reducible apply Grows.ite
    | dsimp only
    | split

theorem State.restoreHbm_grows {z : State} (s : State) (a : Nat) (n : Nat) (hs : Grows z s) :
    Grows z (State.restoreHbm s a n) := by
  unfold State.restoreHbm
  repeat' first
    | with_reducible assumption
    | intro _
    | with_reducible apply State.each_grows
    | with_reducible apply State.linePut_grows
    | with_reducible apply State.fresh_grows
    | with_reducible apply State.modAllot_grows
    | dsimp only

theorem State.refetchCopies_grows {z : State} (s : State) (a : Nat) (point : Nat) (hs : Grows z s) :
    Grows z (State.refetchCopies s a point) := by
  unfold State.refetchCopies
  repeat' first
    | with_reducible assumption
    | intro _
    | with_reducible apply State.modAllot_grows
    | dsimp only

theorem State.replay_grows {z : State} (s : State) (a : Nat) (fr : Frozen) (hs : Grows z s) :
    Grows z (State.replay s a fr) := by
  unfold State.replay
  repeat' first
    | with_reducible assumption
    | intro _
    | with_reducible apply State.discardBeats_grows
    | with_reducible apply State.restoreHbm_grows
    | with_reducible apply State.each_grows
    | with_reducible apply State.modSeq_grows
    | with_reducible apply State.restorePav_grows
    | with_reducible apply State.enterSection_grows
    | with_reducible apply State.modAllot_grows
    | with_reducible apply State.fetchNext_grows
    | with_reducible apply State.setPlotSection_grows
    | with_reducible apply State.refetchCopies_grows
    | with_reducible apply State.modLaunch_grows
    | with_reducible apply State.modLodge_grows
    | with_reducible apply State.freeze_grows
    | with_reducible apply Grows.foldl
    | with_reducible apply Grows.ite
    | dsimp only
    | split

theorem State.freezeFor_grows {z : State} (s : State) (a : Nat) (hs : Grows z s) :
    Grows z (State.freezeFor s a) := by
  unfold State.freezeFor
  repeat' first
    | with_reducible assumption
    | intro _
    | with_reducible apply State.recover_grows
    | with_reducible apply Grows.ite
    | dsimp only

theorem State.pavShuffle_grows {z : State} (s : State) (a : Nat) (p : Nat) (hs : Grows z s) :
    Grows z (State.pavShuffle s a p) := by
  unfold State.pavShuffle
  repeat' first
    | with_reducible assumption
    | intro _
    | with_reducible apply State.changePav_grows
    | with_reducible apply State.freezeFor_grows
    | with_reducible apply State.shuffleEnd_grows
    | with_reducible apply State.placeAll_grows
    | dsimp only

theorem State.dealCell_grows {z : State} (s : State) (p : Nat) (n : Nat) (hs : Grows z s) :
    Grows z (State.dealCell s p n) := by
  unfold State.dealCell
  repeat' first
    | with_reducible assumption
    | intro _
    | with_reducible apply State.each_grows
    | with_reducible apply State.gardenLoad_grows
    | dsimp only
    | split

theorem State.recheckCell_grows {z : State} (s : State) (p : Nat) (n : Nat) (hs : Grows z s) :
    Grows z (State.recheckCell s p n) := by
  unfold State.recheckCell
  repeat' first
    | with_reducible assumption
    | intro _
    | with_reducible apply State.each_grows
    | with_reducible apply State.localGet_grows
    | with_reducible apply State.gardenLoad_grows
    | with_reducible apply Grows.ite
    | dsimp only
    | split

theorem State.clearKeeps_grows {z : State} (s : State) (p : Nat) (dummy : Nat) (hs : Grows z s) :
    Grows z (State.clearKeeps s p dummy) := by
  unfold State.clearKeeps
  repeat' first
    | with_reducible assumption
    | intro _
    | with_reducible apply State.each_grows
    | with_reducible apply State.modPav_grows
    | with_reducible apply State.fresh_grows
    | with_reducible apply Grows.ite
    | dsimp only

theorem State.useDummy_grows {z : State} (s : State) (p : Nat) (n : Nat) (dummy : Nat) (coreOnly : Bool) (entry : Remap) (hs : Grows z s) :
    Grows z (State.useDummy s p n dummy coreOnly entry) := by
  unfold State.useDummy
  repeat' first
    | with_reducible assumption
    | intro _
    | with_reducible apply State.modPav_grows
    | with_reducible apply State.modPlot_grows
    | with_reducible apply State.recheckCell_grows
    | with_reducible apply State.dealCell_grows
    | with_reducible apply State.record_grows
    | with_reducible apply Grows.foldl
    | with_reducible apply Grows.ite
    | dsimp only
    | split

theorem State.pavLost_grows {z : State} (s : State) (p : Nat) (hs : Grows z s) :
    Grows z (State.pavLost s p) := by
  unfold State.pavLost
  repeat' first
    | with_reducible assumption
    | intro _
    | with_reducible apply State.pavShuffle_grows
    | with_reducible apply State.failPav_grows
    | with_reducible apply Grows.ite
    | dsimp only
    | split

theorem State.plotShuffle_grows {z : State} (s : State) (a : Nat) (plot : Nat) (readable : Bool) (retire : Bool) (hs : Grows z s) :
    Grows z (State.plotShuffle s a plot readable retire) := by
  unfold State.plotShuffle
  repeat' first
    | with_reducible assumption
    | intro _
    | with_reducible apply State.modPlot_grows
    | with_reducible apply State.plotPlace_grows
    | with_reducible apply State.freezeFor_grows
    | with_reducible apply State.shuffleEnd_grows
    | with_reducible apply State.record_grows
    | dsimp only

theorem State.swapContext_grows {z : State} (s : State) (d : Nat) (next : Nat) (hs : Grows z s) :
    Grows z (State.swapContext s d next) := by
  unfold State.swapContext
  repeat' first
    | with_reducible assumption
    | intro _
    | with_reducible apply State.fresh_grows
    | with_reducible apply State.setPav_grows
    | dsimp only
    | with_reducible apply Grows.pavsSet

theorem State.shiftTimers_grows {z : State} (s : State) (a : Nat) (p : Nat) (c : Nat) (dt : Nat) (hs : Grows z s) :
    Grows z (State.shiftTimers s a p c dt) := by
  exact hs.same rfl rfl rfl rfl

theorem State.endDoublings_grows {z : State} (s : State) (ps : List Nat) (hs : Grows z s) :
    Grows z (State.endDoublings s ps) := by
  unfold State.endDoublings
  repeat' first
    | with_reducible assumption
    | intro _
    | with_reducible apply State.each_grows
    | with_reducible apply State.swapContext_grows
    | with_reducible apply State.modPav_grows
    | dsimp only
    | with_reducible apply Grows.pavsSet

theorem State.endDoubling_grows {z : State} (s : State) (a : Nat) (r : Nat) (hs : Grows z s) :
    Grows z (State.endDoubling s a r) := by
  unfold State.endDoubling
  repeat' first
    | with_reducible assumption
    | intro _
    | with_reducible apply State.freezeFor_grows
    | with_reducible apply State.swapContext_grows
    | with_reducible apply State.freeOwn_grows
    | with_reducible apply State.modPav_grows
    | with_reducible apply State.modAllot_grows
    | with_reducible apply State.place_grows
    | with_reducible apply State.shuffleEnd_grows
    | with_reducible apply State.presentedEvent_grows
    | with_reducible apply Grows.ite
    | dsimp only
    | split

end Sys2Proof.Machine
end

