-- ==== Sys2Proof/Laws/GrowsPower.lean ====
section
/-! SUPPORT. The operations of Machine/Power.lean keep `Grows` (Laws/Grows.lean). -/

namespace Sys2Proof.Machine

theorem State.modGroup_grows {z : State} (s : State) (g : Nat) (f : Group → Group) (hs : Grows z s) :
    Grows z (State.modGroup s g f) := by
  unfold State.modGroup
  repeat' first
    | with_reducible assumption
    | intro _
    | with_reducible apply State.modLodge_grows
    | dsimp only

theorem State.avsNext_grows {z : State} (s : State) (rail : Nat) (hs : Grows z s) :
    Grows z (State.avsNext s rail) := by
  unfold State.avsNext
  repeat' first
    | with_reducible assumption
    | intro _
    | with_reducible apply State.emit_grows
    | with_reducible apply State.modLodge_grows
    | with_reducible apply Grows.ite
    | dsimp only

theorem State.loseSegment_grows {z : State} (s : State) (n : SegIx) (hs : Grows z s) :
    Grows z (State.loseSegment s n) := by
  unfold State.loseSegment
  repeat' first
    | with_reducible assumption
    | intro _
    | with_reducible apply State.modSeg_grows
    | with_reducible apply State.each_grows
    | with_reducible apply State.failStack_grows
    | with_reducible apply State.portReset_grows
    | with_reducible apply State.modSrv_grows
    | with_reducible apply State.withdraw_grows
    | with_reducible apply Grows.ite
    | dsimp only

theorem State.cutPlot_grows {z : State} (s : State) (p : Nat) (why : OffCause) (power : Nat) (hs : Grows z s) :
    Grows z (State.cutPlot s p why power) := by
  unfold State.cutPlot
  repeat' first
    | with_reducible assumption
    | intro _
    | with_reducible apply State.event_grows
    | with_reducible apply State.freezePlot_grows
    | with_reducible apply State.offEG_grows
    | dsimp only

theorem State.loseDomain_grows {z : State} (s : State) (d : Domain) (hs : Grows z s) :
    Grows z (State.loseDomain s d) := by
  unfold State.loseDomain
  repeat' first
    | with_reducible assumption
    | intro _
    | with_reducible apply State.freezePlot_grows
    | with_reducible apply State.loseH_grows
    | with_reducible apply State.record_grows
    | with_reducible apply State.cutPlot_grows
    | with_reducible apply State.loseSegment_grows
    | dsimp only
    | split

theorem State.loseForGood_grows {z : State} (s : State) (d : Domain) (hs : Grows z s) :
    Grows z (State.loseForGood s d) := by
  unfold State.loseForGood
  repeat' first
    | with_reducible assumption
    | intro _
    | with_reducible apply State.loseDomain_grows
    | with_reducible apply State.each_grows
    | with_reducible apply State.failPav_grows
    | with_reducible apply Grows.ite
    | dsimp only
    | split

theorem State.shortOut_grows {z : State} (s : State) (x1 : Domain) (hs : Grows z s) :
    Grows z (State.shortOut s x1) := by
  unfold State.shortOut
  repeat' first
    | with_reducible assumption
    | intro _
    | with_reducible apply State.modPlot_grows
    | with_reducible apply State.modSeg_grows
    | with_reducible apply Grows.ite
    | with_reducible apply Grows.ite2
    | with_reducible apply Grows.ite3
    | dsimp only
    | split

theorem State.relink_grows {z : State} (s : State) (p : Nat) (hs : Grows z s) :
    Grows z (State.relink s p) := by
  unfold State.relink
  repeat' first
    | with_reducible assumption
    | intro _
    | with_reducible apply State.modPlot_grows
    | with_reducible apply State.each_grows
    | with_reducible apply Grows.ite
    | dsimp only
    | split
    | with_reducible apply Grows.linksSet

theorem State.setTemp_grows {z : State} (s : State) (p : Nat) (temp : BitVec 32) (hs : Grows z s) :
    Grows z (State.setTemp s p temp) := by
  unfold State.setTemp
  repeat' first
    | with_reducible assumption
    | intro _
    | with_reducible apply State.modPlot_grows
    | with_reducible apply Grows.ite
    | dsimp only
    | with_reducible apply Grows.getD

theorem State.trip_grows {z : State} (s : State) (value : Nat) (index : Nat) (hs : Grows z s) :
    Grows z (State.trip s value index) := by
  unfold State.trip
  repeat' first
    | with_reducible assumption
    | intro _
    | with_reducible apply State.emit_grows
    | with_reducible apply State.modLodge_grows
    | with_reducible apply State.event_grows
    | with_reducible apply Grows.ite
    | dsimp only

theorem State.retireAged_grows {z : State} (s : State) (p : PlotIx) (hHigh : Bool) (hs : Grows z s) :
    Grows z (State.retireAged s p hHigh) := by
  unfold State.retireAged
  repeat' first
    | with_reducible assumption
    | intro _
    | with_reducible apply State.plotShuffle_grows
    | with_reducible apply State.each_grows
    | with_reducible apply State.failPav_grows
    | with_reducible apply State.loseH_grows
    | with_reducible apply Grows.ite
    | dsimp only
    | split

theorem State.aged_grows {z : State} (s : State) (m : AgeMeas) (hs : Grows z s) :
    Grows z (State.aged s m) := by
  unfold State.aged
  repeat' first
    | with_reducible assumption
    | intro _
    | with_reducible apply State.modPlot_grows
    | with_reducible apply State.modLodge_grows
    | with_reducible apply State.avsNext_grows
    | with_reducible apply State.retireAged_grows
    | with_reducible apply State.modSeg_grows
    | with_reducible apply State.record_grows
    | with_reducible apply Grows.ite
    | dsimp only

theorem State.sectorDone_grows {z : State} (s : State) (j : FlashJob) (rest : List FlashJob) (hs : Grows z s) :
    Grows z (State.sectorDone s j rest) := by
  unfold State.sectorDone
  repeat' first
    | with_reducible assumption
    | intro _
    | with_reducible apply State.modLodge_grows
    | with_reducible apply Grows.ite
    | dsimp only

end Sys2Proof.Machine
end

