-- ==== Sys2Proof/Laws/GrowsDeal.lean ====
section
/-! SUPPORT. The operations of Machine/Deal.lean keep `Grows` (Laws/Grows.lean). -/

namespace Sys2Proof.Machine

theorem State.cardCell_grows {z : State} (s : State) (p : Nat) (n : Nat) (slot : Nat) (d : List Byte) (missed : List DealTarget) (hs : Grows z s) :
    Grows z (State.cardCell s p n slot d missed) := by
  unfold State.cardCell
  repeat' first
    | with_reducible assumption
    | intro _
    | with_reducible apply State.modPav_grows
    | with_reducible apply State.gardenLoad_grows
    | with_reducible apply Grows.ite
    | dsimp only
    | split

theorem State.cardPav_grows {z : State} (s : State) (p : Nat) (slot : Nat) (d : List Byte) (missed : List DealTarget) (hs : Grows z s) :
    Grows z (State.cardPav s p slot d missed) := by
  unfold State.cardPav
  repeat' first
    | with_reducible assumption
    | intro _
    | with_reducible apply State.each_grows
    | with_reducible apply State.cardCell_grows
    | dsimp only

theorem State.deliver_grows {z : State} (s : State) (plot : Nat) (c : Card) (missed : List DealTarget) (hs : Grows z s) :
    Grows z (State.deliver s plot c missed) := by
  unfold State.deliver
  repeat' first
    | with_reducible assumption
    | intro _
    | with_reducible apply State.cardCell_grows
    | with_reducible apply State.cardPav_grows
    | with_reducible apply State.each_grows
    | with_reducible apply State.modPav_grows
    | with_reducible apply State.stageLoad_grows
    | with_reducible apply State.modPlot_grows
    | with_reducible apply Grows.ite
    | dsimp only
    | split

theorem State.releaseCores_grows {z : State} (s : State) (plot : Nat) (hs : Grows z s) :
    Grows z (State.releaseCores s plot) := by
  unfold State.releaseCores
  repeat' first
    | with_reducible assumption
    | intro _
    | with_reducible apply State.eachPav_grows
    | dsimp only

theorem State.settleDeal_grows {z : State} (s : State) (hs : Grows z s) :
    Grows z (State.settleDeal s) := by
  unfold State.settleDeal
  repeat' first
    | with_reducible assumption
    | intro _
    | with_reducible apply State.each_grows
    | with_reducible apply State.modPlot_grows
    | with_reducible apply State.releaseCores_grows
    | with_reducible apply State.modLodge_grows
    | with_reducible apply State.settleStart_grows
    | with_reducible apply State.progressEnd_grows
    | with_reducible apply Grows.ite
    | dsimp only
    | split

theorem State.gateCount_grows {z : State} (s : State) (plot : Nat) (hs : Grows z s) :
    Grows z (State.gateCount s plot) := by
  unfold State.gateCount
  repeat' first
    | with_reducible assumption
    | intro _
    | with_reducible apply State.modPlot_grows
    | with_reducible apply Grows.ite
    | dsimp only

theorem State.openDeal_grows {z : State} (s : State) (a : Option AllotIx) (lines : List ManifestLine) (hs : Grows z s) :
    Grows z (State.openDeal s a lines) := by
  unfold State.openDeal
  repeat' first
    | with_reducible assumption
    | intro _
    | with_reducible apply State.modLodge_grows
    | with_reducible apply State.each_grows
    | with_reducible apply State.modPlot_grows
    | dsimp only

theorem State.dealDummy_grows {z : State} (s : State) (plot : Nat) (p : Nat) (n : Nat) (hs : Grows z s) :
    Grows z (State.dealDummy s plot p n) := by
  unfold State.dealDummy
  repeat' first
    | with_reducible assumption
    | intro _
    | with_reducible apply State.modPav_grows
    | with_reducible apply State.gardenLoad_grows
    | with_reducible apply Grows.foldl
    | with_reducible apply Grows.ite
    | dsimp only
    | split

theorem State.dealFail_grows {z : State} (s : State) (p : Nat) (hs : Grows z s) :
    Grows z (State.dealFail s p) := by
  unfold State.dealFail
  repeat' first
    | with_reducible assumption
    | intro _
    | with_reducible apply State.pavLost_grows
    | with_reducible apply State.bistFail_grows
    | with_reducible apply Grows.ite
    | dsimp only
    | split

theorem State.revoke_grows {z : State} (s : State) (plot : Nat) (t : DealTarget) (hs : Grows z s) :
    Grows z (State.revoke s plot t) := by
  cases t with
  | cell p n =>
    dsimp only [State.revoke]
    have hs' := State.cellDead_grows s p (s.physCell p n) (s.receiverFailed plot (.cell p n)) hs
    generalize s.cellDead p (s.physCell p n) _ = s' at hs' ⊢
    generalize hr : State.remapCell _ _ _ _ = o
    rcases o with _ | r
    · exact State.dealFail_grows _ _ hs'
    · exact State.dealDummy_grows _ _ _ _ (State.modPav_grows _ _ _ (State.remapCell_grows _ _ _ _ hs' hr))
  | stage p => exact State.dealFail_grows _ _ hs
  | gate g => exact Grows.ite _ hs (State.loseForGood_grows _ _ hs)

end Sys2Proof.Machine
end

