-- ==== Sys2Proof/Laws/GrowsDrills.lean ====
section
/-! SUPPORT. The operations of Machine/Drills.lean keep `Grows` (Laws/Grows.lean). -/

namespace Sys2Proof.Machine

theorem State.drilled_grows {z : State} (s : State) (u : DrillUnit) (pass : Bool) (runs : Nat) (hs : Grows z s) :
    Grows z (State.drilled s u pass runs) := by
  unfold State.drilled
  repeat' first
    | with_reducible assumption
    | intro _
    | with_reducible apply State.modLodge_grows
    | with_reducible apply State.fresh_grows
    | with_reducible apply State.modPav_grows
    | with_reducible apply State.modPlot_grows
    | with_reducible apply Grows.ite
    | dsimp only

end Sys2Proof.Machine
end

