-- ==== Sys2Proof/Laws/GrowsMoves.lean ====
section
/-! SUPPORT. The operations of Machine/Moves.lean keep `Grows` (Laws/Grows.lean). -/

namespace Sys2Proof.Machine

theorem State.moveWord_grows {z : State} (s : State) (p : Nat) (n : Nat) (m : Move) (v : Word) (hs : Grows z s) :
    Grows z (State.moveWord s p n m v) := by
  unfold State.moveWord
  repeat' first
    | with_reducible assumption
    | intro _
    | with_reducible apply State.localPut_grows
    | with_reducible apply Grows.ite
    | dsimp only

theorem State.moveFault_grows {z : State} (s : State) (p : Nat) (n : Nat) (m : Move) (hs : Grows z s) :
    Grows z (State.moveFault s p n m) := by
  unfold State.moveFault
  repeat' first
    | with_reducible assumption
    | intro _
    | with_reducible apply State.trapStop_grows
    | with_reducible apply State.moveWord_grows
    | dsimp only

theorem State.moveStart_grows {z : State} (s : State) (c : CellXY) (p : Nat) (n : Nat) (k : Core) (d : BitVec 256) (i : Nat) (hs : Grows z s) :
    Grows z (State.moveStart s c p n k d i) := by
  unfold State.moveStart
  repeat' first
    | with_reducible assumption
    | intro _
    | with_reducible apply State.moveFault_grows
    | with_reducible apply State.setCore_grows
    | with_reducible apply State.pumpParts_grows
    | with_reducible apply State.modRx_grows
    | with_reducible apply Grows.ite
    | dsimp only

theorem State.moveLand_grows {z : State} (s : State) (p : Nat) (n : Nat) (i : Nat) (al : Nat) (m : Move) (hs : Grows z s) :
    Grows z (State.moveLand s p n i al m) := by
  unfold State.moveLand
  repeat' first
    | with_reducible assumption
    | intro _
    | with_reducible apply State.noteCopy_grows
    | with_reducible apply State.moveWord_grows
    | with_reducible apply State.setCore_grows
    | with_reducible apply State.addCtr_grows
    | with_reducible apply Grows.ite
    | dsimp only
    | split

theorem State.moveFail_grows {z : State} (s : State) (p : Nat) (n : Nat) (i : Nat) (hs : Grows z s) :
    Grows z (State.moveFail s p n i) := by
  unfold State.moveFail
  repeat' first
    | with_reducible assumption
    | intro _
    | with_reducible apply State.moveFault_grows
    | with_reducible apply State.setCore_grows
    | dsimp only
    | split

end Sys2Proof.Machine
end

