-- ==== Sys2Proof/Laws/GrowsGarden.lean ====
section
/-! SUPPORT. The operations of Machine/Garden.lean keep `Grows` (Laws/Grows.lean). -/

namespace Sys2Proof.Machine

theorem State.patrolRow_grows {z : State} (s : State) (p : Nat) (row : Nat) (hs : Grows z s) :
    Grows z (State.patrolRow s p row) := by
  unfold State.patrolRow
  repeat' first
    | with_reducible assumption
    | intro _
    | with_reducible apply State.fresh_grows
    | with_reducible apply State.gardenSeen_grows
    | with_reducible apply Grows.ite
    | dsimp only

theorem State.retryDma_grows {z : State} (s : State) (p : Nat) (k : Nat) (hs : Grows z s) :
    Grows z (State.retryDma s p k) := by
  unfold State.retryDma
  repeat' first
    | with_reducible assumption
    | intro _
    | with_reducible apply State.psendPump_grows
    | with_reducible apply State.precvStart_grows
    | with_reducible apply State.pumpParts_grows
    | with_reducible apply State.dcopySlots_grows
    | with_reducible apply Grows.ite
    | dsimp only
    | split

theorem State.retryWaiter_grows {z : State} (s : State) (p : Nat) (t : Nat) (w : TagWaiter) (hs : Grows z s) :
    Grows z (State.retryWaiter s p t w) := by
  unfold State.retryWaiter
  repeat' first
    | with_reducible assumption
    | intro _
    | with_reducible apply State.retryDma_grows
    | with_reducible apply State.pumpParts_grows
    | with_reducible apply State.modPav_grows
    | with_reducible apply State.pumpIn_grows
    | with_reducible apply Grows.ite
    | dsimp only
    | split

theorem State.failWaiter_grows {z : State} (s : State) (p : Nat) (w : TagWaiter) (hs : Grows z s) :
    Grows z (State.failWaiter s p w) := by
  unfold State.failWaiter
  repeat' first
    | with_reducible assumption
    | intro _
    | with_reducible apply State.modPav_grows
    | with_reducible apply State.dmaFail_grows
    | with_reducible apply State.moveFail_grows
    | with_reducible apply State.modRx_grows
    | with_reducible apply State.failPass_grows
    | with_reducible apply State.sendDone_grows
    | with_reducible apply State.srvCount_grows
    | with_reducible apply State.modSrv_grows
    | dsimp only
    | split

theorem State.failSender_grows {z : State} (s : State) (q : HeldReq) (hs : Grows z s) :
    Grows z (State.failSender s q) := by
  unfold State.failSender
  repeat' first
    | with_reducible assumption
    | intro _
    | with_reducible apply State.failFrom_grows
    | with_reducible apply State.moveFail_grows
    | with_reducible apply Grows.ite
    | dsimp only
    | split

theorem State.failHeld_grows {z : State} (s : State) (p : Nat) (t : Nat) (late : Nat → Bool) (hs : Grows z s) :
    Grows z (State.failHeld s p t late) := by
  unfold State.failHeld
  repeat' first
    | with_reducible assumption
    | intro _
    | with_reducible apply State.each_grows
    | with_reducible apply State.failSender_grows
    | with_reducible apply State.modRx_grows
    | dsimp only

theorem State.failCopies_grows {z : State} (s : State) (p : Nat) (t : Nat) (late : Nat → Bool) (hs : Grows z s) :
    Grows z (State.failCopies s p t late) := by
  unfold State.failCopies
  repeat' first
    | with_reducible assumption
    | intro _
    | with_reducible apply State.each_grows
    | with_reducible apply State.endCopy_grows
    | dsimp only
    | split

theorem State.failTag_grows {z : State} (s : State) (p : Nat) (t : Nat) (late : Nat → Bool) (hs : Grows z s) :
    Grows z (State.failTag s p t late) := by
  unfold State.failTag
  repeat' first
    | with_reducible assumption
    | intro _
    | with_reducible apply State.each_grows
    | with_reducible apply State.failWaiter_grows
    | with_reducible apply State.failCopies_grows
    | with_reducible apply State.failHeld_grows
    | dsimp only

end Sys2Proof.Machine
end

