-- ==== Sys2Proof/Laws/GrowsHBM.lean ====
section
/-! SUPPORT. The operations of Machine/HBM.lean keep `Grows` (Laws/Grows.lean). -/

namespace Sys2Proof.Machine

theorem State.granuleDenied_grows {z : State} (s : State) (plot : Nat) (q : AgentReq) (dst : BitVec 9 × BitVec 9) (hs : Grows z s) :
    Grows z (State.granuleDenied s plot q dst) := by
  unfold State.granuleDenied
  repeat' first
    | with_reducible assumption
    | intro _
    | with_reducible apply State.emit_grows
    | with_reducible apply State.record_grows
    | dsimp only

theorem State.granuleWrite_grows {z : State} (s : State) (q : AgentReq) (hs : Grows z s) :
    Grows z (State.granuleWrite s q) := by
  unfold State.granuleWrite
  repeat' first
    | with_reducible assumption
    | intro _
    | with_reducible apply State.each_grows
    | with_reducible apply State.keepLine_grows
    | with_reducible apply State.hbmPut_grows
    | with_reducible apply Grows.ite
    | dsimp only

theorem State.granuleAsk_grows {z : State} (s : State) (k : Packet) (hs : Grows z s) :
    Grows z (State.granuleAsk s k) := by
  unfold State.granuleAsk
  repeat' first
    | with_reducible assumption
    | intro _
    | with_reducible apply State.modSeg_grows
    | with_reducible apply State.linesRead_grows
    | with_reducible apply State.emits_grows
    | with_reducible apply Grows.ite
    | dsimp only

theorem State.granulePut_grows {z : State} (s : State) (n : Nat) (k : Packet) (w : BitVec 9 × BitVec 9 × AgentReq) (hs : Grows z s) :
    Grows z (State.granulePut s n k w) := by
  unfold State.granulePut
  repeat' first
    | with_reducible assumption
    | intro _
    | with_reducible apply State.modSeg_grows
    | with_reducible apply State.emit_grows
    | with_reducible apply State.granuleWrite_grows
    | with_reducible apply Grows.ite
    | dsimp only

theorem State.granuleAt_grows {z : State} (s : State) (k : Packet) (hs : Grows z s) :
    Grows z (State.granuleAt s k) := by
  unfold State.granuleAt
  repeat' first
    | with_reducible assumption
    | intro _
    | with_reducible apply State.granuleDenied_grows
    | with_reducible apply State.modSeg_grows
    | with_reducible apply State.granuleAsk_grows
    | with_reducible apply State.granulePut_grows
    | with_reducible apply Grows.ite
    | dsimp only
    | split

theorem State.agentSettle_grows {z : State} (s : State) (p : PlotIx) (q : AgentReq) (hs : Grows z s) :
    Grows z (State.agentSettle s p q) := by
  unfold State.agentSettle
  repeat' first
    | with_reducible assumption
    | intro _
    | with_reducible apply State.landDone_grows
    | with_reducible apply Grows.ite
    | dsimp only
    | split

theorem State.agentFail_grows {z : State} (s : State) (p : PlotIx) (q : AgentReq) (code : Nat) (hs : Grows z s) :
    Grows z (State.agentFail s p q code) := by
  unfold State.agentFail
  repeat' first
    | with_reducible assumption
    | intro _
    | with_reducible apply State.record_grows
    | with_reducible apply State.modPlot_grows
    | with_reducible apply State.landFail_grows
    | with_reducible apply State.endRead_grows
    | with_reducible apply State.emit_grows
    | with_reducible apply State.agentPump_grows
    | with_reducible apply Grows.ite
    | dsimp only
    | split

theorem State.granuleGot_grows {z : State} (s : State) (p : PlotIx) (k : Packet) (hs : Grows z s) :
    Grows z (State.granuleGot s p k) := by
  unfold State.granuleGot
  repeat' first
    | with_reducible assumption
    | intro _
    | with_reducible apply State.agentPump_grows
    | with_reducible apply State.modPlot_grows
    | with_reducible apply Grows.ite
    | dsimp only

theorem State.granuleAcked_grows {z : State} (s : State) (p : PlotIx) (k : Packet) (hs : Grows z s) :
    Grows z (State.granuleAcked s p k) := by
  unfold State.granuleAcked
  repeat' first
    | with_reducible assumption
    | intro _
    | with_reducible apply State.agentFail_grows
    | with_reducible apply State.agentPump_grows
    | with_reducible apply State.agentSettle_grows
    | with_reducible apply State.modPlot_grows
    | with_reducible apply Grows.ite
    | dsimp only
    | split

theorem State.granulesGoOn_grows {z : State} (s : State) (n : Nat) (hs : Grows z s) :
    Grows z (State.granulesGoOn s n) := by
  unfold State.granulesGoOn
  repeat' first
    | with_reducible assumption
    | intro _
    | with_reducible apply State.each_grows
    | with_reducible apply State.modSeg_grows
    | with_reducible apply State.granuleAt_grows
    | dsimp only

end Sys2Proof.Machine
end

