-- ==== Sys2Proof/Laws/GrowsInstructions.lean ====
section
/-! SUPPORT. The operations of Machine/Instructions.lean keep `Grows` (Laws/Grows.lean). -/

namespace Sys2Proof.Machine

theorem State.instr_grows {z : State} (s : State) (p : PavIx) (i : StreamIx) (op : Nat) (w : Body) (f : State → State) (hs : Grows z s) (hf : ∀ v0, Grows z v0 → Grows z (f v0)) :
    GrowsR z (State.instr s p i op w f) := by
  unfold State.instr
  repeat' first
    | with_reducible assumption
    | intro _
    | with_reducible apply hf
    | with_reducible apply GrowsR.next
    | with_reducible apply onlyIf_grows
    | dsimp only

end Sys2Proof.Machine
end

