-- ==== Sys2Proof/Laws/GrowsMarks.lean ====
section
/-! SUPPORT. The operations of Machine/Marks.lean keep `Grows` (Laws/Grows.lean). -/

namespace Sys2Proof.Machine

theorem State.takeMark_grows {z : State} (s : State) (p : Nat) (tag : Word) (hs : Grows z s) :
    Grows z (State.takeMark s p tag) := by
  unfold State.takeMark
  repeat' first
    | with_reducible assumption
    | intro _
    | with_reducible apply State.modPav_grows
    | dsimp only
    | split

theorem State.commitMarks_grows {z : State} (s : State) (a : Nat) (tag : Word) (n : Nat) (hs : Grows z s) :
    Grows z (State.commitMarks s a tag n) := by
  unfold State.commitMarks
  repeat' first
    | with_reducible assumption
    | intro _
    | with_reducible apply State.each_grows
    | with_reducible apply State.modPav_grows
    | with_reducible apply State.modAllot_grows
    | with_reducible apply State.modLaunch_grows
    | with_reducible apply State.pushExports_grows
    | with_reducible apply State.wake_grows
    | with_reducible apply Grows.ite
    | dsimp only
    | split
    | with_reducible apply Grows.hbmSet

theorem State.settleMarks_grows {z : State} (s : State) (a : Nat) (hs : Grows z s) :
    Grows z (State.settleMarks s a) := by
  unfold State.settleMarks
  repeat' first
    | with_reducible assumption
    | intro _
    | with_reducible apply State.commitMarks_grows
    | with_reducible apply Grows.ite
    | dsimp only
    | split

theorem State.taintRows_grows {z : State} (s : State) (p : Nat) (t : Taint) (hs : Grows z s) :
    Grows z (State.taintRows s p t).2 := by
  unfold State.taintRows
  repeat' first
    | with_reducible assumption
    | intro _
    | with_reducible apply State.linesRead_grows
    | with_reducible apply State.rowsRead_grows
    | with_reducible apply Grows.ite
    | with_reducible apply Grows.ite2
    | with_reducible apply Grows.ite3
    | dsimp only
    | split

theorem State.digestFault_grows {z : State} (s : State) (p : Nat) (t : Taint) (c : DigestCmp) (hs : Grows z s) :
    Grows z (State.digestFault s p t c) := by
  unfold State.digestFault
  repeat' first
    | with_reducible assumption
    | intro _
    | with_reducible apply State.record_grows
    | with_reducible apply State.each_grows
    | with_reducible apply State.poisonLocal_grows
    | with_reducible apply State.recoverPav_grows
    | with_reducible apply Store.wf_poisonRow
    | with_reducible apply Grows.ite
    | dsimp only
    | split
    | with_reducible apply Grows.hbmSet

theorem State.compareEntry_grows {z : State} (s : State) (p : Nat) (c : DigestCmp) (dirty : Tab (BitVec 64)) (q : Seq) (m : List Taint × Option Taint) (t : Taint) (hs : Grows z s) :
    Grows z (State.compareEntry s p c dirty q m t).2 := by
  unfold State.compareEntry
  repeat' first
    | with_reducible assumption
    | intro _
    | with_reducible apply State.taintRows_grows
    | with_reducible apply Grows.ite
    | dsimp only
    | split

theorem State.compareAll_grows {z : State} (s : State) (p : Nat) (c : DigestCmp) (dirty : Tab (BitVec 64)) (q : Seq) (n : Nat) (hs : Grows z s) :
    Grows z (State.compareAll s p c dirty q n).2 := by
  unfold State.compareAll
  repeat' first
    | with_reducible assumption
    | intro _
    | with_reducible apply State.compareEntry_grows
    | with_reducible apply Grows.foldl
    | with_reducible apply Grows.foldl2
    | with_reducible apply Grows.foldl3
    | with_reducible apply Grows.foldl4
    | with_reducible apply Grows.ite
    | with_reducible apply Grows.ite2
    | with_reducible apply Grows.ite3
    | dsimp only
    | split

theorem State.readBack_grows {z : State} (s : State) (p : Nat) (a : Nat) (c : DigestCmp) (n : Nat) (hs : Grows z s) :
    Grows z (State.readBack s p a c n) := by
  unfold State.readBack
  repeat' first
    | with_reducible assumption
    | intro _
    | with_reducible apply State.compareAll_grows
    | with_reducible apply State.modSeq_grows
    | with_reducible apply State.modAllot_grows
    | with_reducible apply State.digestFault_grows
    | with_reducible apply Grows.ite
    | dsimp only
    | split

end Sys2Proof.Machine
end

