-- ==== Sys2Proof/Laws/GrowsPromenade.lean ====
section
/-! SUPPORT. The operations of Machine/Promenade.lean keep `Grows` (Laws/Grows.lean). -/

namespace Sys2Proof.Machine

theorem State.popBeat_grows {z : State} (s : State) (plot : Nat) (key : Nat) (hs : Grows z s) :
    Grows z (State.popBeat s plot key) := by
  unfold State.popBeat
  repeat' first
    | with_reducible assumption
    | intro _
    | with_reducible apply State.modPlot_grows
    | dsimp only

theorem State.noteTunnel_grows {z : State} (s : State) (a : Nat) (plot : Nat) (port : Nat) (hs : Grows z s) :
    Grows z (State.noteTunnel s a plot port) := by
  unfold State.noteTunnel
  repeat' first
    | with_reducible assumption
    | intro _
    | with_reducible apply State.modAllot_grows
    | with_reducible apply Grows.ite
    | dsimp only

theorem State.beatToEdge_grows {z t : State} (s : State) (a : Nat) (plot : Nat) (key : Nat) (port : Nat) (cid : Nat) (b : Beat) (hs : Grows z s) (ht : State.beatToEdge s a plot key port cid b = some t) :
    Grows z t := by
  unfold State.beatToEdge at ht
  repeat' first
    | with_reducible assumption
    | intro _
    | with_reducible apply State.putBeats_grows
    | with_reducible apply State.popBeat_grows
    | with_reducible apply State.noteTunnel_grows
    | with_reducible apply Grows.ite
    | dsimp only
    | split
    | split at ht
    | dsimp only at ht
    | cases ht

theorem State.beatToPav_grows {z t : State} (s : State) (a : Nat) (plot : Nat) (key : Nat) (port : Nat) (b : Beat) (hs : Grows z s) (ht : State.beatToPav s a plot key port b = some t) :
    Grows z t := by
  unfold State.beatToPav at ht
  repeat' first
    | with_reducible assumption
    | intro _
    | with_reducible apply State.modPav_grows
    | with_reducible apply State.popBeat_grows
    | with_reducible apply State.noteTunnel_grows
    | with_reducible apply Grows.ite
    | dsimp only
    | split at ht
    | dsimp only at ht
    | cases ht

theorem State.sendUnit_grows {z : State} (s : State) (plot : Nat) (src : Nat) (l : List (Nat × Beat)) (hs : Grows z s) :
    Grows z (State.sendUnit s plot src l) := by
  unfold State.sendUnit
  repeat' first
    | with_reducible assumption
    | intro _
    | with_reducible apply State.each_grows
    | with_reducible apply State.putBeats_grows
    | dsimp only

theorem State.steerFlow_grows {z : State} (s : State) (plot : Nat) (u : Nat) (hs : Grows z s) :
    Grows z (State.steerFlow s plot u) := by
  unfold State.steerFlow
  repeat' first
    | with_reducible assumption
    | intro _
    | with_reducible apply State.sendUnit_grows
    | with_reducible apply State.modPlot_grows
    | dsimp only

theorem State.beatToSteer_grows {z : State} (s : State) (plot : Nat) (key : Nat) (port : Nat) (b : Beat) (hs : Grows z s) :
    Grows z (State.beatToSteer s plot key port b) := by
  unfold State.beatToSteer
  repeat' first
    | with_reducible assumption
    | intro _
    | with_reducible apply State.modPlot_grows
    | with_reducible apply State.skewFault_grows
    | with_reducible apply State.popBeat_grows
    | with_reducible apply State.steerFlow_grows
    | with_reducible apply Grows.ite
    | dsimp only
    | split

theorem State.beatToMerge_grows {z : State} (s : State) (plot : Nat) (key : Nat) (port : Nat) (b : Beat) (hs : Grows z s) :
    Grows z (State.beatToMerge s plot key port b) := by
  unfold State.beatToMerge
  repeat' first
    | with_reducible assumption
    | intro _
    | with_reducible apply State.modPlot_grows
    | with_reducible apply State.skewFault_grows
    | with_reducible apply State.popBeat_grows
    | dsimp only
    | split

theorem State.consumeMerge_grows {z : State} (s : State) (a : Nat) (plot : Nat) (m : Nat) (hs : Grows z s) :
    Grows z (State.consumeMerge s a plot m) := by
  unfold State.consumeMerge
  repeat' first
    | with_reducible assumption
    | intro _
    | with_reducible apply State.recover_grows
    | with_reducible apply State.modAllot_grows
    | with_reducible apply State.stopJob_grows
    | with_reducible apply State.record_grows
    | with_reducible apply Grows.ite
    | dsimp only

theorem State.beatOn_grows {z : State} (s : State) (a : Nat) (plot : Nat) (src : Nat) (b : Beat) (hs : Grows z s) :
    Grows z (State.beatOn s a plot src b) := by
  unfold State.beatOn
  repeat' first
    | with_reducible assumption
    | intro _
    | refine State.beatToEdge_grows _ _ _ _ _ _ _ ?_ (by assumption)
    | refine State.beatToPav_grows _ _ _ _ _ _ ?_ (by assumption)
    | with_reducible apply State.beatToSteer_grows
    | with_reducible apply State.beatToMerge_grows
    | with_reducible apply Grows.ite
    | dsimp only
    | split
    | with_reducible apply Grows.getD

theorem State.sourceGo_grows {z : State} (s : State) (a : Nat) (plot : Nat) (src : Nat) (hs : Grows z s) :
    Grows z (State.sourceGo s a plot src) := by
  unfold State.sourceGo
  repeat' first
    | with_reducible assumption
    | intro _
    | with_reducible apply State.each_grows
    | with_reducible apply State.psendPump_grows
    | with_reducible apply State.steerFlow_grows
    | with_reducible apply Grows.ite
    | dsimp only
    | split

theorem State.dropAttach_grows {z : State} (s : State) (a : Nat) (hs : Grows z s) :
    Grows z (State.dropAttach s a) := by
  unfold State.dropAttach
  repeat' first
    | with_reducible assumption
    | intro _
    | with_reducible apply State.record_grows
    | with_reducible apply State.modAllot_grows
    | with_reducible apply Grows.ite
    | dsimp only

theorem State.boundary_grows {z : State} (s : State) (a : Nat) (hs : Grows z s) :
    Grows z (State.boundary s a) := by
  unfold State.boundary
  repeat' first
    | with_reducible assumption
    | intro _
    | with_reducible apply State.each_grows
    | with_reducible apply State.takeOverlay_grows
    | with_reducible apply State.modPlot_grows
    | with_reducible apply State.dropAttach_grows
    | with_reducible apply State.modAllot_grows
    | with_reducible apply Grows.ite
    | dsimp only

theorem State.dropTunnels_grows {z : State} (s : State) (a : Nat) (hs : Grows z s) :
    Grows z (State.dropTunnels s a) := by
  unfold State.dropTunnels
  repeat' first
    | with_reducible assumption
    | intro _
    | with_reducible apply State.modAllot_grows
    | dsimp only

end Sys2Proof.Machine
end

