-- ==== Sys2Proof/Laws/GrowsRing.lean ====
section
/-! SUPPORT. The operations of Machine/Ring.lean keep `Grows` (Laws/Grows.lean). -/

namespace Sys2Proof.Machine

theorem State.arriveAs_grows {z : State} (s : State) (f : HFrame) (g : HFrame) (hs : Grows z s) :
    Grows z (State.arriveAs s f g).2 := by
  unfold State.arriveAs
  repeat' first
    | with_reducible assumption
    | intro _
    | with_reducible apply State.emit_grows
    | with_reducible apply State.modLodge_grows
    | with_reducible apply State.endSession_grows
    | with_reducible apply Grows.ite
    | dsimp only
    | split

theorem State.arrive_grows {z : State} (s : State) (f : HFrame) (hs : Grows z s) :
    Grows z (State.arrive s f).2 := by
  unfold State.arrive
  repeat' first
    | with_reducible assumption
    | intro _
    | with_reducible apply State.arriveAs_grows
    | dsimp only

theorem State.expRead_grows {z : State} (s : State) (f : HFrame) (hs : Grows z s) :
    Grows z (State.expRead s f) := by
  unfold State.expRead
  repeat' first
    | with_reducible assumption
    | intro _
    | with_reducible apply State.respond_grows
    | with_reducible apply State.dictRead_grows
    | with_reducible apply Grows.ite
    | dsimp only

theorem State.expWrite_grows {z : State} (s : State) (f : HFrame) (hs : Grows z s) :
    Grows z (State.expWrite s f) := by
  unfold State.expWrite
  repeat' first
    | with_reducible assumption
    | intro _
    | with_reducible apply State.respond_grows
    | with_reducible apply State.dictWrite_grows
    | with_reducible apply Grows.ite
    | dsimp only

theorem State.dropTransfer_grows {z : State} (s : State) (reader : Reader) (index : BitVec 16) (sub : BitVec 8) (hs : Grows z s) :
    Grows z (State.dropTransfer s reader index sub) := by
  unfold State.dropTransfer
  repeat' first
    | with_reducible assumption
    | intro _
    | with_reducible apply State.modLodge_grows
    | dsimp only

theorem State.putTransfer_grows {z : State} (s : State) (t : Transfer) (hs : Grows z s) :
    Grows z (State.putTransfer s t) := by
  unfold State.putTransfer
  repeat' first
    | with_reducible assumption
    | intro _
    | with_reducible apply State.modLodge_grows
    | with_reducible apply State.dropTransfer_grows
    | dsimp only

theorem State.segRead_grows {z : State} (s : State) (f : HFrame) (hs : Grows z s) :
    Grows z (State.segRead s f) := by
  unfold State.segRead
  repeat' first
    | with_reducible assumption
    | intro _
    | with_reducible apply State.dropTransfer_grows
    | with_reducible apply State.respond_grows
    | with_reducible apply State.dictRead_grows
    | with_reducible apply State.putTransfer_grows
    | with_reducible apply Grows.ite
    | dsimp only
    | split

theorem State.endWrite_grows {z : State} (s : State) (f : HFrame) (d : List Byte) (block : Bool) (hs : Grows z s) :
    Grows z (State.endWrite s f d block) := by
  unfold State.endWrite
  repeat' first
    | with_reducible assumption
    | intro _
    | with_reducible apply State.dropTransfer_grows
    | with_reducible apply State.dictWrite_grows
    | with_reducible apply State.respond_grows
    | dsimp only

theorem State.segWrite_grows {z : State} (s : State) (f : HFrame) (hs : Grows z s) :
    Grows z (State.segWrite s f) := by
  unfold State.segWrite
  repeat' first
    | with_reducible assumption
    | intro _
    | with_reducible apply State.respond_grows
    | with_reducible apply State.endWrite_grows
    | with_reducible apply State.putTransfer_grows
    | with_reducible apply State.dropTransfer_grows
    | with_reducible apply Grows.ite
    | dsimp only
    | split

theorem State.blockCtl_grows {z : State} (s : State) (f : HFrame) (hs : Grows z s) :
    Grows z (State.blockCtl s f) := by
  unfold State.blockCtl
  repeat' first
    | with_reducible assumption
    | intro _
    | with_reducible apply State.respond_grows
    | with_reducible apply State.putTransfer_grows
    | with_reducible apply State.endWrite_grows
    | with_reducible apply State.dropTransfer_grows
    | with_reducible apply Grows.ite
    | dsimp only
    | split

theorem State.blockData_grows {z : State} (s : State) (f : HFrame) (hs : Grows z s) :
    Grows z (State.blockData s f) := by
  unfold State.blockData
  repeat' first
    | with_reducible assumption
    | intro _
    | with_reducible apply State.respond_grows
    | with_reducible apply State.putTransfer_grows
    | with_reducible apply Grows.ite
    | dsimp only
    | split

theorem State.ackEvent_grows {z : State} (s : State) (f : HFrame) (hs : Grows z s) :
    Grows z (State.ackEvent s f) := by
  unfold State.ackEvent
  repeat' first
    | with_reducible assumption
    | intro _
    | with_reducible apply State.modLodge_grows
    | with_reducible apply Grows.ite
    | dsimp only

theorem State.followSync_grows {z : State} (s : State) (f : HFrame) (hs : Grows z s) :
    Grows z (State.followSync s f) := by
  unfold State.followSync
  repeat' first
    | with_reducible assumption
    | intro _
    | with_reducible apply State.modLodge_grows
    | with_reducible apply State.event_grows
    | with_reducible apply Grows.ite
    | dsimp only
    | with_reducible apply Grows.nsSet

theorem State.answerDelay_grows {z : State} (s : State) (f : HFrame) (hs : Grows z s) :
    Grows z (State.answerDelay s f) := by
  unfold State.answerDelay
  repeat' first
    | with_reducible assumption
    | intro _
    | with_reducible apply State.sendRing_grows
    | with_reducible apply Grows.ite
    | dsimp only

theorem State.takeDelay_grows {z : State} (s : State) (f : HFrame) (hs : Grows z s) :
    Grows z (State.takeDelay s f) := by
  unfold State.takeDelay
  repeat' first
    | with_reducible assumption
    | intro _
    | with_reducible apply State.each_grows
    | with_reducible apply State.modLodge_grows
    | with_reducible apply Grows.ite
    | dsimp only
    | split

theorem State.assign_grows {z : State} (s : State) (f : HFrame) (hs : Grows z s) :
    Grows z (State.assign s f) := by
  unfold State.assign
  repeat' first
    | with_reducible assumption
    | intro _
    | with_reducible apply State.respond_grows
    | with_reducible apply State.setStation_grows
    | with_reducible apply Grows.ite
    | dsimp only

theorem State.abortFrame_grows {z : State} (s : State) (f : HFrame) (hs : Grows z s) :
    Grows z (State.abortFrame s f) := by
  unfold State.abortFrame
  repeat' first
    | with_reducible assumption
    | intro _
    | with_reducible apply State.dropTransfer_grows
    | with_reducible apply State.respond_grows
    | with_reducible apply Grows.ite
    | dsimp only

theorem State.serve_grows {z : State} (s : State) (f : HFrame) (hs : Grows z s) :
    Grows z (State.serve s f) := by
  unfold State.serve
  repeat' first
    | with_reducible assumption
    | intro _
    | with_reducible apply State.expRead_grows
    | with_reducible apply State.expWrite_grows
    | with_reducible apply State.segRead_grows
    | with_reducible apply State.assign_grows
    | with_reducible apply State.segWrite_grows
    | with_reducible apply State.blockData_grows
    | with_reducible apply State.ackEvent_grows
    | with_reducible apply State.followSync_grows
    | with_reducible apply State.answerDelay_grows
    | with_reducible apply State.takeDelay_grows
    | with_reducible apply State.stepFragment_grows
    | with_reducible apply State.abortFrame_grows
    | with_reducible apply State.blockCtl_grows
    | with_reducible apply Grows.ite
    | dsimp only
    | split

theorem State.ringIn_grows {z : State} (s : State) (f : HFrame) (hs : Grows z s) :
    Grows z (State.ringIn s f) := by
  unfold State.ringIn
  repeat' first
    | with_reducible assumption
    | intro _
    | with_reducible apply State.arrive_grows
    | with_reducible apply State.serve_grows
    | with_reducible apply Grows.ite
    | dsimp only

theorem ringCmd_grows {z : State} (f : HFrame) (service : Nat) (rsp : Bool) (s : State) (hs : Grows z s) :
    GrowsR z (ringCmd f service rsp s) := by
  unfold ringCmd
  repeat' first
    | with_reducible assumption
    | with_reducible apply GrowsR.next
    | with_reducible apply onlyIf_grows
    | with_reducible apply State.ringIn_grows

theorem sessionCmd_grows {z : State} (f : HFrame) (step : Nat) (s : State) (hs : Grows z s) :
    GrowsR z (sessionCmd f step s) := by
  unfold sessionCmd
  repeat' first
    | with_reducible assumption
    | with_reducible apply GrowsR.next
    | with_reducible apply onlyIf_grows
    | with_reducible apply State.ringIn_grows

end Sys2Proof.Machine
end

