-- ==== Sys2Proof/Laws/GrowsStartup.lean ====
section
/-! SUPPORT. The operations of Machine/Startup.lean keep `Grows` (Laws/Grows.lean). -/

namespace Sys2Proof.Machine

theorem State.stopFlash_grows {z : State} (s : State) (hs : Grows z s) :
    Grows z (State.stopFlash s) := by
  unfold State.stopFlash
  repeat' first
    | with_reducible assumption
    | intro _
    | with_reducible apply State.sectorDone_grows
    | with_reducible apply Grows.ite
    | dsimp only
    | split

theorem State.wipe_grows {z : State} (s : State) (charged : Bool) (hs : Grows z s) :
    Grows z (State.wipe s charged) := by
  exact hs.trans ⟨rfl, ⟨[], by simp [State.wipe]⟩, Nat.le_refl _, fun _ => rfl⟩

theorem State.applySettings_grows {z : State} (s : State) (hs : Grows z s) :
    Grows z (State.applySettings s) := by
  unfold State.applySettings
  repeat' first
    | with_reducible assumption
    | intro _
    | with_reducible apply State.each_grows
    | with_reducible apply State.modHost_grows
    | with_reducible apply State.modSrv_grows
    | dsimp only

theorem State.applyRepair_grows {z : State} (s : State) (r : Repair) (hs : Grows z s) :
    Grows z (State.applyRepair s r) := by
  unfold State.applyRepair
  repeat' first
    | with_reducible assumption
    | intro _
    | with_reducible apply State.each_grows
    | with_reducible apply State.modPav_grows
    | with_reducible apply State.modLink_grows
    | dsimp only

theorem State.boot_grows {z : State} (s : State) (hs : Grows z s) :
    Grows z (State.boot s) := by
  unfold State.boot
  repeat' first
    | with_reducible assumption
    | intro _
    | with_reducible apply State.modLodge_grows
    | with_reducible apply State.resetWindows_grows
    | with_reducible apply State.applyRepair_grows
    | with_reducible apply State.applySettings_grows
    | with_reducible apply State.each_grows
    | with_reducible apply State.flashWrite_grows
    | with_reducible apply State.settleStart_grows
    | with_reducible apply State.progressTo_grows
    | with_reducible apply State.debugErase_grows
    | with_reducible apply State.fresh_grows
    | with_reducible apply State.record_grows
    | with_reducible apply Grows.ite
    | dsimp only
    | split
    | with_reducible apply Grows.nsSet

theorem State.segTrained_grows {z : State} (s : State) (n : SegIx) (ok : List Nat) (hs : Grows z s) :
    Grows z (State.segTrained s n ok) := by
  unfold State.segTrained
  repeat' first
    | with_reducible assumption
    | intro _
    | with_reducible apply State.each_grows
    | with_reducible apply State.modStack_grows
    | with_reducible apply State.failStack_grows
    | with_reducible apply State.modSeg_grows
    | with_reducible apply Grows.ite
    | dsimp only

theorem State.wavePlot_grows {z : State} (s : State) (p : Nat) (hs : Grows z s) :
    Grows z (State.wavePlot s p) := by
  unfold State.wavePlot
  repeat' first
    | with_reducible assumption
    | intro _
    | with_reducible apply State.plotOn_grows
    | with_reducible apply State.modPlot_grows
    | with_reducible apply State.loseDomain_grows
    | with_reducible apply Grows.ite
    | dsimp only

theorem State.bistLine_grows {z : State} (s : State) (p : Nat) (column : Bool) (line : Nat) (hs : Grows z s) :
    Grows z (State.bistLine s p column line) := by
  unfold State.bistLine
  repeat' first
    | with_reducible assumption
    | intro _
    | with_reducible apply State.retireRec_grows
    | with_reducible apply State.modPav_grows
    | with_reducible apply State.bistFail_grows
    | dsimp only
    | split

theorem State.bistColumn_grows {z : State} (s : State) (p : Nat) (cell : Nat) (bank : Nat) (hs : Grows z s) :
    Grows z (State.bistColumn s p cell bank) := by
  unfold State.bistColumn
  repeat' first
    | with_reducible assumption
    | intro _
    | with_reducible apply State.bistCell_grows
    | with_reducible apply State.record_grows
    | with_reducible apply State.modPav_grows
    | with_reducible apply Grows.ite
    | dsimp only

theorem State.settleLinks_grows {z : State} (s : State) (hs : Grows z s) :
    Grows z (State.settleLinks s) := by
  unfold State.settleLinks
  repeat' first
    | with_reducible assumption
    | intro _
    | with_reducible apply State.each_grows
    | with_reducible apply State.modPlot_grows
    | with_reducible apply State.modSeg_grows
    | with_reducible apply State.settleStart_grows
    | dsimp only

end Sys2Proof.Machine
end

