-- ==== Sys2Proof/Laws/Issue.lean ====
section
/-! SUPPORT. What issuing an instruction can do: lemmas about `State.issue` and `State.instr`. -/

namespace Sys2Proof.Machine

/-- A row of the engine stage without errors reads as stored and changes nothing. -/
theorem stageRead_clean (s : State) (p row : Nat) (h : (s.pav p).stage.rowMeta row = RowMeta.clean) :
    s.stageRead p row = ((memRead (s.pav p).stage.bytes (64 * row) 64, false), s) := by
  simp [State.stageRead, Store.correct, Store.beyond, Seen.bad, sramCode, h, RowMeta.clean]

theorem cadGo_some (s : State) (r : Seq) (p i : Nat) (c : Cad) (h : s.cadGo p i c = some r) :
    (s.pav p).seq.cadAsk (s.tileLeft p) i c = .go r := by
  unfold State.cadGo at h
  split at h <;> simp_all

/-- What `issue` answers for an instruction that can issue. -/
theorem issue_pass (s : State) (p i op w : Nat) (x : Issue) (eff : List Nat → State → State)
    (h : s.canIssue p i op w x = true) : s.issue p i op x eff = s.passAfter p i op x eff := by
  unfold State.canIssue at h
  simp only [Bool.and_eq_true, decide_eq_true_eq] at h
  obtain ⟨⟨⟨⟨⟨⟨_, hm⟩, hg⟩, hr⟩, hn⟩, hp⟩, hw⟩ := h
  obtain ⟨r, hr'⟩ := Option.isSome_iff_exists.mp hg
  have ha := cadGo_some _ _ _ _ _ hr'
  simp only [Option.isNone_iff_eq_none] at hn
  simp [State.issue, State.passAfter, State.passOpen, State.moved, stageRead_clean _ _ _ hm, ha, hr', hr, hn, hp, hw]

/-- The same for an instruction that is not a tile pass: its effect runs, and nothing follows. -/
theorem issue_go (s : State) (p i op w : Nat) (x : Issue) (eff : List Nat → State → State)
    (h : s.canIssue p i op w x = true) (hc : ∀ o, x.cad ≠ .pass o) :
    s.issue p i op x eff = eff (s.moved p i op x).1 (s.moved p i op x).2 := by
  rw [issue_pass s p i op w x eff h]
  cases hx : x.cad with
  | pass o => exact absurd hx (hc o)
  | _ => simp [State.passAfter, State.passOpen, Seq.openBoundary, hx]

/-- An instruction command that its stream offers runs. -/
theorem instr_go (s : State) (p : PavIx) (i : StreamIx) (op : Nat) (w : Body) (f : State → State) (x : Issue)
    (h : s.canIssue p.val i.val op w.toNat x = true) : s.instr p i op w f = .next (f s) := by
  unfold State.canIssue at h
  simp only [Bool.and_eq_true] at h
  simp [State.instr, onlyIf, h.1.1.1.1.1.1]

/-- One that it does not offer changes nothing. -/
theorem instr_stay (s : State) (p : PavIx) (i : StreamIx) (op : Nat) (w : Body) (f : State → State)
    (h : s.offers p.val i.val op w.toNat = false) : s.instr p i op w f = .next s := by
  simp [State.instr, onlyIf, h]

end Sys2Proof.Machine
end

