-- ==== Sys2Proof/Tests/Slice0.lean ====
section
/-! SUPPORT. The model's own tests: the commands that nothing can send, a witness for the hypotheses of each statement, and
single steps whose results come from the rules. -/

namespace Sys2Proof.Tests

open Sys2Proof.Machine

set_option Elab.async false

/-! ### Small states -/

def domOn : PowerDom := { on := true, shorted := false }

/-- A plot with its domains on that has joined allotment 0. -/
def plotOn : Plot := { Plot.built with e := domOn, g := domOn, h := domOn, owner := some 0, pll := true }

/-- An open allotment of plot 0 with 16 GB. -/
def allot0 : Allot := { Allot.built with enable := .open_, plots := 1, ranges := [(0, 16)], zeroed := true }

/-- The module Ready and Operational, with plot 0 in allotment 0. -/
def ready : State :=
  ((State.reset.setPlot 0 plotOn).setAllot 0 allot0).modLodge (fun l => { l with aux := true, phase := .ready, moduleState := 3 })

def strm0 : Strm := { Strm.cleared with halted := false }

/-- A sequencer whose stream 0 runs. -/
def seq0 : Seq := { Seq.cleared with running := true, streams := strm0 :: List.replicate 3 Strm.cleared }

/-- Stream 0 of pavilion 0 offers the instruction of opcode op and body w, which stands in slot 0. -/
def offering (op w : Nat) : State := ready.setPav 0 { Pav.built false 0 with
  seq := seq0, stage := { bytes := memWrite [] (64 * storeRow) (natLE 16 (2 ^ 120 * op + w)), rows := [] } }

/-- The instruction can issue there. -/
def goes (op w : Nat) (x : State → Issue) : Bool := (offering op w).canIssue 0 0 op w (x (offering op w))

/-- An engine-stage operand address. -/
def stg (a : Nat) : Nat := 2 ^ 28 + a

def tile0 : Tile := { wfmt := 12, spa := false, part := false, kext := 32, next := 32, cols := [], ck := [], poison := false, fc := none
                      empty := false }

/-! ### Commands that nothing can send -/

def frame0 : HFrame :=
  { onB := false, fcsOk := true, macDst := 0xFFFFFFFFFFFF, macSrc := 0, vlan := false, ethertype := 0x88B6, version := 1, rsp := false
    service := 0, dst := 1, src := 2, hops := 0, seq := 0, index := 0, sub := 0, code := 0, length := 0, session := 0, param := 0
    payload := [], tag := [] }

def tframe0 : TFrame :=
  { peer := 5, fcsOk := true, ethertype := 0x88B5, vlan := false, version := 1, ftype := 0, flags := 0, handle := 0, xid := 0
    seq := 0, reserved1 := 0, offset := 0, length := 0, bytes := 0, status := 0, round := 0, nbase := 0, counter := 0, pmap := 0
    reserved2 := 0, data := [], tag := [] }

def packet0 : Packet :=
  { dstX := 0, dstY := 0, srcX := 0, srcY := 0, vc := 0, ptype := 7, age := 0, tag := 0, opq := 0, payload := 0, seq := 0
    reserved := 0, escape := false, retry := false, poison := false, last := false, valid := 0, crc := 0 }

/-- The commands that carry a ring frame. -/
def frameCommands (f : HFrame) : List Instr :=
  [.expeditedRead f, .expeditedWrite f, .segmentedRead f, .segmentedWrite f, .blockControl f, .blockWrite f, .abort f, .eventAck f
  , .sync f 0, .delayReq f, .delayResp f, .frameForward f, .stationAssign f, .hello f, .accept f, .close f, .wkeySet f, .wkeyDel f
  , .ownersSet f]

/-- R338: a frame is refused for each field of it that no frame of the ring can have. -/
theorem test_frames_refused :
    (frameCommands frame0).all Instr.wf = true ∧
    [{ frame0 with macDst := 1 }, { frame0 with vlan := true }, { frame0 with ethertype := 0x88B5 }, { frame0 with payload := [1] }
    , { frame0 with length := 1 }, { frame0 with length := 1025, payload := List.replicate 1025 0 }, { frame0 with tag := [1] }
    , { frame0 with session := 1 }, { frame0 with session := 1, tag := List.replicate 15 0 }].all
      (fun f => (frameCommands f).all (fun c => !c.wf)) = true := by
  decide +kernel

/-- R285: a packet command carries no packet of another type; of a reserved type it may. -/
theorem test_packets_refused :
    [Instr.req packet0, .read packet0, .reply packet0, .data packet0, .nack packet0, .signalPacket packet0, .control packet0
    , .granule { packet0 with ptype := 0 }].all (fun c => !c.wf) = true ∧
    (Instr.granule packet0).wf = true ∧ (Instr.data { packet0 with ptype := 15 }).wf = true := by
  decide +kernel

/-! ### Witnesses: the matrix engine and the unpack path -/

def mloadWord : Nat := 12 * 2 ^ 116 + 32 * 2 ^ 102 + 32 * 2 ^ 93

theorem witness_MatrixSetUpCompletes :
    goes 0x38 0 (fun _ => mgeomIssue 0) ∧ goes 0x30 0 (fun _ => mosetIssue 0) ∧ goes 0x34 0 (fun _ => mpsetIssue 0) ∧
    goes 0x3C (2 ^ 117) (fun _ => mfsetIssue (2 ^ 117)) ∧ goes 0x10 mloadWord (fun s => s.mloadIssue 0 0 mloadWord) := by
  decide +kernel

def mrunWord : Nat := 12 * 2 ^ 116 + 2 ^ 111 + 32 * 2 ^ 100 + 2 ^ 98 + stg 0 * 2 ^ 64 + stg 65536 * 2 ^ 32

def maccWord : Nat :=
  12 * 2 ^ 116 + 12 * 2 ^ 112 + 2 ^ 107 + 2 ^ 105 + 2 ^ 96 + stg 0 * 2 ^ 64 + stg 65536 * 2 ^ 32 + stg 131072

/-- With a tile in the active bank. -/
def tiled (op w : Nat) : State := (offering op w).modME 0 (fun m => { m with active := some tile0 })

theorem witness_MatrixPassCompletes :
    (tiled 0x20 mrunWord).canIssue 0 0 0x20 mrunWord ((tiled 0x20 mrunWord).mrunIssue 0 0 mrunWord) ∧
    (tiled 0x28 maccWord).canIssue 0 0 0x28 maccWord ((tiled 0x28 maccWord).maccIssue 0 0 maccWord) := by
  decide +kernel

def pass0 (macc : Bool) : Pass :=
  { id := 0, macc := macc, stream := 0, slot := 0, w := BitVec.ofNat 120 (if macc then maccWord else mrunWord)
    ctx := OutCtx.cleared, octx := 0, path := .wide, rows := 32, issued := 0, swapped := false, xpitch := 64, wpitch := 64
    ypitch := 64, rd := [], wr := [], filled := [], interval := 1 }

def flight0 : RowFlight :=
  { pass := 0, row := 0, macc := false, acc := false, fin := true, path := .wide, mag := { m := 0, e := 0 }, ksteps := 0, dest := [(true, 1024)]
    sums := { s1 := .zero, s2 := .zero, t1 := .zero, t2 := .zero }, cross := none, last := true }

def shadow0 : Shadow :=
  { pass := 0, path := .fp32, ksteps := 0, rows := [], ck := [], t := .nan false, last := false, live := true }

/-- The rows of the shadow, all zero, pass their comparison, and its sums hold a NaN, which has no cross-check (R89). -/
theorem shadow0_clean : shadow0.findings [] = [] := by
  have h : ∀ i, shadow0.finding .pass i = .clean := fun i => by
    have h0 : shadow0.finding .pass 0 = .clean := by decide +kernel
    exact h0
  have hc : ∀ e, judgeCross shadow0.path shadow0.ksteps (crossSums shadow0.rows shadow0.ck shadow0.t) e = .clean := fun e => by
    simp [judgeCross, crossSums, shadow0, FV.isFin]
  simp [Shadow.findings, h, hc]

def withME (f : ME → ME) : State := ready.modME 0 f
def withPav (f : Pav → Pav) : State := ready.modPav 0 f

theorem witness_MatrixEventsComplete :
    (let s := withME (fun m => { m with loading := true, running := some (pass0 true) });
      (s.pav 0).me.loading = true ∧ ((s.pav 0).me.running.all (fun r => !r.macc || r.issued == 0)) = true) ∧
    (let s := withME (fun m => { m with drain := some (pass0 true, true, 0) });
      (s.plot (plotOf 0)).e.on = true ∧ (s.pav 0).me.drain = some (pass0 true, true, 0)) ∧
    (let s := withME (fun m => { m with running := some (pass0 false) });
      (s.plot (plotOf 0)).e.on = true ∧ (s.pav 0).me.drain = none ∧ (s.pav 0).me.running = some (pass0 false)) ∧
    (let s := withME (fun m => { m with drain := some (pass0 true, false, 0) });
      (s.pav 0).me.drain = some (pass0 true, false, 0) ∧ (s.pav 0).me.shadows = [] ∧ (s.pav 0).me.prune = []) ∧
    (let s := withME (fun m => { m with inFlight := [flight0], finishing := [pass0 false] });
      (s.pav 0).me.inFlight = [flight0] ∧ flight0.finding .pass = .clean ∧ flight0.finding .outputStage ≠ .clean ∧
        (s.pav 0).me.finishing.find? (fun r => r.id == flight0.pass) = some (pass0 false)) ∧
    ((withME (fun m => { m with shadows := [shadow0] })).pav 0).me.shadows = [shadow0] ∧
    (let s := State.reset.modME 0 (fun m => { m with retiring := [(true, 529)] });
      (s.pav 0).me.retiring = [(true, 529)] ∧ (s.pav 0).me.running = none ∧
        (retireIn (s.pav 0).repair true 529).isSome = true ∧ s.allotOfPav 0 = none) ∧
    (let c : FcSlot := { audited := 0, misses := List.replicate 65 0, disabled := false };
      let s := withPav (fun v => { v with forecast := [(63, c)] });
      tget FcSlot.cleared (s.pav 0).forecast 63 = c ∧ s.tooMany 0 c = true) ∧
    (let c : FcSlot := { audited := 65536, misses := List.replicate 64 0, disabled := false };
      let s := withPav (fun v => { v with forecast := [(63, c)] });
      tget FcSlot.cleared (s.pav 0).forecast 63 = c ∧ 2 ^ (s.limits 0).window.toNat ≤ c.audited ∧ s.tooMany 0 c = false) := by
  decide +kernel

def munpkWord : Nat := 6 * 2 ^ 116 + 2 ^ 104 + 2 ^ 96 + stg 0 * 2 ^ 64 + stg 65536 * 2 ^ 32 + 2048 * 2 ^ 15
def mpackWord : Nat := 6 * 2 ^ 116 + 32 * 2 ^ 103 + 32 * 2 ^ 94 + 2048 * 2 ^ 64 + stg 0 * 2 ^ 32 + stg 65536

theorem witness_UnpackCompletes :
    goes 0x18 munpkWord (fun s => munpkIssue ((s.pav 0).seq.stream 0) munpkWord) ∧
    goes 0x1C mpackWord (fun s => mpackIssue ((s.pav 0).seq.stream 0) mpackWord) := by
  decide +kernel

/-! ### Witnesses: the vector engine, DMA and control -/

/-- A vector-engine body: formats, ctl, count and immediate, on operands at rows 0, 1,024 and 2,048. -/
def vw (sfmt dfmt ctl count imm : Nat) : Nat :=
  count * 2 ^ 107 + sfmt * 2 ^ 103 + dfmt * 2 ^ 99 + ctl * 2 ^ 92 + 1024 * 2 ^ 54 + 2048 * 2 ^ 37 + imm

def veGoes (w op : Nat) : Bool := goes op w (fun s => s.veIssue 0 (vopOf op w))

theorem witness_VectorArithmeticCompletes :
    (List.range 11).all (fun k => veGoes (vw 12 12 0 64 0) (0x40 + k)) ∧ veGoes (vw 0 12 0 64 0) 0x4B ∧
    veGoes (vw 14 14 0 0 0) 0x40 := by
  decide +kernel

theorem witness_VectorIntegerCompletes :
    [0x4C, 0x4D, 0x4E, 0x4F, 0x52, 0x54, 0x55, 0x56].all (veGoes (vw 0 0 0 64 0)) ∧
    [0x50, 0x51].all (veGoes (vw 12 0 15 64 0)) ∧ veGoes (vw 12 12 0 64 0) 0x53 := by
  decide +kernel

theorem witness_VectorConvertCompletes :
    [0x58, 0x60, 0x61, 0x62, 0x63, 0x64, 0x65].all (veGoes (vw 12 12 0 64 0)) ∧ veGoes (vw 12 6 0 64 0) 0x59 ∧
    veGoes (vw 6 12 0 64 0) 0x5A ∧ veGoes (vw 14 0 0 64 0) 0x5B ∧ veGoes (vw 0 12 0 64 0) 0x5C ∧ veGoes (vw 12 0 1 64 0) 0x5D := by
  decide +kernel

theorem witness_VectorReduceCompletes :
    [0x68, 0x69, 0x70].all (veGoes (vw 12 12 0 64 64)) ∧ veGoes (vw 0 0 1 64 0) 0x78 := by
  decide +kernel

def pxWord : Nat := 2 ^ 118 + 2 ^ 108 + 2 ^ 69

def dma0 (kind : DmaKind) (w : Nat) : Dma :=
  { kind := kind, stream := 0, slot := 0, w := BitVec.ofNat 120 w, rd := [], wr := [], issue := 0, done := 0, parts := none
    tagWait := none, interval := 1 }

/-- A transfer of one part, which has landed. -/
def parts0 : Parts :=
  { read := false, dstX := 1, dstY := 2, address := 0, source := 0, length := 64, started := 1, sent := 1, done := 1, fault := 0 }

/-- Pavilion 0 with port 0 bound both ways and a transfer in place 3. -/
def placed (x : Option Dma) (s : State) : State := s.modPav 0 (fun v => { v with
  outBind := [(0, 1)], inBind := [0], seq := { v.seq with dma := v.seq.dma.set 3 x } })

def beat0 : Beat := mkBeat 0 0 0 kDATA true false

theorem witness_DmaCompletes :
    (let w := 2 ^ 91 + 65536;
      goes 0x80 w (fun s => s.dcopyIssue 0 w)) ∧
    (let s := placed none (offering 0x81 pxWord);
      s.canIssue 0 0 0x81 pxWord (s.psendIssue 0 pxWord)) ∧
    (let s := placed none (offering 0x82 pxWord);
      s.canIssue 0 0 0x82 pxWord (s.precvIssue 0 pxWord)) ∧
    (let x := dma0 .dcopy (2 ^ 118 + 2 ^ 91);
      let s := placed (some x) ready;
      (s.pav 0).seq.place 3 = some x ∧ (s.plot (plotOf 0)).e.on = true ∧ s.dcopyDone 0 x = true) ∧
    (let x := { dma0 .dcopy (2 ^ 119 + 2 ^ 91) with parts := some parts0 };
      let s := placed (some x) ready;
      (s.pav 0).seq.place 3 = some x ∧ s.dcopyDone 0 x = true) ∧
    (let x := dma0 .precv pxWord;
      let s := (placed (some x) ready).modPav 0 (fun v => { v with inBuf := [(0, [beat0, beat0])] });
      (s.pav 0).seq.onPort .precv 0 = some (3, x) ∧ x.tagWait = none ∧ (s.plot (plotOf 0)).e.on = true ∧
        firstItem (tget [] (s.pav (s.portsOf 0)).inBuf 0) = some ([beat0], [beat0])) := by
  decide +kernel

theorem witness_ControlCompletes :
    [0, 2, 7].all (fun op => goes op 0 (fun _ => ctlIssue (ctlRefuse 0 false false false false))) ∧
    [1, 8].all (fun op => goes op (2 ^ 63) (fun _ => ctlIssue (ctlRefuse (2 ^ 63) false false true false))) ∧
    [4, 5].all (fun op => goes op (15 * 2 ^ 116) (fun _ => ctlIssue (ctlRefuse (15 * 2 ^ 116) true false true false))) ∧
    (let w := 2 ^ 101;
      goes 3 w (fun s => ctlIssue (loopRefuse ((s.pav 0).seq.stream 0) w))) ∧
    goes 6 0 (fun _ => cpostIssue 0) ∧ ((offering 8 0).pav 0).seq.streams.length = 4 := by
  decide +kernel

/-- Stream 0 held, 2^24 A-cycles after its hold began. -/
def held (h : Hold) : State :=
  { (offering 0 0).modStream 0 0 (fun t => { t with hold := h }) with ns := 20000000 }

theorem witness_HoldsComplete :
    (let s := held (.wait 5);
      ((s.pav 0).seq.stream 0).hold = .wait 5 ∧ 0 + s.acyclesOf 0 5 ≤ s.ns) ∧
    (let s := held (.sync 15 0);
      ((s.pav 0).seq.stream 0).hold = .sync 15 0 ∧ (0 : Word).toNat ≤ (lget 0 (s.pav 0).seq.ctrs 15).toNat) ∧
    (let s := held .stall;
      s.streamOpen 0 0 = true ∧ ((s.pav 0).seq.stream 0).hold ≠ .none ∧ s.yields 0 0 (s.nextOp 0 0) = false) ∧
    (let s := held .stall;
      s.issuing 0 = true ∧ 0 < (s.pav 0).seq.nstr ∧ ((s.pav 0).seq.stream 0).halted = false ∧
        ((s.pav 0).seq.stream 0).hold.counts = true ∧
        0 + s.acyclesOf 0 (2 ^ (s.limits 0).stall.toNat) ≤ s.ns) := by
  decide +kernel

def mark0 : MarkRec :=
  { number := 1, tag := 7, points := [], cad := [], tagged := false, due := false, own := false, cadEntry := 0, ctrs := [], tags := []
    sec := 0 }

def withSeq (f : Seq → Seq) : State := ready.modPav 0 (fun v => { v with seq := f seq0 })

def marked : Strm := { strm0 with markPts := [{ tag := 9, issue := 0, slot := 0, loops := [] }] }

/-- Pavilion 0's sequencer is neither stopped nor frozen. -/
def calm (s : State) : Bool := !(s.pav 0).seq.stopped && !(s.pav 0).seq.frozen

theorem witness_RunsComplete :
    (let s := withSeq (fun q => { q with running := false, due := true });
      calm s ∧ (s.pav 0).seq.due = true ∧ (s.pav 0).seq.running = false ∧ (s.pav 0).drillDue = false ∧ (s.pav 0).enable ≠ .failed ∧
        (s.plot (plotOf 0)).e.on = true) ∧
    (let s := withSeq (fun q => { q with streams := List.replicate 4 Strm.cleared });
      calm s ∧ (s.pav 0).seq.live.all (·.halted) = true ∧ (s.pav 0).outstanding = [] ∧ (s.pav 0).me.inFlight = [] ∧
        (s.pav 0).seq.running = true) ∧
    (let s := withSeq (fun q => { q with streams := marked :: List.replicate 3 Strm.cleared });
      calm s ∧ (s.pav 0).seq.markDue = some 9 ∧ (s.pav 0).seq.running = true ∧ (s.pav 0).seq.nstr = 1) ∧
    (let s := withSeq (fun q => { q with taken := [mark0] });
      calm s ∧ (s.pav 0).seq.d1Pending = false ∧ (s.pav 0).seq.d2Pending = false ∧ (s.pav 0).seq.taken = [mark0] ∧ s.allotOfPav 0 = some 0 ∧ (s.pav 0).markFinished mark0 = true) ∧
    (let s := withSeq (fun q => { q with verified := [mark0], d1Pending := true });
      calm s ∧ s.allotOfPav 0 = some 0 ∧ (s.pav 0).seq.verified.head? = some mark0 ∧ (s.pav 0).seq.d1Pending = true) ∧
    (let s := withSeq (fun q => { q with verified := [mark0], d2Pending := true, taken := [mark0] });
      calm s ∧ s.allotOfPav 0 = some 0 ∧ (s.pav 0).seq.verified.head? = some mark0 ∧ (s.pav 0).seq.d1Pending = false ∧
        (s.pav 0).seq.d2Pending = true ∧ (s.pav 0).seq.taken ≠ []) := by
  decide +kernel

/-! ### Witnesses: the cell cores -/

/-- Cell 0 of pavilion 0. -/
def c0 : CellXY := { x := 0, y := 2 }

def core0 : Core := { Core.held0 with pc := 0x100, monitor := false, held := false }

/-- The core of cell 0 runs with register values from g1 on. -/
def cored (f : Core → Core) (g : List Word) : State :=
  ready.modPav 0 (fun v => v.setCore 0 (f { core0 with regs := 0 :: g ++ List.replicate (31 - g.length) 0 }))

def runs0 (s : State) : Bool := decide (cellNo c0 = some (0, 0)) && s.coreRuns 0 0

theorem witness_CoreResultWrites : core0.regs.length = 32 := by decide +kernel

theorem witness_CoreIntegerCompletes : runs0 (cored id []) := by decide +kernel

theorem witness_CoreDivideShiftCompletes :
    (let k := (((cored id [6, 31, 32, 3, 0, 0x80000000, 0xFFFFFFFD]).pav 0).core 0);
      runs0 (cored id [6, 31, 32, 3, 0, 0x80000000, 0xFFFFFFFD]) ∧ (k.src (.reg 2)).toNat < 32 ∧ 32 ≤ (k.src (.reg 3)).toNat ∧
        k.reg 4 ≠ 0 ∧ 0 ≤ (k.reg 1).toInt ∧ 0 < (k.reg 4).toInt ∧ k.reg 5 = 0 ∧ (k.reg 1).toInt = -2 * (k.reg 7).toInt ∧
        (k.reg 7).toInt ≠ 0) := by
  decide +kernel

theorem witness_CoreFloatCompletes :
    (let k := (((cored id [0x3F800000, 0x7FC00000, 0x4F000000]).pav 0).core 0);
      runs0 (cored id [0x3F800000, 0x7FC00000, 0x4F000000]) ∧ (k.fp 1).isNan = false ∧ (k.fp 1).isZero = false ∧
        (k.fp 2).isNan = true ∧ (fpToInt (k.fp 1)).1 = some 1 ∧ (fpToInt (k.fp 3)).1 = none) := by
  decide +kernel

theorem witness_CoreMemoryCompletes :
    (let k := (((cored id [0x3EFF8]).pav 0).core 0);
      runs0 (cored id [0x3EFF8]) ∧ k.address 1 0 = 0x3EFF8 ∧ k.address 1 0 < 0x3F000 ∧
        ((cored id [0x3EFF8]).pav 0).pool.getLsbD (poolBlock 0) = false ∧ k.address 1 0 % 8 = 0 ∧ k.address 1 0 % MemSize.bytes .b32 = 0 ∧
        ((cored id [0x3EFF8]).pav 0).garden.rowMeta ((cored id [0x3EFF8]).gardenRow 0 0x3EFC0) = RowMeta.clean) := by
  decide +kernel

theorem witness_CoreAccessTraps :
    (let k := (((cored id [0x3F000, 0x40000, 1]).pav 0).core 0);
      runs0 (cored id [0x3F000, 0x40000, 1]) ∧ k.address 3 0 % MemSize.bytes .b16 ≠ 0 ∧
        ((cored id [0x3F000, 0x40000, 1]).pav 0).pool.getLsbD (poolBlock 0) = false ∧
        k.address 1 0 % MemSize.bytes .b32 = 0 ∧ k.monitor = false ∧ 0x3F000 ≤ k.address 1 0 ∧ 0x40000 ≤ k.address 2 0) := by
  decide +kernel

theorem witness_CoreFlowCompletes :
    (let s := cored (fun k => { k with watchHit := true }) [1, 0xFFFFFFFF];
      let k := (s.pav 0).core 0;
      runs0 s ∧ k.watchHit = true ∧ branchTaken .ge (k.reg 1) (k.reg 2) = true ∧ branchTaken .geu (k.reg 1) (k.reg 2) = false ∧
        (((cored id []).pav 0).core 0).watchHit = false ∧ runs0 (cored id [])) := by
  decide +kernel

theorem witness_CoreWakes :
    (let s := cored (fun k => { k with suspended := true, watchHit := true }) [];
      let k := (s.pav 0).core 0;
      k.suspended = true ∧ k.watchHit = true ∧ k.held = false ∧ (s.pav 0).gated 0 = false) := by
  decide +kernel

theorem witness_CoreSystemCompletes :
    (let s := cored (fun k => { k with monitor := true }) [];
      let k := (s.pav 0).core 0;
      runs0 s ∧ k.monitor = true ∧ (s.csr 0 0 k 0).isSome = true ∧ (s.csr 0 0 k 6).isSome = true ∧ (s.csr 0 0 k 7).isSome = false) ∧
    (let s := cored id [];
      runs0 s ∧ ((s.pav 0).core 0).monitor = false ∧ (s.csr 0 0 ((s.pav 0).core 0) 2).isSome = true) := by
  decide +kernel

/-- A descriptor of a move of 64 bytes from the cell's own garden to HBM. -/
def move0 : BitVec 256 := BitVec.ofNat 256 (2 ^ 192 * 64 + 2 ^ 64 * 2 ^ 45)

theorem witness_MovesComplete :
    (let s := cored (fun k => { k with moveQueue := List.replicate 15 move0 }) [0x3EFE0];
      let k := (s.pav 0).core 0;
      runs0 s ∧ k.moveQueue.length < 16 ∧ (k.reg 1).toNat % 32 = 0 ∧ (k.reg 1).toNat < 0x3F000 ∧
        (s.pav 0).pool.getLsbD (poolBlock 0) = false ∧ (s.pav 0).garden.rowMeta (s.gardenRow 0 0x3EFC0) = RowMeta.clean ∧
        k.movePlace = some 0 ∧ s.moverRuns 0 0 = true ∧ (moveOf move0).ord = false) ∧
    (let x : MoveXfer := { d := move0, parts := parts0 };
      let s := cored (fun k => { k with moves := k.moves.set 3 (some x) }) [];
      lget none ((s.pav 0).core 0).moves 3 = some x ∧ s.moverRuns 0 0 = true ∧ x.parts.over = true ∧ x.parts.fault = 0) ∧
    (let x : MoveXfer := { d := move0, parts := { parts0 with done := 0, fault := 8 } };
      lget none (((cored (fun k => { k with moves := k.moves.set 3 (some x) }) []).pav 0).core 0).moves 3 = some x ∧
        x.parts.fault ≠ 0) := by
  decide +kernel

theorem witness_CoreFrame :
    coreOnly (.add c0 1 2 (.reg 3)) = some c0 ∧ cellNo c0 = some (0, 0) ∧ runs0 (cored id []) := by
  decide +kernel

theorem witness_CoreStoreFrame :
    (let k := (((cored id [0x3EFFC]).pav 0).core 0);
      runs0 (cored id [0x3EFFC]) ∧ k.address 1 0 < 0x3F000 ∧ k.address 1 0 % MemSize.bytes .b32 = 0 ∧
        ((cored id [0x3EFFC]).pav 0).pool.getLsbD (poolBlock 0) = false ∧
        ((cored id [0x3EFFC]).pav 0).garden.rowMeta ((cored id [0x3EFFC]).gardenRow 0 0x3EFC0) = RowMeta.clean) := by
  decide +kernel

/-! ### Witnesses: garden, plots and the Promenade -/

theorem witness_GardenCompletes :
    (let w : WriteBack := { row := 8, poison := false };
      let s := withPav (fun v => { v with writeBacks := [(4351, [w])], tags := [(65535, { state := 3, readers := 0, badParity := false })] });
      (s.plot (plotOf 0)).g.on = true ∧ tget [] (s.pav 0).writeBacks 4351 = [w] ∧ [w].find? (fun y => y.poison) = none ∧
        s.bankGated 0 100 = false ∧ s.slotFree 0 400 = true ∧ ((s.pav 0).tag 65535).state = tagBroken ∧ ((s.pav 0).tag 0).state ≠ tagBroken) := by
  decide +kernel

theorem witness_PlotScrubCompletes :
    (let s := ready.modPlot 55 (fun x => { x with scrubbing := true, zeroed := true });
      (s.plot 55).scrubbing = true ∧ (s.plot 55).zeroed = true) := by
  decide +kernel

def plotted (f : Plot → Plot) : State := { ready.modPlot 0 f with ns := 10000000 }

/-- Steering unit 31 in mode STEER with a data item and a token of tag 5. -/
def steer31 : Steer :=
  { Steer.start with r := some 5, bufs := [[mkBeat 0 0 5 kDATA true false], [], [mkBeat 1 0 5 kTOKEN true false]] }

/-- Merge unit 15 is on. -/
def merged (m : Merge) : State :=
  plotted (fun x => { x with merges := [(15, m)], prom := { x.prom with merge := [(15, { v := 1, e := 4, leaf := false })] } })

theorem witness_PromenadeCompletes :
    (let s := plotted (fun x => { x with circuits := [(beatKey 3 beat0, [beat0])] });
      s.switchOf 0 = some 0 ∧ (tget [] (s.plot 0).circuits (beatKey 3 beat0)).head? = some beat0) ∧
    (let s := plotted (fun x => { x with steers := [(31, steer31)], prom := { x.prom with steer := [(31, 0x80000000)] } });
      let x := (s.plot 0).steer 31;
      s.switchOf 0 = some 0 ∧ x.r = some 5 ∧ steerInputs ((s.plot 0).steerMode 31) = [0, 2] ∧ x.anyEmpty [0, 2] = false ∧
        x.stream = [] ∧ (steerOutputs ((s.plot 0).steerMode 31)).all (fun o => s.outRoom 0 (320 + 2 * 31 + o) != 0) = true ∧ (match x.outcome 2 0x80000000 with
          | .go _ _ => true
          | .fault _ => false) = true) ∧
    (let m : Merge := { Merge.start with cur := some ([0], 2, false), bufs := [[beat0], []] };
      let s := merged m;
      (tget? (s.plot 0).prom.merge 15).isSome = true ∧ ((s.plot 0).mergeUnit 15).cur ≠ none ∧
        (((s.plot 0).mergeUnit 15).stream (s.outRoom 0 399)).2 ≠ []) ∧
    (let h := mergeHeader 1 0 1 0 0 true;
      let s := merged { Merge.start with seq := some 0, bufs := [[h], [h]] };
      let x := (s.plot 0).mergeUnit 15;
      x.cur = none ∧ s.outRoom 0 399 ≠ 0 ∧ (x.buf 0).head? = some h ∧ (x.buf 1).head? = some h ∧
        (x.emit h h s.ns (s.outRoom 0 399)).2.1 ≠ []) ∧
    (let s := plotted (fun x => { x with
        steers := [(31, { steer31 with bufs := [[], [], [mkBeat 1 0 5 kTOKEN true false]] })]
        prom := { x.prom with steer := [(31, 0x80000000)] } });
      let t := (s.plot 0).steer 31;
      2 ∈ steerInputs ((s.plot 0).steerMode 31) ∧ t.buf 2 ≠ [] ∧ t.since + s.skewNs 0 413 382 3 2 ≤ s.ns ∧
        s.joinPaused 0 413 382 3 2 = false) ∧
    (let s := merged { Merge.start with seq := some 0, bufs := [[beat0], []] };
      let t := (s.plot 0).mergeUnit 15;
      t.cur = none ∧ [beat0] ∈ t.bufs ∧ t.since + s.skewNs 0 446 399 2 1 ≤ s.ns ∧ s.joinPaused 0 446 399 2 1 = false) := by
  decide +kernel

def job0 : Job :=
  { id := 9, launch := true, queue := 0, cmd := 0, failFast := false, marks := 0, tags := [], horizon := [], points := []
    recovered := false, ended := none, record := 0, aborted := false }

def allotted (f : Allot → Allot) : State := ready.modAllot 0 f

theorem witness_SectionsComplete :
    (let s := allotted (fun x => { x with sectionActive := true, jobs := [job0], sections := [1, 2] });
      s.sectionOver 0 = true ∧ (s.allot 0).sectionActive = true ∧ job0 ∈ (s.allot 0).jobs) ∧
    (let s := allotted (fun x => { x with sectionActive := true, jobs := [job0], sections := [1] });
      s.sectionOver 0 = true) := by
  decide +kernel

/-! ### Witnesses: the packet fabric and HBM -/

/-- The packet passes the path's checks to the receiver. -/
def reaches (s : State) (k : Packet) (r : Receiver) : Bool :=
  match s.passage k with
  | .to q => decide (q = r)
  | _ => false

def port0 : CellXY := { x := 31, y := 33 }

/-- A packet of a cell of plot 0 to cell 0. -/
def toC0 (t : Nat) (opq : BitVec 4) (payload : Nat) : Packet := mkPacket t (1, 2) (0, 2) 7 opq payload

theorem witness_PacketsComplete :
    (let k := toC0 1 0 (reqPayload (2 ^ 27 * 2) 64 0 false);
      let x := ready.rx (.cell c0);
      reaches ready k (.cell c0) ∧ k.reqQuery = false ∧ (ready.packetAllot k).getD 16 = 0 ∧ ready.resolve 0 k.reqAddress = .cell 0 0 ∧
        x.held = [] ∧ x.entryOf k.srcX k.srcY k.tag = none ∧ x.doneOf k.srcX k.srcY k.tag false = none ∧
        ready.answersFor (.cell c0) 0 (.cell 0 0) = true ∧
        ready.answerTo (.cell c0) (.cell 0 0) k.reqAddress k.reqLength 0 = .grant) ∧
    (let k := toC0 2 0 (reqPayload (2 ^ 27 * 2) 3145728 0 false);
      reaches ready k (.cell c0) ∧ (ready.rx (.cell c0)).reads = [] ∧ (ready.rx (.cell c0)).readQueue = [] ∧
        k.reqLength = 3145728 ∧ ready.answersFor (.cell c0) 0 (ready.resolve 0 k.reqAddress) = true) ∧
    (let k := toC0 2 0 (reqPayload (2 ^ 27 * 2) 1 0 false);
      k.reqLength = 1 ∧ ready.targetFits 0 (ready.resolve 0 k.reqAddress) k.reqLength = true ∧
        (match (ready.readAsk (.cell c0) (k.held 0)).2 with
          | .go => true
          | _ => false) = true) := by
  decide +kernel

def tx0 (phase : TxPhase) (first : Nat) : Tx :=
  { owner := .move 0 0, read := false, dstX := 1, dstY := 2, opq := 0, address := 0, source := 0, length := 64, phase := phase
    entry := 0, first := first, last := 0, fullAt := 0, counted := false }

theorem witness_PacketsComplete_transfers :
    (let s := ready.modRx (.cell c0) (fun z => { z with tx := [(7, tx0 .requested 0)] });
      let u := ready.modRx (.cell c0) (fun z => { z with tx := [(7, tx0 .sent 0)] });
      let k := toC0 3 0 (replyPayload 4095 64 0);
      reaches s k (.cell c0) ∧ k.opq = 0 ∧ (s.rx (.cell c0)).answered k = some (tx0 .requested 0) ∧
        reaches u (toC0 4 0 0) (.cell c0) ∧ (u.rx (.cell c0)).answered (toC0 4 0 0) = some (tx0 .sent 0)) ∧
    (let e : Landing := { srcX := 1, srcY := 2, tag := 9, base := BitVec.ofNat 64 (2 ^ 27 * 2), length := 96, landed := 0
                          count := 0, round := 0, since := 0, own := false, poison := false };
      let s := ready.modRx (.cell c0) (fun z => { z with entries := [(7, e)] });
      let k := toC0 0 0 0;
      reaches s k (.cell c0) ∧ k.tag = 7 ∧ e.srcX = k.srcX ∧ e.srcY = k.srcY ∧ k.framingBad e.length = false ∧
        e.landed.testBit k.seq.toNat = false ∧ e.count + 1 ≠ packetsOf e.length ∧
        s.waitsContext (s.rxAllot (.cell c0)) e.base.toNat = false) ∧
    (let k := mkPacket 5 (0, 2) (31, 33) 0 8 0;
      reaches ready k (.cell port0) ∧ k.opq = 8 ∧
        (port0.x.val % 64, port0.y.val % 68) = portCell (quadOf (port0.x.val % 64) (port0.y.val % 68))) ∧
    reaches ready (toC0 6 0 0) (.cell c0) := by
  decide +kernel

/-- A sender's transfer, at a time long after. -/
def sent0 (phase : TxPhase) (first : Nat) : State :=
  { ready.modRx (.cell c0) (fun z => { z with tx := [(4095, tx0 phase first)] }) with ns := 10 ^ 9 }

theorem witness_FabricEventsComplete :
    ((tget? ((sent0 .full 0).rx (.cell c0)).tx 4095).map (·.phase) = some .full ∧ 0 + fcycles 1024 ≤ (sent0 .full 0).ns) ∧
    (0 + (sent0 .requested 0).landingAt (.cell c0) ≤ (sent0 .requested 0).ns ∧ 0 + 4 * (sent0 .requested 0).landingAt (.cell c0) ≤ (sent0 .requested 0).ns ∧
      (sent0 .requested 999999999).ns < 999999999 + 4 * (sent0 .requested 999999999).landingAt (.cell c0)) ∧
    (0 + 2 * (sent0 .sent 0).landingAt (.cell c0) ≤ (sent0 .sent 0).ns ∧ (sent0 .sent 0).waitsContext ((sent0 .sent 0).rxAllot (.cell c0)) 0 = false) ∧
    (let e : Landing := { srcX := 1, srcY := 2, tag := 9, base := 0, length := 96, landed := 1, count := 1, round := 3, since := 0
                          own := false, poison := false };
      let s := { ready.modRx (.cell c0) (fun z => { z with entries := [(4095, e)] }) with ns := 10 ^ 9 };
      tget? (s.rx (.cell c0)).entries 4095 = some e ∧ e.since + s.landingAt (.cell c0) ≤ s.ns ∧ e.count ≠ packetsOf e.length ∧
        s.waitsContext (s.rxAllot (.cell c0)) e.base.toNat = false) ∧
    (let l := LinkId.segGate 7 3 15;
      let s := { ready with ns := 10 ^ 9 };
      linkExists l = true ∧ 10 ^ 9 + (s.link l).winStart ≤ s.ns ∧ (∀ k, l ≠ .stack k) ∧ 10 ^ 12 * ((s.link l).fails + 1) ≤ 10 ^ 12 ∧
        10 ^ 12 - 1 < 10 ^ 12 * ((s.link l).fails + 1) ∧ (s.link l).state = 0 ∧ fabricLink l = true ∧
        linkPlot (linkCanon l) = none ∧ l ≠ .spine) ∧
    (let l := LinkId.express 55 3 3;
      linkExists l = true ∧ (ready.link l).state ≠ 2 ∧ ((ready.modLink l (fun x => { x with state := 1 })).link l).state = 1) := by
  decide +kernel

/-- A GRANULE read of two lines of allotment 0 from plot 0's agent. -/
def granule0 : Packet := mkPacket 7 (0, 481) (0, 496) 7 0 (2 ^ 347)

def agent0 (retries : Nat) : AgentReq :=
  { tag := 4095, line := 0, lines := 1, write := false, allotment := 0, first := 0, final := 0, data := [], bad := [], got := []
    entry := none, retries := retries, since := 0 }

theorem witness_HbmCompletes :
    (granule0.ptype = 7 ∧ granule0.crcOk = true ∧ granule0.vc = 3 ∧ granule0.opq = 0 ∧ granule0.srcY = 481 ∧
      granule0.srcX.toNat < 56 ∧ ready.granuleAllowed 0 (granuleReq granule0 0) = true ∧ (granuleReq granule0 0).write = false ∧
      ready.granuleWaits (granuleReq granule0 0).seg granule0 = false) ∧
    (let s := { ready.modPlot 55 (fun x => { x with agent := [agent0 4] }) with ns := 200000 };
      (s.plot 55).agent.find? (fun q => q.tag == 4095) = some (agent0 4) ∧ (agent0 4).since + s.landingNs ≤ s.ns) ∧
    (let s := { ready.modPlot 55 (fun x => { x with agent := [agent0 3] }) with ns := 200000 };
      (s.plot 55).agent.find? (fun q => q.tag == 4095) = some (agent0 3) ∧ (agent0 3).since + s.landingNs ≤ s.ns) ∧
    ((ready.stack 23).state = 0 ∧ ((ready.stack 23).lineAt 23 (ready.stack 23).scrubPos).isSome = true ∧
      (ready.stack 23).scrubPos + 1 ≠ stackLines ∧ (ready.stack 23).pcMove = none ∧ tget? (ready.stack 23).pcMap 63 = none ∧
      ((ready.failPc 23 63).stack 23).state ≠ 2 ∧ ((ready.failPc 23 63).stack 23).pcReplacements < 4) ∧
    (let s := ready.modStack 23 (fun x => { x with scrubPos := 999999999, temperature := x.lastTrainTemp + 161 });
      ((s.stack 23).lineAt 23 (s.stack 23).scrubPos).isSome = true ∧ (s.stack 23).state = 0 ∧ (s.stack 23).needs = true ∧
        s.mayTrain 23 = true) ∧
    (let s := ready.modStack 23 (fun x => { x with state := 1, trained := true });
      (s.stack 23).state = 1 ∧ (s.stack 23).trained = true) ∧
    (let s := allotted (fun x => { x with enable := .opening, zeroed := false });
      (s.allot 0).enable = .opening ∧ (s.allot 0).zeroed = false) := by
  decide +kernel

/-- A GRANULE of plot 1, which belongs to no allotment, and one of plot 0 beyond its ranges. -/
theorem witness_GranuleDenied :
    (let k := mkPacket 7 (1, 481) (0, 496) 7 0 (2 ^ 346);
      k.ptype = 7 ∧ k.crcOk = true ∧ k.vc = 3 ∧ k.opq = 0 ∧ k.srcY = 481 ∧ k.srcX.toNat < 56 ∧
        ready.ownerOf 1 ≠ some (granuleReq k 0).allotment.toNat) ∧
    (let k := mkPacket 7 (0, 481) (0, 496) 7 0 (2 ^ 349 * 250000000);
      k.crcOk = true ∧ (granuleReq k 0).lines = 1 ∧ ready.lineOwned 0 ((granuleReq k 0).line.toNat + 0) = false) := by
  decide +kernel

/-! ### Witnesses: the Holcel ring, the dictionary and sessions -/

def session0 : Session :=
  { number := 1, station := 5, ka := [], kw := [], framesIn := 0, framesOut := 0, last := 0, claim := false, unlock := some (10 ^ 12) }

/-- The module Ready as station 3 with its relay open, a session of station 5, and a charged hold-up. -/
def ringed (f : Lodge → Lodge) : State := { ready.modLodge (fun l => f { l with
  relay := false, portA := true, portB := true, set := { l.set with station := 3 }, holdup := 30000, sessions := [session0] }) with
  ns := 10 ^ 11 }

def tech : Requester := .ring 5 1

/-- A request of station 5 to this module. -/
def asks (service param : Nat) (rsp : Bool) (d : List Byte) : HFrame := { frame0 with
  dst := 3, src := 5, service := BitVec.ofNat 4 service, param := BitVec.ofNat 16 param, rsp := rsp
  length := BitVec.ofNat 11 d.length, payload := d }

/-- The frame is delivered, and the state after its arrival passes a test. -/
def arrived (s : State) (f : HFrame) (test : State → Bool) : Bool := match s.arrive f with
  | (d, t) => d && test t

def delivers (f : HFrame) : Bool := arrived (ringed id) f (fun _ => true)

def transfer0 : Transfer :=
  { reader := .station 5, write := true, index := 0x7F00, sub := 1, block := false, total := 8, segments := [], since := 0 }

def waiting0 (n : Nat) : Waiting :=
  { event := { time := 0, value := 0, index := 0, sub := 0, allotment := 31, code := 9 }, seq := 4, attempts := n, sent := 0 }

theorem witness_RingServicesComplete :
    delivers (asks 0 0 false []) ∧ delivers (asks 1 0 false []) ∧ delivers (asks 2 0 false []) ∧
    delivers { asks 3 0 false [] with session := 9, tag := List.replicate 16 0 } ∧ delivers (asks 9 0 false []) ∧
    delivers (asks 4 0 false []) ∧
    (let s := ringed (fun l => { l with set := { l.set with eventStation := 5 } });
      let f := asks 5 0 true [];
      (s.arrive f).1 = true ∧ f.src.toNat = (s.arrive f).2.lodge.set.eventStation.toNat) ∧
    (let s := ringed (fun l => { l with transfers := [transfer0] });
      transfer0 ∈ s.lodge.transfers ∧ transfer0.reader = .station (5 : BitVec 7).toNat ∧ 10 ^ 8 + transfer0.since ≤ s.ns) ∧
    (let s := ringed (fun l => { l with events := [waiting0 9] });
      s.lodge.events.find? (fun e => e.seq == 4) = some (waiting0 9) ∧ 10 ^ 8 + (waiting0 9).sent ≤ s.ns) ∧
    (let s := ringed (fun l => { l with events := [waiting0 10] });
      s.lodge.events.find? (fun e => e.seq == 4) = some (waiting0 10) ∧ 10 ≤ (waiting0 10).attempts) := by
  decide +kernel

/-- The tag of a frame with the keys of a session has 16 bytes. -/
theorem mac_length (f : HFrame) (ka : List Byte) : (f.mac ka).length = 16 := by
  have hn : ∀ n v, (natLE n v).length = n := fun n => by
    induction n with
    | zero => exact fun _ => rfl
    | succ n ih => exact fun v => by simp [natLE, ih]
  simp only [HFrame.mac, kmac256, sponge, squeeze, List.length_take, List.append_nil, List.length_flatten, List.map_map,
    Function.comp_def, hn, List.map_const', List.length_range, List.sum_replicate_nat]
  rfl

/-- The frame with its tag in session 1. -/
def tagged (f : HFrame) : HFrame := { f with session := 1, tag := ({ f with session := 1 } : HFrame).mac session0.ka }

/-- All but the tag lets the frame arrive in session 1. -/
def passes (s : State) (f : HFrame) : Bool :=
  !s.lodge.relay && s.lodge.booted && f.fcsOk && f.macDst == 0xFFFFFFFFFFFF && !f.vlan && f.ethertype == 0x88B6 &&
  f.payload.length == f.length.toNat && decide (f.payload.length ≤ 1024) && f.version == 1 &&
  s.lodge.here == some f.dst.toNat && !s.lodge.sent f && !s.lodge.seen.contains (f.src, f.seq) &&
  decide (s.lodge.sessions = [session0]) && f.src == session0.station && session0.live s.ns

/-- The state after it. -/
def received (s : State) (f : HFrame) : State := s.modLodge (fun l => { l with
  seen := noteSeen l.seen f.src f.seq
  sessions := l.sessions.map (fun y =>
    if y.number = session0.number then { y with framesIn := y.framesIn + 1, last := s.ns } else y) })

theorem tagged_arrives (s : State) (f : HFrame) (h : passes s f = true) : s.arrive (tagged f) = (true, received s f) := by
  simp only [passes, Bool.and_eq_true, Bool.not_eq_true', beq_iff_eq, decide_eq_true_eq] at h
  obtain ⟨⟨⟨⟨⟨⟨⟨⟨⟨⟨⟨⟨⟨⟨h1, h2⟩, h3⟩, h4⟩, h5⟩, h6⟩, h7⟩, h8⟩, h9⟩, h10⟩, h11⟩, h12⟩, h13⟩, h14⟩, h15⟩ := h
  have hw : (tagged f).wf = true := by simp [HFrame.wf, tagged, mac_length, h4, h5, h6, h7, h7 ▸ h8]
  have hs : s.lodge.sent (tagged f) = false := h11
  have ht : (tagged f).tag = (tagged f).mac session0.ka := rfl
  have hf : s.lodge.sessions.find? (fun x => x.number == (tagged f).session && x.station == (tagged f).src && (tagged f).session != 0) =
      some session0 := by rw [h13]; simp [tagged, session0, h14]
  unfold State.arrive State.arriveAs
  simp only [hw, hs, hf, ← ht]
  simp [tagged, received, h1, h2, h3, h9, h10, h15, show (f.src, f.seq) ∉ s.lodge.seen by simpa using h12]

theorem witness_RingServicesComplete_abort :
    let f := tagged (asks 8 0 false [])
    ((ringed id).arrive f).1 = true ∧ ((ringed id).arrive f).2.lodge.set.station ≠ 0x7E ∧
      (((ringed id).arrive f).2.sessionOf (ringFrom f)).isSome = true := by
  intro f
  rw [tagged_arrives _ _ (by decide +kernel)]
  exact ⟨rfl, by decide +kernel, by decide +kernel⟩

theorem witness_RingTimeCompletes :
    (let s := ringed (fun l => { l with relay := true });
      s.lodge.booted = true ∧ s.lodge.portA = true ∧ s.lodge.portB = true ∧ s.lodge.watchdogFired = false ∧ s.lodge.relay = true) ∧
    (let s := ringed id;
      s.lodge.relay = false ∧ max 7 s.lodge.watchdogFrom + 1000000 * s.lodge.set.watchdog.toNat ≤ s.ns) ∧
    isSync (asks 6 0 false []) = true ∧
    ((ringed id).arriveAs (asks 6 0 false []) { asks 6 0 false [] with payload := natLE 8 7 }).1 = true ∧
    isSync (asks 15 0 false []) = false ∧ delivers (asks 15 0 false []) ∧ delivers (asks 6 1 false []) ∧
    ((ringed id).arrive (asks 6 1 false [])).2.lodge.set.station ≠ 0x7E ∧
    (let f := { asks 6 1 false [] with src := 3, dst := 9 };
      let s := ringed id;
      s.lodge.sent f = true ∧ s.lodge.here.isSome = true ∧ s.lodge.booted = true ∧ s.lodge.relay = false ∧
        (s.lodge.link f.onB).asked = none) ∧
    (let s := ringed (fun l => { l with linkB := { l.linkB with req := some (0, 7) } });
      let f := asks 6 1 true [];
      (s.arrive f).1 = true ∧ ((s.arrive f).2.lodge.link true).req = some (f.seq, 7) ∧ ((s.arrive f).2.lodge.link false).req = none) ∧
    (asks 15 0 false []).wf = true ∧ ((ringed id).arrive { asks 15 0 false [] with dst := 9 }).1 = false ∧
    (let s := ringed (fun l => { l with set := { l.set with station := 0x7E } });
      let f := { asks 3 0 false (natLE 8 0 ++ [63]) with dst := 0x7F, index := 0x1100, sub := 2 };
      f.wf = true ∧ (s.arrive f).1 = true ∧ (s.arrive f).2.assigned f.payload = true) ∧
    (let s := ringed (fun l => { l with timeMaster := 3, timeLocked := true, syncSent := some 1 });
      s.lodge.booted = true ∧ s.lodge.relay = false ∧ s.lodge.timeMaster = s.lodge.set.station ∧
        1 + 1000000 * s.lodge.syncInterval.toNat ≤ s.ns ∧ s.lodge.timeLocked = true ∧
        10 ^ 10 + s.lodge.lastSync ≤ s.ns) := by
  decide +kernel

theorem witness_ObjectWriteCompletes :
    (ringed id).writeCheck tech 0x2000 2 1 = 0 ∧ (ringed id).writeCheck (.ring 5 0) 0x2000 2 1 ≠ 0 := by
  decide +kernel

/-- The objects of a list, each with its length, pass the check of a write. -/
def writable (s : State) (l : List (Nat × Nat × Nat)) : Bool := l.all (fun e => s.writeCheck tech e.1 e.2.1 e.2.2 == 0)

theorem witness_EnablesComplete :
    writable (ringed id) [(0x2000, 1, 1), (0x2400, 1, 1), (0x240F, 1, 1), (0x2100, 1, 1), (0x2137, 1, 1), (0x2200, 2, 1),
      (0x22DF, 2, 1), (0x2500, 1, 1), (0x2503, 1, 1), (0x2510, 2, 1), (0x251F, 2, 1)] ∧
    (ringed id).lodge.moduleState = 3 ∧ (List.range 16).all (fun a => ((ringed id).allot a).jobs.isEmpty) = true ∧
    (ringed id).lodge.computeReset = false ∧ ((ringed id).plot 55).enable = .open_ ∧ (ringed id).shuffleIn 55 = false ∧
    ((ringed id).pav 223).enable = .open_ ∧ ((ringed id).hostPort 3).enable = .open_ ∧ ((ringed id).srv 15).enable = .closed ∧
    (let s := (ringed (fun l => { l with moduleState := 1 })).modAllot 0 (fun x => { x with enable := .closed });
      writable s [(0x2000, 1, 1)] ∧ s.lodge.moduleState = 1 ∧ s.anyLive = false) ∧
    (let s := ((((ringed id).modPlot 55 (fun x => { x with enable := .closed })).modPav 0 (fun x => { x with enable := .closed })).modHost 3
        (fun x => { x with enable := .closed })).modSrv 15 (fun x => { x with enable := .open_ });
      (s.plot 55).enable = .closed ∧ (s.pav 0).enable = .closed ∧ (s.pav 0).role ≠ .retired ∧ (s.hostPort 3).enable = .closed ∧
        (s.srv 15).enable = .open_) := by
  decide +kernel

theorem witness_SettingsComplete :
    writable (ringed id) [(0x2200, 9, 8), (0x22DF, 9, 8), (0x2400, 13, 1), (0x2400, 7, 1), (0x2400, 10, 2), (0x3000, 1, 4),
      (0x403F, 6, 1), (0x5080, 2, 4), (0x5080, 5, 1)] ∧ writable (ringed (fun l => { l with moduleState := 1 })) [(0x4000, 3, 1)] ∧
    (ringed id).directOk ((ringed id).allot 0).plots = true ∧ ((ringed id).allot 0).launchJob = none ∧ (ringed id).slotInUse 63 = false := by
  decide +kernel

def record0 : ErrRec := { ErrRec.base with number := 5 }

theorem witness_ReadsComplete :
    (ringed id).readCheck tech 0x1100 9 = 0 ∧ clearsOnRead 0x1100 9 = true ∧ clearsOnRead 0x2617 5 = true ∧
    (ringed id).readCheck tech 0x5080 3 = 0 ∧ (ringed id).readCheck tech 0x5080 4 = 0 ∧ (ringed id).readCheck tech 0x6000 2 = 0 ∧
    (let s := ringed (fun l => { l with log := [record0] });
      (s.recordsFor (s.readerOf tech)).find? (fun e => e.1 == s.readPos (s.readerOf tech)) = some (5, record0)) ∧
    (let s := ringed (fun l => { l with nonces := [(.station 5, [1])] });
      s.lodge.nonces.find? (fun e => e.1 == s.readerOf tech) = some (.station 5, [1])) := by
  decide +kernel

/-- A Lodge firmware image of 1 byte, with a trailer of role 0. -/
def firmware0 : List Byte := [7] ++ List.replicate 4093 0 ++ [1, 0x53, 0x1C]

/-- The image verifies if the vendor key of its identifier verifies its signature (both free values, log 15). -/
theorem witness_ImagesComplete_firmware (k : List Byte)
    (hk : Config.vendorKey 0 (bslice (firmware0.drop 1) 4052 32) = some k)
    (hv : Config.mlDsaVerify (roleContext 0) k (firmware0.take 1 ++ bslice (firmware0.drop 1) 4052 44)
      (bslice (firmware0.drop 1) 743 3309) = true) :
    trailerOk 0 [] firmware0 = true ∧ firmware0.length ≤ 8 * 2 ^ 20 := by
  have hl : firmware0.length - 4096 = 1 := by decide +kernel
  have hb : (decide (4096 ≤ firmware0.length) && bits (leNat (firmware0.drop 1)) 32767 32752 == 0x1C53 &&
      bits (leNat (firmware0.drop 1)) 32751 32744 == 1 && bits (leNat (firmware0.drop 1)) 32743 32736 == 0 &&
      bits (leNat (firmware0.drop 1)) 32727 32704 == 0 && bits (leNat (firmware0.drop 1)) 5943 0 == 0 &&
      bits (leNat (firmware0.drop 1)) 32735 32728 == 0) = true := by decide +kernel
  refine ⟨?_, by decide +kernel⟩
  simp only [trailerOk, hl]
  simp only [Bool.and_eq_true] at hb
  simp_all

/-- A drill package of serial 1, with a trailer of role 1. -/
def package0 : List Byte :=
  natLE 32 (2 ^ 240 * 0x1C5D + 2 ^ 232 + 2 ^ 200 + 2 ^ 152) ++ List.replicate 4092 0 ++ [1, 1, 0x53, 0x1C]

/-- It is taken if the vendor key of its identifier verifies its signature. -/
theorem witness_ImagesComplete_package (k : List Byte)
    (hk : Config.vendorKey 1 (bslice (package0.drop 32) 4052 32) = some k)
    (hv : Config.mlDsaVerify (roleContext 1) k (package0.take 32 ++ bslice (package0.drop 32) 4052 44)
      (bslice (package0.drop 32) 743 3309) = true) :
    let s := ringed (fun l => { l with drillNew := some package0 })
    s.lodge.drillNew = some package0 ∧ (packageHead package0).1 = true ∧ trailerOk 1 [] package0 = true ∧
      (∀ x, s.lodge.drill = some x → x.serial.toNat < (packageHead package0).2.1) ∧ 1 ≤ (packageHead package0).2.1 ∧
      (packageHead package0).2.2 ≤ s.lodge.fw.version.toNat := by
  have hl : package0.length - 4096 = 32 := by decide +kernel
  have hb : (decide (4096 ≤ package0.length) && bits (leNat (package0.drop 32)) 32767 32752 == 0x1C53 &&
      bits (leNat (package0.drop 32)) 32751 32744 == 1 && bits (leNat (package0.drop 32)) 32743 32736 == 1 &&
      bits (leNat (package0.drop 32)) 32727 32704 == 0 && bits (leNat (package0.drop 32)) 5943 0 == 0 &&
      bits (leNat (package0.drop 32)) 32735 32728 == 0 && bits (leNat (package0.drop 32)) 32703 32672 == 0) = true := by
    decide +kernel
  have hd : (ringed (fun l => { l with drillNew := some package0 })).lodge.drill = none := by decide +kernel
  refine ⟨rfl, by decide +kernel, ?_, fun x hx => by simp [hd] at hx, by decide +kernel, by decide +kernel⟩
  simp only [trailerOk, hl]
  simp only [Bool.and_eq_true] at hb
  simp_all

/-- A base image with one chunk, the parcel header of a parcel on plot 0. -/
def base0 : List Byte :=
  natLE 128 (2 ^ 944) ++ natLE 16 (2 ^ 120 + 2 ^ 64 * 192 + 2 ^ 32 * 12) ++ List.replicate 48 0 ++ natLE 12 1

theorem witness_ImagesComplete :
    writable (ringed id) [(0x6000, 1, 32), (0x6000, 5, 4096), (0x7F00, 1, 4097)] ∧ (ringed id).holdupLow = false ∧
    (let s := ringed (fun l => { l with images := [(63, { content := [], status := 1, writer := none })], drillNew := some [] });
      (s.image 63).status = 1 ∧ s.lodge.flashJobs.any (fun j => j.region == .images && j.slot == 63) = false ∧
        s.lodge.drillNew = some [] ∧ trailerOk 1 [] [] = false) ∧
    (let s := (allotted (fun x => { x with redealDue := true })).modLodge (fun l => { l with
        set := { l.set with activeBase := 1 }, images := [(1, { content := base0, status := 2, writer := none })] });
      (s.allot 0).enable = .open_ ∧ (s.allot 0).redealDue = true ∧ (s.allot 0).jobs = [] ∧ (s.allot 0).dealing = false ∧
        (s.parcelFor 0).isSome = true) := by
  decide +kernel

theorem witness_AllotmentStepsComplete :
    (let s := ready.modAllot 15 (fun x => { x with enable := .opening, plots := 2 ^ 55 });
      (s.allot 15).enable = .opening ∧ (s.allot 15).pendOpen = false) ∧
    (let s := (ready.modPlot 55 (fun x => { x with owner := some 15 })).modAllot 15 (fun x => { x with
        enable := .opening, plots := 2 ^ 55, zeroed := true });
      (s.allot 15).enable = .opening ∧ (s.allot 15).pendOpen = false ∧ (plotsIn (s.allot 15).plots).all (fun p => s.ownerOf p == some 15) = true ∧
        (s.allot 15).zeroed = true ∧ (s.allot 15).claims = 0 ∧ s.parcelFor 15 = none) ∧
    (let s := ready.modAllot 15 (fun x => { x with enable := .closing, plots := 2 ^ 55 });
      (s.allot 15).enable = .closing ∧ (s.allot 15).closeDue = false ∧ s.closedOut 15 = true ∧
        (plotsIn (s.allot 15).plots).all (fun p => s.ownerOf p != some 15 && !(s.plot p).scrubbing) = true) := by
  decide +kernel

def owners0 : List (List Byte) := [List.replicate 1952 1]

def handshake0 : Handshake :=
  { station := 5, key := 0, pub := List.replicate 1952 1, draw := 0, nr := [], number := 7, nm := [], ek := [], transcript := [], since := 0 }

/-- The last fragment, of number k, of session step n from station 5. -/
def stepFrame (n k : Nat) (d : List Byte) : HFrame := asks 7 (256 * n + k) false d

/-- What has come of a step in k fragments of 1,024 bytes. -/
def stepIn0 (n k : Nat) (session : BitVec 16) : StepIn :=
  { station := 5, session := session, step := n, next := k, data := List.replicate (1024 * k) 0, since := 0 }

/-- The delivered frame is the last of a step whose earlier fragments have come before the state after it, n bytes in all. -/
def lastOf (t : State) (step k n : Nat) (f : HFrame) (auth : Bool) : Bool :=
  f.service == 7 && !f.rsp && decide (f.payload.length < 1024) && bits f.param.toNat 7 0 == k && bits f.param.toNat 15 8 == step &&
    1024 * k + f.payload.length == n && t.lodge.set.station != 0x7E && t.authentic f == auth && (k == 0 ||
      decide ((t.lodge.stepsIn.find? (fun x => x.station == f.src && x.session == f.session && x.step == step)).map (·.next) = some k))

theorem witness_SessionsComplete :
    (let s := ringed (fun l => { l with sec := { l.sec with owners := owners0 }, sessions := List.replicate 7 session0 });
      let f := stepFrame 1 0 (List.replicate 33 0);
      (s.arrive f).1 = true ∧ lastOf (s.arrive f).2 1 0 33 f false ∧ s.hasIdentity = true ∧
        s.lodge.sessions.length + (s.lodge.handshakes.filter (fun h => h.station != 5)).length < 8 ∧ f.payload.head? ≠ some 0xFF ∧
        (s.lodge.sec.owners[((f.payload.head?).getD 0).toNat]?).isSome = true) ∧
    (let s := ringed (fun l => { l with handshakes := [handshake0], stepsIn := [stepIn0 3 4 0] });
      let f := stepFrame 3 4 (List.replicate 301 0);
      (s.arrive f).1 = true ∧ lastOf (s.arrive f).2 3 4 4397 f false ∧
        s.lodge.handshakes.find? (fun h => h.station == 5) = some handshake0 ∧ handshake0.key ≠ 0xFF) ∧
    (let s := { ringed id with ns := 600 * 10 ^ 9 };
      (s.session 1).isSome = true ∧ 600 * 10 ^ 9 + session0.last ≤ s.ns) := by
  decide +kernel

/-- The frame arrives in session 1 as the last of a step. -/
theorem witness_step {s : State} {f : HFrame} {step k n : Nat} (h : passes s f = true)
    (hl : lastOf (received s f) step k n (tagged f) true = true) :
    (s.arrive (tagged f)).1 = true ∧ lastOf (s.arrive (tagged f)).2 step k n (tagged f) true = true := by
  rw [tagged_arrives s f h]
  exact ⟨rfl, hl⟩

def keyed : State := (ringed id).modAllot 0 (fun x => { x with wkeys := [(1, [])] })

def owned : State := ringed (fun l => { l with sec := { l.sec with owners := owners0 }, stepsIn := [stepIn0 0x30 5 1] })

theorem witness_SessionsComplete_steps :
    (let f := tagged (stepFrame 0x10 0 []);
      ((ringed id).arrive f).1 = true ∧ lastOf ((ringed id).arrive f).2 0x10 0 0 f true = true) ∧
    (let f := tagged (stepFrame 0x20 0 (natLE 5 256 ++ List.replicate 40 0));
      ((ringed id).arrive f).1 = true ∧ lastOf ((ringed id).arrive f).2 0x20 0 45 f true = true) ∧
    (let f := tagged (stepFrame 0x21 0 (natLE 5 256));
      (keyed.arrive f).1 = true ∧ lastOf (keyed.arrive f).2 0x21 0 5 f true = true) ∧
    (let f := tagged (stepFrame 0x30 5 (List.replicate 141 0));
      (owned.arrive f).1 = true ∧ lastOf (owned.arrive f).2 0x30 5 (1952 + 3309) f true = true) :=
  ⟨witness_step (by decide +kernel) (by decide +kernel), witness_step (by decide +kernel) (by decide +kernel),
    witness_step (by decide +kernel) (by decide +kernel), witness_step (by decide +kernel) (by decide +kernel)⟩

/-- The signatures of the ACCEPT and of the owner keys, and the unwrapping of the key, are free values (log 15). -/
theorem witness_SessionsComplete_keys :
    session0.claim = false ∧ ((ringed id).allot 0).enable = .open_ ∧ ((ringed id).allot 0).wkeys = [] ∧
    (keyed.allot 0).wkeys.any (fun k => k.1 == 1) = true ∧ (List.range 16).all (fun m => (keyed.srv m).windows.isEmpty) = true ∧
    owners0.length = 1 ∧ owned.holdupLow = false := by
  decide +kernel

/-! ### Witnesses: host ports and commands -/

/-- Function 0 of host port 0, allotment 0's, with its link up. -/
def hosted (f : Fn → Fn) : State :=
  (ready.modHost 0 (fun x => { x with linkUp := true })).modFn 0 0 (fun x => f { x with bar4 := 20 })

theorem witness_PcieCompletes :
    ((hosted id).hostPort 0).linkUp = true ∧ ((hosted id).hostPort 0).ide = true ∧
    ((ready.modHost 3 (fun x => { x with perst := true })).hostPort 3).perst = true ∧
    (let s := ready.modSeg 7 (fun x => { x with dom := domOn });
      s.lodge.portsTrain = true ∧ (s.seg (2 * 3 + 1)).dom.on = true ∧ (s.hostPort 3).perst = false ∧ (s.hostPort 3).enable = .open_ ∧
        (s.hostPort 3).linkUp = false) := by
  decide +kernel

/-- What a BAR4 access of n bytes at offset o reaches: 0 nothing, 1 HBM, 2 a garden, 3 a stage. -/
def reach4 (s : State) (o n : Nat) (write : Bool) : Nat :=
  match s.bar4Target 0 0 o n write with
  | .outside => 0
  | .hbm _ => 1
  | .garden _ _ => 2
  | .stage _ _ => 3

theorem witness_HostAccessCompletes :
    (hosted id).fnUp 0 0 = true ∧ (0x80000000 : BitVec 32).getLsbD 31 = true ∧ (0x80000000 : BitVec 32).getLsbD 30 = false ∧
    (0xC0000000 : BitVec 32).getLsbD 30 = true ∧ reach4 (hosted id) 0xFFFC0 64 true = 1 ∧ reach4 (hosted id) 0xFFFC0 65 true = 0 ∧
    (let s := hosted (fun x => { x with w4ctrl := 1 });
      reach4 s 0 8 false = 2 ∧ reach4 s 0 4096 true = 2 ∧ (s.localGet 0 false 0 8).1.2 = false) := by
  decide +kernel

/-- A submission entry: opcode and operands a0–a3. -/
def entryOf (op a0 a1 a2 a3 : Nat) : BitVec 512 :=
  BitVec.ofNat 512 (2 ^ 504 * op + 2 ^ 384 * a0 + 2 ^ 320 * a1 + 2 ^ 256 * a2 + 2 ^ 192 * a3)

def cmdOf (e : BitVec 512) (st : CmdState) : Cmd :=
  { id := 3, entry := e, state := st, sqhead := 0, recovered := false, record := 0, poisoned := false, position := 0, started := 0
    waits := none, written := false }

def queue0 : Queue := { Queue.built with size := 0x606, state := .open_, sqTail := 1 }

def queued (cs : List Cmd) (q : Nat) : State :=
  { (hosted id).modAllot 0 (fun x => { x with queues := [(q, { queue0 with cmds := cs })] }) with ns := 10 ^ 12 }

theorem witness_QueuesComplete :
    (hosted id).openFn 0 0 = some 0 ∧ (hosted id).fnUp 0 0 = true ∧ (hosted id).lodge.isReady = true ∧
    (hosted id).selQueue 0 0 = some (0, 0) ∧ (queued [] 511).bellQueue 0 0 511 = some 0 ∧
    (queued [] 511).lodge.moduleState = 3 ∧ (((queued [] 511).allot 0).queue 511).fetchable = true ∧
    (cmdOf (entryOf 1 1 0 64 0) .fetched).known = true ∧
    (let s := (queued [] 511).modQueue 0 511 (fun x => { x with uncoalesced := 1, coal := 0xFFFF0002 });
      ((s.allot 0).queue 511).uncoalesced ≠ 0 ∧
        ((s.allot 0).queue 511).firstAt + 1000 * bits ((s.allot 0).queue 511).coal.toNat 31 16 ≤ s.ns) ∧
    (let s := (hosted (fun x => { x with evqCtrl := 0x80000006, evqTail := 62 })).modAllot 0 (fun x => { x with
        evq := [(waiting0 0).event] });
      (s.allot 0).evq = [(waiting0 0).event] ∧ (s.fn 0 0).evqOn = true ∧
        ((s.fn 0 0).evqTail + 1) % (s.fn 0 0).evqLen ≠ (s.fn 0 0).evqHead.toNat % (s.fn 0 0).evqLen) := by
  decide +kernel

/-- Queue 7 holds the entry as the next that may start. -/
def starts (s : State) (e : BitVec 512) : Bool :=
  (s.allot 0).enable == .open_ && s.lodge.isReady && decide (((s.allot 0).queue 7).startable = some (cmdOf e .fetched)) &&
    s.lodge.moduleState == 3

def fetched (op a0 a1 a2 a3 : Nat) : State := queued [cmdOf (entryOf op a0 a1 a2 a3) .fetched] 7

def window0 : Window :=
  { closing := false, since := 0, gen := 1, allotment := 0, space := 1, base := 0, length := 4096, dir := 3, auth := false, key := 0
    binding := some (5, 9), completed := 0, last := [], rxHigh := 0, rxSeen := [], txHigh := 0, held := none, closers := [] }

theorem witness_CommandsComplete :
    (let s := (fetched 1 1 0 65536 0).modAllot 0 (fun x => { x with parcel := some (0, 0) });
      starts s (entryOf 1 1 0 65536 0) ∧ s.hbmFits 0 0 65536 = true ∧ (s.allot 0).job 1 = none ∧ (s.allot 0).launchJob = none ∧
        (s.allot 0).redealDue = false ∧ (s.allot 0).dealing = false ∧ s.launchable 0 = true) ∧
    starts (fetched 3 0 0 0 0) (entryOf 3 0 0 0 0) ∧ starts (fetched 5 0 0 0 0) (entryOf 5 0 0 0 0) ∧
    starts (fetched 6 0 0 0 0) (entryOf 6 0 0 0 0) ∧ starts (fetched 7 0 0 0 0) (entryOf 7 0 0 0 0) ∧
    starts (fetched 8 1 63 1 0) (entryOf 8 1 63 1 0) ∧
    (let s := (fetched 4 (2 ^ 24 + 2 ^ 20 * 15) 0 0 0).modSrv 15 (fun x => { x with windows := [(0, window0)] });
      starts s (entryOf 4 (2 ^ 24 + 2 ^ 20 * 15) 0 0 0) ∧ s.windowOf (2 ^ 24 + 2 ^ 20 * 15) = some (15, 0, window0)) ∧
    (let s := fetched 8 0 (2 ^ 8 * 15 + 3) 1 0;
      starts s (entryOf 8 0 (2 ^ 8 * 15 + 3) 1 0) ∧ s.allotOfPav 3 = some 0 ∧ (s.pav 3).role ≠ .reserve) ∧
    (let s := (fetched 10 (2 ^ 32 + 0x7060) 0 0 0).modLodge (fun l => { l with progress := [(0x60, { Progress.idle with subject := 0x2400 })] });
      starts s (entryOf 10 (2 ^ 32 + 0x7060) 0 0 0) ∧ s.mailView (s.portOf 0).val (s.pfOf 0).val 0x7060 1 false = 0) ∧
    (let s := (fetched 11 9 0 0 0).modAllot 0 (fun x => { x with jobs := [job0] });
      starts s (entryOf 11 9 0 0 0) ∧ (s.allot 0).job 9 = some job0 ∧ job0.launch = true) := by
  decide +kernel

theorem witness_CommandEventsComplete :
    (let c := cmdOf (entryOf 2 0 64 (2 ^ 40 * 0x11 + 64) 0) .running;
      let s := queued [c] 7;
      ((s.allot 0).queue 7).cmds = [c] ∧ c.op = 2 ∧ bits c.a2 43 40 = 1 ∧ (s.copyPlace 0 1 c.a0 64 false).1 = 0 ∧
        (s.copyPlace 0 1 c.a1 64 true).1 = 0 ∧ s.placeFenced 0 (s.copyPlace 0 1 c.a1 64 true).2 = false ∧
        s.copyBlocked 0 (s.copyPlace 0 1 c.a0 64 false).2 (s.copyPlace 0 1 c.a1 64 true).2 64 = false ∧
        (match (s.copyAsk 0 (s.copyPlace 0 1 c.a1 64 true).2 64).2 with
          | .broken _ => false
          | _ => true) = true ∧
        (match (s.saveCopy 0 (s.copyPlace 0 1 c.a0 64 false).2 (s.copyPlace 0 1 c.a1 64 true).2 64).1 with
          | .nothing => true
          | _ => false) = true) ∧
    (let c := cmdOf (entryOf 9 0 65 63 0) .running;
      let s := (queued [c] 7).modLodge (fun l => { l with holdup := 30000 });
      ((s.allot 0).queue 7).cmds = [c] ∧ c.op = 9 ∧ s.imageFits 63 65 = true ∧ (s.image 63).status = 0 ∧ s.holdupLow = false) ∧
    (let j : Job := { job0 with ended := some 0 };
      let s := allotted (fun x => { x with jobs := [j] });
      (s.allot 0).job 9 = some j ∧ j.record ≠ pendingRecord ∧ (s.holdersOf 0).all s.settled = true) ∧
    (let c := cmdOf (entryOf 7 0 0 0 (10 ^ 12)) .waiting;
      let s := queued [c] 7;
      ((s.allot 0).queue 7).cmds = [c] ∧ c.op = 7 ∧ c.a3 ≠ 0 ∧ c.started + c.a3 ≤ s.ns) ∧
    (let p : Progress := { Progress.idle with owner := some (0, 0, 0), state := 2 };
      let s := (queued [] 7).modLodge (fun l => { l with progress := [(255, p)] });
      (tget Progress.idle s.lodge.progress (0x60 + 159)).owner.isSome = true ∧ p.state ≠ 1 ∧ 10 ^ 9 + p.ended ≤ s.ns) := by
  decide +kernel

/-! ### Witnesses: server ports -/

def srv0 : SrvPort := { SrvPort.built 0 15 with enable := .open_, linkUp := true, windows := [(0, window0)] }

/-- Server port 15 of allotment 0, with a window of 4,096 bytes. -/
def served (f : SrvPort → SrvPort) : State :=
  { (allotted (fun x => { x with serverPorts := 0x8000 })).setSrv 15 (f srv0) with ns := 10 ^ 10 }

/-- A frame of peer 5 for the window. -/
def tf (ty len bytes : Nat) (d : List Byte) : TFrame := { tframe0 with
  ftype := BitVec.ofNat 4 ty, handle := BitVec.ofNat 32 (window0.handle 15 0), xid := 6, length := BitVec.ofNat 32 len
  bytes := BitVec.ofNat 16 bytes, flags := 1, data := d }

def accepts (r : Frame) : Bool := match r with
  | .accept 0 w => decide (w = window0)
  | _ => false

/-- The frame is accepted, of a transfer that has completed. -/
def completed (r : Frame) (f : TFrame) : Bool := match r with
  | .accept 0 w => w.last.contains (f.peer, f.xid)
  | _ => false

def incoming0 (round : Nat) : Incoming :=
  { peer := 5, xid := 6, handle := BitVec.ofNat 32 (window0.handle 15 0), offset := 0, length := 64, landed := 0, count := 0
    round := round, since := 0, tagWait := false, waiting := [] }

def outgoing0 (rounds : Nat) (busy : Option Nat) : Outgoing :=
  { push := false, peer := 5, xid := 6, entry := 0, handle := BitVec.ofNat 32 (window0.handle 15 0), offset := 0, length := 64
    rounds := rounds, since := 0, busySince := busy, busy := busy.isSome, wait := false }

/-- The check of R409 of a WRITE frame of 64 bytes. -/
def checked64 (s : State) (f : TFrame) : Frame := s.checkFrame 15 f 0 0 64 (s.writeShape 15 f) (s.seenWrite 15 f)

theorem witness_TransportCompletes :
    (let f := tf 1 64 64 (List.replicate 64 7);
      f.split = f ∧ f.isA 1 = true ∧ f.offset = 0 ∧ f.length = 64 ∧
        completed (checked64 (served (fun x => { x with windows := [(0, { window0 with last := [(5, 6)] })] })) f) f ∧
        (let s := served (fun x => { x with incoming := [incoming0 0] });
          accepts (checked64 s f) ∧ (s.srv 15).incoming.find? (fun j => j.is f) = some (incoming0 0) ∧
            (incoming0 0).tagWait = false ∧ s.windowWaits window0 = false) ∧
        accepts (checked64 (served id) f) ∧ (served id).windowBroken window0 0 64 = none ∧
        (served id).incomingBlocked window0 0 64 = false ∧ (served id).windowTags window0 0 64 = none) ∧
    (let f := tf 1 64 64 (List.replicate 64 7);
      let w := { window0 with space := 2 };
      let s := (served (fun x => { x with windows := [(0, w)] })).modPav 0 (fun v => { v with fullEmpty := true });
      (s.windowTags w 0 64).isSome = true ∧ s.windowBroken w 0 64 = none ∧ s.incomingBlocked w 0 64 = false ∧ s.windowWaits w = false ∧
        w.last.contains (f.peer, f.xid) = false ∧ (s.srv 15).incoming = []) ∧
    (let f := tf 2 64 0 [];
      f.split = f ∧ f.isA 2 = true ∧ accepts ((served id).checkFrame 15 f 1 0 64 (f.data.isEmpty && f.bytes == 0) false)) ∧
    (let f := tf 7 0 4 [1, 0, 0, 0];
      f.split = f ∧ f.isA 7 = true ∧ accepts ((served id).checkFrame 15 f 1 0 64 (f.data.length == 4 && f.bytes == 4) true)) ∧
    (let s := served (fun x => { x with outgoing := [outgoing0 0 none] });
      let f := tf 5 0 0 [];
      let g := { tf 6 0 0 [] with status := 4 };
      accepts (s.answerFrame 15 f) ∧ s.outOf 15 f = some (outgoing0 0 none) ∧ f.isA 5 = true ∧ f.status = 0 ∧
        accepts (s.answerFrame 15 g) ∧ s.outOf 15 g = some (outgoing0 0 none) ∧ g.isA 6 = true) := by
  decide +kernel

theorem witness_TransferTimersComplete :
    (let s := served (fun x => { x with incoming := [incoming0 4], outgoing := [outgoing0 3 none] });
      (s.srv 15).incoming.find? (fun i => i.peer == 5 && i.xid == 6 && i.handle == (incoming0 4).handle) = some (incoming0 4) ∧
        (incoming0 4).since + s.landingNs ≤ s.ns ∧
        (s.srv 15).outgoing.find? (fun o => o.xid == 6 && !o.wait && !o.busy &&
          decide (o.since + 2 * s.landingNs ≤ s.ns)) = some (outgoing0 3 none)) ∧
    (let s := served (fun x => { x with outgoing := [outgoing0 0 (some 0)] });
      s.busyOut 15 6 true = some (outgoing0 0 (some 0)) ∧
        State.busyOut { s with ns := 20000 } 15 6 false = some (outgoing0 0 (some 0))) ∧
    (let w : Window := { window0 with closing := true };
      let s := served (fun x => { x with windows := [(4095, w)] });
      tget? (s.srv 15).windows 4095 = some w ∧ w.closing = true ∧ (s.srv 15).incoming = []) ∧
    1000000000 + ((served id).link (.span 8)).winStart ≤ (served id).ns ∧ 10 ^ 12 * 3 - 1 < 10 ^ 12 * 3 ∧
    0x3727C5AC < (0x3727C5AD : BitVec 32).toNat ∧
    (let s := ready.modSeg 7 (fun x => { x with dom := domOn });
      s.lodge.portsTrain = true ∧ (s.seg (15 / 2)).dom.on = true ∧ (s.srv 15).mode = 0) := by
  decide +kernel

/-! ### Witnesses: drills, records and recovery -/

def unit0 : DrillUnit := { kind := 10, plot := 55, q := 0, subunit := 0 }

/-- A drill package with an entry for a gate's drill and one for an engine's is in force. -/
def drilling (f : State → State) : State :=
  { (f ready).modLodge (fun l => { l with drill := some {
      content := natLE 32 (2 ^ 152 * 2) ++ natLE 32 (2 ^ 248 * 10) ++ natLE 32 (2 ^ 248), serial := 1 } }) with ns := 2 * 10 ^ 12 }

theorem witness_DrillsComplete :
    (drilling (fun s => s.modPlot 55 (fun x => { x with h := domOn }))).drillable unit0 = true ∧
    (drilling id).drillable { unit0 with kind := 1, plot := 0 } = true ∧
    (let s := drilling (fun s => s.modPav 0 (fun v => { v with seq := { v.seq with cadBoundary := true } }));
      s.lodge.drill.isSome = true ∧ s.allotOfPav 0 = some 0 ∧ (s.allot 0).frozen = none ∧
        (s.pav 0).seq.cadBoundary = true ∧ (s.pav 0).seq.running = false ∧
        (s.pav 0).lastDrill + 10 ^ 9 * (2 * s.lodge.drillInterval.toNat) ≤ s.ns) ∧
    (let c : Coalescer := { held := [record0], overflow := 0 };
      let s := drilling (fun s => ((s.modPlot 55 (fun x => { x with coal := c })).modSeg 7 (fun x => { x with coal := c })).modLodge
        (fun l => { l with arriving := [record0] }));
      (s.plot 55).coal.ready s.ns = some record0 ∧ (s.seg 7).coal.ready s.ns = some record0 ∧ s.lodge.arriving = [record0]) := by
  decide +kernel

def frozen0 : Frozen := { cause := .checkFault, since := 0, older := false, shuffle := false, abandoned := false }

theorem witness_RecoveryCompletes :
    (let s := { allotted (fun x => { x with frozen := some frozen0, jobs := [job0] }) with ns := 1000000 };
      (s.allot 0).frozen = some frozen0 ∧ frozen0.shuffle = false ∧ (s.allot 0).closeDue = false ∧ (s.allot 0).launchJob.isSome = true ∧
        s.drained 0 frozen0 = true ∧ frozen0.abandoned = false ∧ 1000000 + frozen0.since ≤ s.ns) ∧
    ready.allotOfPav 0 = some 0 ∧ ready.works 0 0 = true ∧ (ready.pav 0).partners = [] ∧
    (ready.alternateFor 0 ((ready.allot 0).targetOf 0)).isNone = true ∧
    (let s := { withPav (fun v => { v with partners := [1] }) with ns := 8000000 };
      s.allotOfPav 0 = some 0 ∧ (s.pav 0).partners ≠ [] ∧ (s.pav 0).quiet = true ∧ (s.allot 0).frozen = none ∧ (s.pav 0).context = 0 ∧
        8000000 + (s.pav 1).outAt ≤ s.ns) ∧
    ready.ownerOf 0 = some 0 := by
  decide +kernel

/-- Cell 36 of pavilion 0, or of a pavilion of the other plot that is not open, dies; the first spare is a dummy to pick. -/
def dies (s : State) (p cell dummy : Nat) (coreOnly : Bool) : Bool :=
  let q := p % 4
  let dl := physLocal q cell
  let x := s.plot (plotOf p)
  !isSpare q cell && (x.remapOf dl.1 dl.2).isNone && (x.remap.find? (fun r => r.ux.val == dl.1 && r.uy.val == dl.2)).isNone &&
    (coreOnly || !x.routerLost q dl) && cellNumber q dl.1 dl.2 == some 36 && ((s.cellDead p cell (!coreOnly)).dummyPicks p).contains dummy

def far : Remap := { rdead := true, dx := 63, dy := 67, ux := 63, uy := 66 }

theorem witness_RecoveryCompletes_cells :
    [false, true].all (fun coreOnly =>
      dies ready 0 100 0 coreOnly && (ready.cellDead 0 100 (!coreOnly)).allotOfPav 0 == some 0 &&
      dies ready 4 100 63 coreOnly && (ready.cellDead 4 100 (!coreOnly)).allotOfPav 4 == none) = true ∧
    (ready.plot 0).remap.length ≠ 64 ∧
    [0, 4].all (fun p => let s := ready.modPlot (plotOf p) (fun x => { x with remap := List.replicate 64 far });
      dies s p 100 0 true && (s.plot (plotOf p)).remap.length == 64) = true := by
  decide +kernel

/-! ### Witnesses: power, heat, start-up and the deal -/

theorem witness_PowerCompletes :
    (let s := ready.modGroup 0 (fun x => { x with pg := true });
      (s.group 0).alert = false ∧ (s.group 0).halved = false ∧ (s.group 0).pg = true ∧ s.domainOn (.plot 0 .E) = true ∧
        (s.plot 0).pll = true) ∧
    ((ready.modGroup 16 (fun x => { x with halved := true })).group 16).halved = true ∧
    (ready.modSeg 7 (fun x => { x with dom := domOn })).domainOn (.segment 7) = true ∧
    (let s := ready.modPlot 55 (fun x => { x with h := domOn, offCause := some .lost });
      (s.plot 55).h.on = true ∧ (s.plot 55).pll = false ∧ (s.plot 55).relockTried = false ∧ (s.plot 55).offCause = some .lost ∧
        s.ownerOf 55 = none) ∧
    (let j : FlashJob := { region := .settings, slot := 0, onB := false, left := 1, sectors := 1 };
      let s := ringed (fun l => { l with flashJobs := [j] });
      s.lodge.flashJobs = [j] ∧ s.holdupLow = false ∧ j.region ≠ .images) := by
  decide +kernel

theorem witness_HeatCompletes :
    (let s := ready.modPlot 0 (fun x => { x with derateDue := true });
      (s.plot 0).derateDue = true ∧ (pavsOf 0).all (fun i => !(s.pav i).seq.running) = true) ∧
    (let s := ringed id;
      let t := s.setTemp 0 720;
      t.lodge.warn.toInt ≤ (720 : BitVec 32).toInt ∧ (t.plot 0).warned = false ∧ 10000000 + (t.plot 0).lastDutyStep ≤ t.ns ∧
        (704 : BitVec 32).toInt + 16 ≤ (s.setTemp 0 704).lodge.warn.toInt ∧ 100000000 + ((s.setTemp 0 704).plot 0).lastDutyStep ≤ s.ns) ∧
    (let t := ready.setTemp 0 839;
      (t.plot 0).warm = true ∧ t.lodge.shed.toInt ≤ (839 : BitVec 32).toInt ∧ (839 : BitVec 32).toInt < t.lodge.shed.toInt + 40 ∧
        t.lodge.shed.toInt + 40 ≤ (840 : BitVec 32).toInt ∧ 880 ≤ (880 : BitVec 32).toInt ∧ ((ready.setTemp 55 880).plot 55).warm = false) ∧
    (ready.modLodge (fun l => { l with tripLow := true })).lodge.tripLow = true ∧
    (let t := (({ ready with ns := 10 ^ 10 } : State).modPlot 55 (fun x => { x with offCause := some .heat, coolSince := some 0 })).setTemp 55 719;
      (t.plot 55).offCause = some .heat ∧ (t.plot 55).coolSince = some 0 ∧ 10 * 10 ^ 9 + 0 ≤ t.ns ∧ t.ownerOf 55 = none ∧
        (t.plot 55).enable = .open_) := by
  decide +kernel

def staged (ph : Phase) (f : State → State) : State :=
  (f State.reset).modLodge (fun l => { l with aux := true, phase := ph })

/-- Every task of step 5 has ended. -/
def checked0 (s : State) : State :=
  (List.range 8).foldl (fun s n => s.modSeg n (fun x => { x with dom := domOn, linkTask := true }))
    ((List.range 56).foldl (fun s p => s.modPlot p (fun x => { x with linkTask := true })) s)

theorem witness_StartupCompletes :
    State.reset.lodge.aux = false ∧ State.reset.lodge.resetLow = false ∧ ready.lodge.aux = true ∧
    (let s := ready.modLodge (fun l => { l with resetLow := true });
      s.lodge.resetLow = true ∧ s.lodge.aux = true) ∧
    ready.lodge.spineBreaks = [] ∧
    (let s := { staged .steps23 id with ns := 50000000 * 6 };
      s.lodge.phase = .steps23 ∧ s.lodge.computeReset = false ∧ s.lodge.waves.contains 6 = false ∧
        tget 0 s.lodge.stepStart 3 + 50000000 * 6 ≤ s.ns) ∧
    (let s := staged .steps23 (fun s => (s.modSeg 7 (fun x => { x with dom := domOn })).modPlot 55 (fun x => { x with e := domOn, g := domOn }));
      (s.seg 7).dom.on = true ∧ (s.seg 7).trainTask = false ∧ (s.plot 55).e.on = true ∧ (s.plot 55).g.on = true ∧
        (s.plot 55).bistDone = false) ∧
    (let s := staged .step5 checked0;
      s.lodge.phase = .step5 ∧ (List.range 56).all (fun p => (s.plot p).linkTask) = true ∧
        (List.range 8).all (fun n => (s.seg n).linkTask && (s.seg n).dom.on) = true ∧ (s.plot 0).out = false ∧
        s.lodge.computeReset = false ∧ s.lodge.set.autoStart ≠ 0) ∧
    (let l := LinkId.express 55 3 3;
      let s := staged .step5 id;
      s.lodge.phase = .step5 ∧ linkExists l = true ∧ ((linkWires l).map (fun w => wiresLost w (s.link l).failed)).getD false = false) ∧
    ready.lodge.booted = true ∧ State.reset.lodge.set.hbmTraining = 0 := by
  decide +kernel

/-- The only card of the deal, all zeros, of scope 5. -/
def card0 : Card := { number := 3, scope := 5, slot := 0, target := 0, deal := 2, data := List.replicate 4096 0 }

def line0 : ManifestLine := { number := 3, scope := 5, slot := 0, target := 0, digest := digest256 card0.data }

def deal0 : Deal := { allotment := none, number := 258, lines := [line0], sent := [3], ended := false }

/-- The deal of start-up, with the gate of plot 55 in a round. -/
def dealt0 (round : Nat) (ls : List ManifestLine) : State :=
  staged .step4 (fun s => (s.modLodge (fun l => { l with deal := some deal0, stepStart := [(1, 0)] })).modPlot 55 (fun x => { x with
    bistDone := true, h := domOn, deal := { x.deal with ended := true, round := round, lines := ls } }))

/-- The bound of step n has elapsed, in phase ph. -/
def late (n : Nat) (ph : Phase) : Bool :=
  let s := { staged ph (fun s => s.modLodge (fun l => { l with stepStart := [(n, 1)] })) with ns := stepBound n + 1 }
  tget? s.lodge.stepStart n == some 1 && decide (stepBound n + 1 ≤ s.ns) && decide (s.lodge.phase = ph) && !s.lodge.computeReset

theorem witness_DealCompletes :
    (let s := staged .step4 id;
      s.lodge.deal = none ∧ s.lodge.phase = .step4 ∧ s.lodge.set.activeBase = 0) ∧
    (let s := { ready with lodge := { ready.lodge with dealQueue := [15] } };
      s.lodge.deal = none ∧ s.lodge.phase = .ready ∧ s.dealDue 15 = true) ∧
    (let s := dealt0 2 [line0];
      s.lodge.deal.isSome = true ∧ deal0.ended = false ∧ deal0.lines.all (fun m => deal0.sent.contains m.number) = true ∧
        (s.plot 55).deal.ended = true ∧ (s.plot 55).deal.reported = false ∧ (s.dealGates deal0).contains 55 = true ∧
        (s.lackingAll 55).isEmpty = false ∧ (s.plot 55).deal.round < 3 ∧ ((dealt0 3 []).lackingAll 55).isEmpty = true) ∧
    late 1 .step1 = true ∧ late 2 .steps23 = true ∧ late 3 .steps23 = true ∧ late 5 .step5 = true := by
  decide +kernel

/-- The card agrees with its line. -/
theorem witness_DealCompletes_card :
    deal0.lines.find? (fun m => m.number == card0.number.val) = some line0 ∧ card0.deal.toNat = deal0.number % 256 ∧
    card0.data.length = 4096 ∧ line0.digest = digest256 card0.data ∧ line0.scope = card0.scope ∧ line0.slot = card0.slot ∧
    line0.target = card0.target :=
  ⟨rfl, rfl, by decide +kernel, rfl, rfl, rfl, rfl⟩

theorem witness_ReadyFollows :
    (let s := (staged .step5 checked0).modLodge (fun l => { l with progress := [(0, { Progress.idle with state := 1 })] });
      s.lodge.phase = .step5 ∧ s.lodge.computeReset = false ∧ s.objValue tech 0x2000 1 = [0] ∧ s.objValue tech 0x7000 1 = [1] ∧
        (List.range 56).all (fun p => (s.plot p).linkTask || (s.plot p).out) = true ∧
        (List.range 8).all (fun n => (s.seg n).linkTask) = true ∧
        ((List.range 56).all (fun p => (s.plot p).out) || (List.range 8).all (fun n => !(s.seg n).dom.on)) = false) ∧
    (let s := (staged .step5 (fun s => (List.range 8).foldl (fun s n => s.modSeg n (fun x => { x with dom := .off })) (checked0 s))).modLodge
        (fun l => { l with progress := [(0, { Progress.idle with state := 1 })] });
      s.objValue tech 0x7000 1 = [1] ∧ (List.range 8).all (fun n => (s.seg n).linkTask) = true ∧
        (List.range 8).all (fun n => !(s.seg n).dom.on) = true) := by
  decide +kernel

/-! ### Witnesses: the module as a whole -/

theorem witness_StepRunsFront :
    (State.reset.push .relayOpen).pending = [.relayOpen] ∧ ready.pending = [] ∧ State.reset.lodge.phase = .off ∧
    ready.lodge.phase = .ready ∧ ready.lodge.slew = 0 := by
  decide +kernel

/-- The answer of a step is a next state that satisfies a test. -/
def next? (r : Res) (f : State → Bool) : Bool := match r with
  | .next t => f t
  | _ => false

theorem witness_StepKeepsHbmCanonical : ready.safe = true ∧ next? (step ready) (fun _ => true) = true := by decide +kernel

theorem witness_CommandsKeepQueue :
    next? (exec (.watchdogExpiry 7) (ringed id)) (fun t => decide (t.out.length = 1) && t.lodge.relay) = true := by
  decide +kernel

/-! ### Single steps, with results from the rules -/

/-- A word of the state that a command leads to. -/
def after {α : Type} (r : Res) (f : State → α) : Option α := match r with
  | .next t => some (f t)
  | _ => none

def reg0 (g : RegIx) (t : State) : Word := ((t.pav 0).core 0).reg g
def pc0 (t : State) : Word := ((t.pav 0).core 0).pc

/-- R208: integer results are modulo 2^32. -/
theorem test_add_wraps : after (exec (.add c0 3 1 (.imm 1)) (cored id [0xFFFFFFFF])) (reg0 3) = some 0 := by decide +kernel

/-- R206: a write to g0 is discarded, and the core goes on. -/
theorem test_g0_discards :
    after (exec (.add c0 0 1 (.imm 1)) (cored id [5])) (fun t => (reg0 0 t, pc0 t)) = some (0, 0x104) := by decide +kernel

/-- R208: the upper half of −1 · −1 is 0, of the unsigned product 0xFFFFFFFE. -/
theorem test_mulh :
    after (exec (.mulh c0 3 1 1) (cored id [0xFFFFFFFF])) (reg0 3) = some 0 ∧
    after (exec (.mulhu c0 3 1 1) (cored id [0xFFFFFFFF])) (reg0 3) = some 0xFFFFFFFE := by decide +kernel

/-- R208: an arithmetic shift right keeps the sign. -/
theorem test_shift_arith :
    after (exec (.shifts c0 .rightArith 1 1 (.imm 31)) (cored id [0x80000000])) (reg0 1) = some 0xFFFFFFFF := by decide +kernel

/-- R208: 1.0 + 1.0 = 2.0, exact. -/
theorem test_fadd :
    after (exec (.fadd c0 2 1 1) (cored id [0x3F800000])) (fun t => (reg0 2 t, ((t.pav 0).core 0).fflags)) = some (0x40000000, 0) := by
  decide +kernel

/-- R214: a misaligned load in task mode enters the monitor at 0x3_F000 with cause 2 and epc. -/
theorem test_misaligned_traps :
    after (exec (.ld c0 .b32 2 1 0) (cored id [2])) (fun t => (pc0 t, ((t.pav 0).core 0).cause, ((t.pav 0).core 0).epc)) =
      some (0x3F000, 2, 0x100) := by decide +kernel

/-- R208, R552: a 32-bit store puts its least significant byte at the address. -/
theorem test_store_little_endian :
    after (exec (.st c0 .b32 2 1 0) (cored id [0, 0x11223344])) (fun t => memRead (t.pav 0).garden.bytes (64 * t.gardenRow 0 0) 4) =
      some [0x44, 0x33, 0x22, 0x11] := by decide +kernel

/-- R209: a jump goes 4 bytes for each unit of its offset, backwards too. -/
theorem test_jump_back : after (exec (.jump c0 0x3FFFFFF) (cored id [])) pc0 = some 0xFC := by decide +kernel

/-- R191: NOP moves its stream to the next slot and does nothing else to it. -/
theorem test_nop :
    after (exec (.nop 0 0 0) (offering 0 0)) (fun t => ((t.pav 0).seq.stream 0).slot) = some 1 := by decide +kernel

/-- R191: SYNCA adds modulo 2^32. -/
theorem test_synca_wraps :
    after (exec (.synca 0 0 (BitVec.ofNat 120 (2 ^ 116 + 2 ^ 32 * 2)))
        ((offering 5 (2 ^ 116 + 2 ^ 32 * 2)).modSeq 0 (fun q => { q with ctrs := q.ctrs.set 1 0xFFFFFFFF })))
      (fun t => lget 0 (t.pav 0).seq.ctrs 1) = some 1 := by decide +kernel

/-- R185, R204: a NOP with a reserved bit set is a program fault, and issue stops. -/
theorem test_reserved_bit_faults :
    after (exec (.nop 0 0 1) (offering 0 1)) (fun t => (t.pav 0).seq.stopped) = some true := by decide +kernel

/-- R68: MGEOM takes its three pitches from bits [119:72]. -/
theorem test_mgeom :
    after (exec (.mgeom 0 0 (BitVec.ofNat 120 (2 ^ 104 * 1 + 2 ^ 88 * 2 + 2 ^ 72 * 3))) (offering 0x38 (2 ^ 104 * 1 + 2 ^ 88 * 2 + 2 ^ 72 * 3)))
      (fun t => (((t.pav 0).seq.stream 0).xpitch, ((t.pav 0).seq.stream 0).wpitch, ((t.pav 0).seq.stream 0).ypitch)) =
        some (1, 2, 3) := by decide +kernel

/-- R141: VADD of one BF16 element: 1.0 + 1.0 = 2.0 (0x4000). -/
theorem test_vadd :
    after (exec (.vadd 0 0 (BitVec.ofNat 120 (vw 12 12 0 1 0)) none) ((offering 0x40 (vw 12 12 0 1 0)).modPav 0 (fun v => { v with
        stage := { v.stage with bytes := memWrite (memWrite v.stage.bytes 0 [0x80, 0x3F]) 65536 [0x80, 0x3F] } })))
      (fun t => memRead (t.pav 0).stage.bytes 131072 2) = some [0x00, 0x40] := by decide +kernel

/-- R348: a write of 0x2000:02 without a session is answered 0x0A07 and changes nothing; in one it is taken. -/
theorem test_object_write :
    after (exec (.objectWrite (.ring 5 0) 0x2000 2 [0]) (ringed id)) (fun t => (t.lodge.set.autoStart, t.out)) =
      some (1, [.answer (.ring 5 0) 0x0A07 []]) ∧
    after (exec (.objectWrite tech 0x2000 2 [0]) (ringed id)) (fun t => t.lodge.set.autoStart) = some 0 := by decide +kernel

/-- R333: the relay opens once both PHYs are up. -/
theorem test_relay_opens :
    after (exec .relayOpen (ringed (fun l => { l with relay := true }))) (fun t => (t.lodge.relay, t.out)) =
      some (false, [.relay false]) := by decide +kernel

/-- R344: a DELAY_REQ of another station is answered with the module's time, on both ports. -/
theorem test_delay_req :
    after (exec (.delayReq (asks 6 1 false [])) (ringed id)) (fun t => t.out.map (fun o => match o with
      | .ring _ f => leNat f.payload
      | _ => 0)) = some [10 ^ 11, 10 ^ 11] := by decide +kernel

/-- R289: a DATA packet lands its 48 bytes at its sequence's place. -/
theorem test_data_lands :
    (let e : Landing := { srcX := 1, srcY := 2, tag := 9, base := BitVec.ofNat 64 (2 ^ 27 * 2), length := 96, landed := 0
                          count := 0, round := 0, since := 0, own := false, poison := false };
      after (exec (.data (toC0 0 0 0x0201)) (ready.modRx (.cell c0) (fun z => { z with entries := [(7, e)] })))
        (fun t => (memRead (t.pav 0).garden.bytes (64 * t.gardenRow 0 0) 3, (tget? (t.rx (.cell c0)).entries 7).map (·.count)))) =
      some ([0x01, 0x02, 0], some 1) := by decide +kernel

/-- R389: a doorbell beyond its ring fails the queue with cause 4. -/
theorem test_doorbell_beyond :
    after (exec (.submissionDoorbell 0 0 511 64) (queued [] 511)) (fun t => ((t.allot 0).queue 511).err) = some 4 := by decide +kernel

/-- R398, R391: SIGNAL of an event counter adds and completes OK. -/
theorem test_signal_counter :
    after (exec (.signal 0 7) (fetched 8 1 63 5 0)) (fun t => tget 0 (t.allot 0).counters 63) = some 5 := by decide +kernel

/-- R486: at the trip threshold THERM_TRIP_N is driven low. -/
theorem test_therm_trip :
    after (exec (.thermTrip (.plot 55) 880) ready) (fun t => t.lodge.tripLow) = some true := by decide +kernel

/-- R320, R330: a GRANULE read of an owned line is answered; reset HBM reads zero. -/
theorem test_granule_read :
    after (exec (.granule granule0) ready) (fun t => (t.out.isEmpty, t.hbm == ready.hbm)) = some (false, true) := by decide +kernel

/-- R330: an idle module's step only lets time pass. -/
theorem test_idle_ticks : after (step ready) (fun t => t.ns) = some 1 := by decide +kernel

/-- R309's example: cells (12, 40) and (50, 10) are 34 hops apart on the torus; R280's: local x 30 and 31 are 31 apart. -/
theorem test_torus_distance :
    (Plot.built.cellDist (12, 40) (50, 10), Plot.built.cellDist (30, 0) (31, 0)) = (34, 31) := by decide +kernel

/-- R301: with all four links from gate 0 to gate 2 withdrawn, a packet from gate 0 to gate 2 takes the other way round. -/
theorem test_ring_becomes_line :
    let links := [0, 1, 2, 3].foldl (fun (s : State) j => s.modLink (.express 0 1 j) (fun l => { l with state := 2 })) ready
    (ready.gateRuns false 0 2, links.gateRuns false 0 2) = ((some 1, some 7), (none, some 7)) := by decide +kernel

end Sys2Proof.Tests
end

/-! Completion of the vector engine's instructions (R134–R155). An instruction whose command issues through `State.runVe` completes
whenever it can issue, whatever its effect is; each statement about such instructions follows from that one lemma. -/

namespace Sys2Proof.Machine

/-- A VE instruction is no tile pass, so no cadence entry ends with it (R169): its effect, the release of its entries and its check
are all that its issue does. -/
theorem State.runVe_eq_veAfter (s : State) (p i w : Nat) (v : Vop) (c : Chk) (eff : State → State)
    (h : s.canIssue p i v.op w (s.veIssue p v) = true) : s.runVe p i v c eff = s.veAfter p i v c eff := by
  have notPass : ∀ o, (s.veIssue p v).cad ≠ .pass o := by simp [State.veIssue]
  exact issue_go s p i v.op w (s.veIssue p v) _ h notPass

/-- The command mk runs the vector-engine instruction with opcode op and effect eff, once its stream offers it. -/
def VeRuns (mk : PavIx → StreamIx → Body → Chk → Instr) (op : Nat) (eff : Nat → Nat → Vop → State → State) : Prop :=
  ∀ (p : PavIx) (i : StreamIx) (w : Body) (c : Chk) (s : State), let v := vopOf op w.toNat
    exec (mk p i w c) s = s.instr p i op w (fun t => t.runVe p.val i.val v c (eff p.val i.val v))

theorem VeRuns.completes {mk : PavIx → StreamIx → Body → Chk → Instr} {op : Nat} {eff : Nat → Nat → Vop → State → State}
    (h : VeRuns mk op eff) : VeCompletes mk op eff := by
  intro p i w c s v hgo
  calc exec (mk p i w c) s
      = s.instr p i op w (fun t => t.runVe p.val i.val v c (eff p.val i.val v)) := h p i w c s
    _ = .next (s.runVe p.val i.val v c (eff p.val i.val v)) := instr_go s p i op w _ _ hgo
    _ = .next (s.veAfter p.val i.val v c (eff p.val i.val v)) := by rw [State.runVe_eq_veAfter s _ _ w.toNat v c _ hgo]

/-! ### Conversions and transcendental functions (R42, R55, R141) -/

theorem veRuns_vcvt : VeRuns .vcvt 0x58 vcvtEff := fun _ _ _ _ _ => rfl
theorem veRuns_vpkmx : VeRuns .vpkmx 0x59 vpkmxEff := fun _ _ _ _ _ => rfl
theorem veRuns_vupmx : VeRuns .vupmx 0x5A vupmxEff := fun _ _ _ _ _ => rfl
theorem veRuns_vsplit : VeRuns .vsplit 0x5B vsplitEff := fun _ _ _ _ _ => rfl
theorem veRuns_vi2f : VeRuns .vi2f 0x5C vi2fEff := fun _ _ _ _ _ => rfl
theorem veRuns_vf2i : VeRuns .vf2i 0x5D vf2iEff := fun _ _ _ _ _ => rfl
theorem veRuns_vrcp : VeRuns .vrcp 0x60 vrcpEff := fun _ _ _ _ _ => rfl
theorem veRuns_vrsqrt : VeRuns .vrsqrt 0x61 vrsqrtEff := fun _ _ _ _ _ => rfl
theorem veRuns_vexp2 : VeRuns .vexp2 0x62 vexp2Eff := fun _ _ _ _ _ => rfl
theorem veRuns_vlog2 : VeRuns .vlog2 0x63 vlog2Eff := fun _ _ _ _ _ => rfl
theorem veRuns_vtanh : VeRuns .vtanh 0x64 vtanhEff := fun _ _ _ _ _ => rfl
theorem veRuns_vsigm : VeRuns .vsigm 0x65 vsigmEff := fun _ _ _ _ _ => rfl

/-- Settles O7: each of the twelve commands issues through `State.runVe`, so it completes when it can issue. -/
theorem vectorConvertCompletes : Obligations.VectorConvertCompletes :=
  ⟨veRuns_vcvt.completes, veRuns_vpkmx.completes, veRuns_vupmx.completes, veRuns_vsplit.completes, veRuns_vi2f.completes,
    veRuns_vf2i.completes, veRuns_vrcp.completes, veRuns_vrsqrt.completes, veRuns_vexp2.completes, veRuns_vlog2.completes,
    veRuns_vtanh.completes, veRuns_vsigm.completes⟩

end Sys2Proof.Machine

/-! Completion of the matrix engine's instructions and of its own events (R65–R128). Each instruction is an issue with its own
effect, so that what an issue does when it can go (`issue_go`, `issue_pass`) settles it; each event has a lemma of its own. -/

namespace Sys2Proof.Machine

/-! ### An instruction command that issues -/

/-- An instruction command whose meaning is an issue answers what the issue of a tile pass answers. -/
theorem instr_issue_pass (s : State) (p : PavIx) (i : StreamIx) (op : Nat) (w : Body) (x : State → Issue)
    (eff : State → List Nat → State → State) (h : s.canIssue p.val i.val op w.toNat (x s) = true) :
    s.instr p i op w (fun t => t.issue p.val i.val op (x t) (eff t)) =
      .next (s.passAfter p.val i.val op (x s) (eff s)) := by
  rw [instr_go s p i op w _ (x s) h, issue_pass s p.val i.val op w.toNat (x s) (eff s) h]

/-- The same for an instruction that is not a tile pass: its effect runs, and nothing follows. -/
theorem instr_issue_go (s : State) (p : PavIx) (i : StreamIx) (op : Nat) (w : Body) (x : State → Issue)
    (eff : State → List Nat → State → State) (h : s.canIssue p.val i.val op w.toNat (x s) = true)
    (hc : ∀ o, (x s).cad ≠ .pass o) :
    s.instr p i op w (fun t => t.issue p.val i.val op (x t) (eff t)) =
      .next (eff s (s.moved p.val i.val op (x s)).1 (s.moved p.val i.val op (x s)).2) := by
  rw [instr_go s p i op w _ (x s) h, issue_go s p.val i.val op w.toNat (x s) (eff s) h hc]

/-! ### What the matrix engine's instructions run (R68, R69, R71, R72, R74, R108, R124) -/

theorem exec_mgeom (p : PavIx) (i : StreamIx) (w : Body) (s : State) :
    exec (.mgeom p i w) s = s.instr p i 0x38 w (fun t => t.issue p.val i.val 0x38 (mgeomIssue w.toNat)
      (fun _ u => u.modStream p.val i.val (fun r => r.setPitches w.toNat))) := rfl

theorem exec_moset (p : PavIx) (i : StreamIx) (w : Body) (s : State) :
    exec (.moset p i w) s = s.instr p i 0x30 w (fun t => t.issue p.val i.val 0x30 (mosetIssue w.toNat)
      (mosetEff p.val w.toNat)) := rfl

theorem exec_mpset (p : PavIx) (i : StreamIx) (w : Body) (s : State) :
    exec (.mpset p i w) s = s.instr p i 0x34 w (fun t => t.issue p.val i.val 0x34 (mpsetIssue w.toNat)
      (fun _ u => u.setCtx p.val (bits w.toNat 119 118)
        (((u.pav p.val).me.ctx (bits w.toNat 119 118)).setPrune w.toNat))) := rfl

theorem exec_mfset (p : PavIx) (i : StreamIx) (w : Body) (s : State) :
    exec (.mfset p i w) s = s.instr p i 0x3C w (fun t => t.issue p.val i.val 0x3C (mfsetIssue w.toNat)
      (mfsetEff p.val i.val w.toNat)) := rfl

theorem exec_mload (p : PavIx) (i : StreamIx) (w : Body) (s : State) :
    exec (.mload p i w) s = s.instr p i 0x10 w (fun t => t.issue p.val i.val 0x10 (t.mloadIssue p.val i.val w.toNat)
      (fun ids u => u.mload p.val i.val (mloadOf w.toNat) (64 * ((t.pav p.val).seq.stream i.val).wpitch.toNat)
        ((t.pav p.val).seq.stream i.val).slot ids)) := rfl

theorem exec_mrun (p : PavIx) (i : StreamIx) (w : Body) (s : State) :
    exec (.mrun p i w) s = s.instr p i 0x20 w (fun t => t.issue p.val i.val 0x20 (t.mrunIssue p.val i.val w.toNat)
      (mrunEff p.val i.val w.toNat (t.pav p.val) (t.mrunIssue p.val i.val w.toNat).rngs)) := rfl

theorem exec_macc (p : PavIx) (i : StreamIx) (w : Body) (s : State) :
    exec (.macc p i w) s = s.instr p i 0x28 w (fun t => t.issue p.val i.val 0x28 (t.maccIssue p.val i.val w.toNat)
      (maccEff p.val i.val w.toNat (t.pav p.val) (t.maccIssue p.val i.val w.toNat).rngs)) := rfl

/-- Settles O1: no set-up instruction and no tile load is a tile pass, so its effect is all that its issue does. -/
theorem matrixSetUpCompletes : Obligations.MatrixSetUpCompletes := by
  intro p i w s n
  refine ⟨fun h => ?mgeom, fun h => ?moset, fun h => ?mpset, fun h => ?mfset, fun h => ?mload⟩
  case mgeom =>
    rw [exec_mgeom, instr_issue_go s p i 0x38 w (fun _ => mgeomIssue n) _ h (by simp [mgeomIssue])]
    rfl
  case moset => rw [exec_moset, instr_issue_go s p i 0x30 w (fun _ => mosetIssue n) _ h (by simp [mosetIssue])]
  case mpset =>
    rw [exec_mpset, instr_issue_go s p i 0x34 w (fun _ => mpsetIssue n) _ h (by simp [mpsetIssue])]
    rfl
  case mfset => rw [exec_mfset, instr_issue_go s p i 0x3C w (fun _ => mfsetIssue n) _ h (by simp [mfsetIssue])]
  case mload =>
    have notPass : ∀ o, (s.mloadIssue p.val i.val n).cad ≠ .pass o := by simp [State.mloadIssue]
    rw [exec_mload, instr_issue_go s p i 0x10 w (fun t => t.mloadIssue p.val i.val n) _ h notPass]

/-- Settles O2: MRUN and MACC are tile passes, and what the issue of one answers is `State.passAfter`. -/
theorem matrixPassCompletes : Obligations.MatrixPassCompletes := by
  intro p i w s n xr xa
  refine ⟨fun h => ?mrun, fun h => ?macc⟩
  case mrun => rw [exec_mrun, instr_issue_pass s p i 0x20 w (fun t => t.mrunIssue p.val i.val n) _ h]
  case macc => rw [exec_macc, instr_issue_pass s p i 0x28 w (fun t => t.maccIssue p.val i.val n) _ h]

/-! ### The loader, the rows and the drain (R72, R75, R77, R82) -/

theorem onlyIf_of_true {c : Bool} (s t : State) (h : c = true) : onlyIf c s t = .next t := by rw [onlyIf, if_pos h]

/-- R77: the loader's end waits only for a MACC that has issued a K-step. -/
theorem tileLoadDone_of_loading (p : PavIx) (s : State) (hl : (s.pav p.val).me.loading = true)
    (hr : ∀ r, (s.pav p.val).me.running = some r → r.macc = false ∨ r.issued = 0) :
    exec (.tileLoadDone p) s = .next (((s.modME p.val (fun e => { e with loading := false, loadEntries := [] })).release
      p.val (s.pav p.val).me.loadEntries).settlePosts p.val) := by
  show execTileLoadDone p s = _
  unfold execTileLoadDone
  apply onlyIf_of_true
  cases hrun : (s.pav p.val).me.running with
  | none => simp [hl]
  | some r => rcases hr r hrun with h | h <;> simp [hl, h]

theorem rowIssue_of_drain (p : PavIx) (s : State) (r : Pass) (k : Nat) (hon : (s.plot (plotOf p.val)).e.on = true)
    (hd : (s.pav p.val).me.drain = some (r, true, k)) : exec (.rowIssue p) s = .next (s.drainRows p.val r k 513) := by
  show execRowIssue p s = _
  simp [execRowIssue, hd, onlyIf, hon]

/-- R72, R82: a drain that has not begun does not hold the running pass back. -/
theorem rowIssue_of_running (p : PavIx) (s : State) (r : Pass) (hon : (s.plot (plotOf p.val)).e.on = true)
    (hd : ∀ d k, (s.pav p.val).me.drain ≠ some (d, true, k)) (hr : (s.pav p.val).me.running = some r) :
    exec (.rowIssue p) s = .next (if r.macc then s.maccStep p.val r else s.mrunStep p.val r) := by
  show execRowIssue p s = _
  match hdr : (s.pav p.val).me.drain with
  | none => simp [execRowIssue, hdr, hr, onlyIf, hon]
  | some (_, false, _) => simp [execRowIssue, hdr, hr, onlyIf, hon]
  | some (d, true, k) => exact absurd hdr (hd d k)

theorem drainStart_of_clear (p : PavIx) (s : State) (r : Pass) (k : Nat) (hon : (s.plot (plotOf p.val)).e.on = true)
    (hd : (s.pav p.val).me.drain = some (r, false, k)) (hsh : (s.pav p.val).me.shadows = [])
    (hp : (s.pav p.val).me.prune = []) : exec (.drainStart p) s = .next (s.drainRows p.val r k 513) := by
  show execDrainStart p s = _
  simp [execDrainStart, hd, hsh, hp, onlyIf, hon]

/-! ### Verdicts and check shadows (R83, R86, R88) -/

/-- The state after the finding on row f in the output stage, with rows rest behind it: a failed row is poisoned and reported
(R86, R90). -/
def State.afterFinding (s : State) (p : Nat) (f : RowFlight) (rest : List RowFlight) (y : Finding) : State :=
  if y = .clean then s else (s.poisonRow p f rest).meFault p f.macc ((f.dest.head?.map (·.2)).getD 0) y

/-- R76, R88: the verdict on a row that is not the last of its pass. -/
theorem rowVerdict_of_not_last (p : PavIx) (s : State) (o : VerdictObs) (f : RowFlight) (rest : List RowFlight)
    (hf : (s.pav p.val).me.inFlight = f :: rest) (hl : f.last = false) :
    exec (.rowVerdict p o) s =
      .next ((s.modME p.val (fun m => { m with inFlight := rest })).afterFinding p.val f rest (f.finding o)) := by
  show execRowVerdict p o s = _
  cases hfind : f.finding o <;> simp [execRowVerdict, State.afterFinding, hf, hl, hfind]

/-- R76, R88, R193: the verdict on the last row of a pass, which ends with it. -/
theorem rowVerdict_of_last (p : PavIx) (s : State) (o : VerdictObs) (f : RowFlight) (rest : List RowFlight) (r : Pass)
    (hf : (s.pav p.val).me.inFlight = f :: rest) (hl : f.last = true)
    (hr : ((((s.modME p.val (fun m => { m with inFlight := rest })).afterFinding p.val f rest (f.finding o)).pav
      p.val).me.finishing.find? (fun r => r.id == f.pass)) = some r) :
    exec (.rowVerdict p o) s =
      .next (((s.modME p.val (fun m => { m with inFlight := rest })).afterFinding p.val f rest (f.finding o)).passDone
        p.val r) := by
  show execRowVerdict p o s = _
  cases hfind : f.finding o <;> simp_all [execRowVerdict, State.afterFinding]

/-- R83: a check shadow in which nothing is found only leaves, unless it is the last of its pass. -/
theorem shadowShift_of_clean (p : PavIx) (s : State) (os : List (Fin 512 × VerdictObs)) (h : Shadow) (rest : List Shadow)
    (hs : (s.pav p.val).me.shadows = h :: rest) (hc : h.findings os = []) (hl : h.last = false) :
    exec (.shadowShift p os) s = .next (s.modME p.val (fun m => { m with shadows := rest })) := by
  show execShadowShift p os s = _
  simp [execShadowShift, hs, hc, hl, State.each]

/-! ### Retired lines (R94) -/

theorem plot_logRecord (s : State) (r : ErrRec) (q : Nat) : (s.logRecord r).plot q = s.plot q := by
  by_cases ha : r.allotment.toNat < 16 <;> simp [State.logRecord, ha]

/-- A record goes to a coalescer or to the log (R442), so no plot changes hands by it. -/
theorem plot_owner_record (s : State) (r : ErrRec) (q : Nat) : ((s.record r).plot q).owner = (s.plot q).owner := by
  simp only [State.record]
  split
  case h_1 n _ =>
    by_cases hq : q = n.val
    · rw [hq, State.plot_modPlot_same]
    · rw [State.plot_modPlot_other _ _ _ _ hq]
  case h_2 => rw [State.plot_modSeg]
  case h_3 => rw [plot_logRecord]

theorem allotOfPav_retireRec (s : State) (p kind severity q : Nat) :
    (s.retireRec p kind severity).allotOfPav q = s.allotOfPav q := by
  simp [State.retireRec, State.allotOfPav, State.ownerOf, plot_owner_record]

/-- R94: the only line that is due, in a pavilion of no allotment, goes into the repair map between passes. -/
theorem lineRetirement_of_due (p : PavIx) (s : State) (column : Bool) (line : Fin 530) (m : List (BitVec 16))
    (hd : (s.pav p.val).me.retiring = [(column, line.val)]) (hr : (s.pav p.val).me.running = none)
    (hl : line.val < (if column then 530 else 528)) (hm : retireIn (s.pav p.val).repair column line.val = some m)
    (ha : s.allotOfPav p.val = none) :
    exec (.lineRetirement p column line) s = .next (((s.modME p.val (fun e => { e with retiring := [] })).modPav p.val
      (fun v => { v with repair := m })).retireRec p.val 1 3) := by
  have hnone : (((s.modME p.val (fun e => { e with retiring := [] })).modPav p.val
      (fun v => { v with repair := m })).retireRec p.val 1 3).allotOfPav p.val = none := by
    rw [allotOfPav_retireRec]
    exact ha
  have herase : (s.modME p.val (fun e => { e with
      retiring := (e.retiring.erase (column, line.val)).erase (true, 1023) })) =
      s.modME p.val (fun e => { e with retiring := [] }) := by
    simp [State.modME, State.modPav, hd]
  show execLineRetirement p column line s = _
  simp [execLineRetirement, hd, hr, hl, hm, herase, hnone]

/-! ### Forecast slots (R126) -/

theorem forecastSlotDisabled_of_tooMany (p : PavIx) (slot : Fin 64) (s : State)
    (hm : s.tooMany p.val (tget FcSlot.cleared (s.pav p.val).forecast slot.val) = true)
    (he : (tget FcSlot.cleared (s.pav p.val).forecast slot.val).disabled = false) :
    exec (.forecastSlotDisabled p slot) s =
      .next (let t := s.modPav p.val (fun x => { x with
          forecast := tmod .cleared x.forecast slot.val (fun c => { c with disabled := true }) })
        (t.record (t.pavRec p.val 0x15 0 2 slot.val)).event 0x0002 (64 * p.val + slot.val) (0x2200 + p.val) 8
          (((t.record (t.pavRec p.val 0x15 0 2 slot.val)).allotOfPav p.val).getD 0x1F)) := by
  show execForecastSlotDisabled p slot s = _
  simp [execForecastSlotDisabled, hm, he]

theorem forecastWindowEnd_of_full (p : PavIx) (slot : Fin 64) (s : State)
    (hw : 2 ^ (s.limits p.val).window.toNat ≤ (tget FcSlot.cleared (s.pav p.val).forecast slot.val).audited)
    (hc : (tget FcSlot.cleared (s.pav p.val).forecast slot.val).disabled = true ∨
      s.tooMany p.val (tget FcSlot.cleared (s.pav p.val).forecast slot.val) = false) :
    exec (.forecastWindowEnd p slot) s = .next (s.modPav p.val (fun x => { x with
      forecast := tmod .cleared x.forecast slot.val (fun c => c.nextWindow (2 ^ (s.limits p.val).window.toNat)) })) := by
  show execForecastWindowEnd p slot s = _
  unfold execForecastWindowEnd
  apply onlyIf_of_true
  simpa [hw] using hc

/-- Settles O3: each event's condition holds under its hypotheses, and its effect is the state given. -/
theorem matrixEventsComplete : Obligations.MatrixEventsComplete := by
  intro p s x m
  refine ⟨tileLoadDone_of_loading p s, rowIssue_of_drain p s, fun r hon hd hr => rowIssue_of_running p s r hon hd hr,
    drainStart_of_clear p s, ?verdict, fun h rest os => shadowShift_of_clean p s os h rest,
    fun column line m => lineRetirement_of_due p s column line m, fun slot => forecastSlotDisabled_of_tooMany p slot s,
    fun slot => forecastWindowEnd_of_full p slot s⟩
  case verdict =>
    intro f rest o hf
    exact ⟨rowVerdict_of_not_last p s o f rest hf, fun r hl => rowVerdict_of_last p s o f rest r hf hl⟩

end Sys2Proof.Machine

/-! Completion of the Promenade's events (R250–R277). Each event of a switch that runs a section is settled by one lemma for each way
in which it goes. -/

namespace Sys2Proof.Machine

section
variable {s : State} {p : PlotIx} {al : Nat}

/-! ### Beats on circuits (R253, R256, R259) -/

section
variable {src : Fin 512} {b : Beat} (hsw : s.switchOf p.val = some al)
  (hb : (tget [] (s.plot p.val).circuits (beatKey src.val b)).head? = some b)
include hsw hb

theorem beatArrival_of_clean :
    exec (.beatArrival p src b .clean) s =
      .next (if s.beatGone (s.beatOn al p.val src.val b) p.val (beatKey src.val b) then
        (s.beatOn al p.val src.val b).sourceGo al p.val src.val else s.beatOn al p.val src.val b) := by
  show execBeatArrival p src b .clean s = _
  simp [execBeatArrival, hsw, hb]

theorem beatArrival_of_corrected :
    exec (.beatArrival p src b .corrected) s =
      .next (if s.beatGone (s.beatOn al p.val src.val b) p.val (beatKey src.val b) then
        ((s.beatOn al p.val src.val b).modPlot p.val (fun x =>
          { x with promCorrected := satInc x.promCorrected })).sourceGo al p.val src.val
        else s.beatOn al p.val src.val b) := by
  show execBeatArrival p src b .corrected s = _
  simp [execBeatArrival, hsw, hb]

theorem beatArrival_of_uncorrectable :
    exec (.beatArrival p src b .uncorrectable) s =
      .next ((s.popBeat p.val (beatKey src.val b)).circuitFault p.val 0 src.val) := by
  show execBeatArrival p src b .uncorrectable s = _
  simp [execBeatArrival, hsw, hb]

end

/-! ### Steering units (R264, R265) -/

/-- R265: nothing holds a unit back whose inputs all have a beat, whose last item has left and whose outputs have room. -/
theorem steeringResolve_of_go {u : Fin 32} {r : BitVec 16} {items : List (Nat × List Nat × Bool)} {own : List (Nat × Nat)}
    (hsw : s.switchOf p.val = some al) (hr : ((s.plot p.val).steer u.val).r = some r)
    (hu : steerInputs ((s.plot p.val).steerMode u.val) ≠ [])
    (he : ((s.plot p.val).steer u.val).anyEmpty (steerInputs ((s.plot p.val).steerMode u.val)) = false)
    (hs : ((s.plot p.val).steer u.val).stream = [])
    (ho : ∀ o ∈ steerOutputs ((s.plot p.val).steerMode u.val), s.outRoom p.val (320 + 2 * u.val + o) ≠ 0)
    (hgo : ((s.plot p.val).steer u.val).outcome ((s.plot p.val).steerMode u.val)
      (tget 0 (s.plot p.val).prom.steer u.val).toNat = .go items own) :
    exec (.steeringResolve p u) s = .next (((s.modPlot p.val (fun z => z.setSteer u.val
      { (s.plot p.val).steer u.val with stream := items, r := some (r + 1), since := s.ns })).sendUnit p.val (320 + 2 * u.val)
        (own.map (fun e => (e.1, mkBeat 0 0 r.toNat e.2 true false)))).steerFlow p.val u.val) := by
  have hfree : ((s.switchOf p.val).isNone || (steerInputs ((s.plot p.val).steerMode u.val)).isEmpty ||
      ((s.plot p.val).steer u.val).anyEmpty (steerInputs ((s.plot p.val).steerMode u.val)) ||
      !((s.plot p.val).steer u.val).stream.isEmpty ||
      (steerOutputs ((s.plot p.val).steerMode u.val)).any (fun o => s.outRoom p.val (320 + 2 * u.val + o) == 0)) = false := by
    simpa [hsw, hu, he, hs] using ho
  show execSteeringResolve p u s = _
  simp only [execSteeringResolve, hr, hfree, hgo, Bool.false_eq_true, if_false]

/-! ### Merge units (R131, R273) -/

/-- The merge unit takes the state y, and its beats l go to the circuits of its output. -/
def State.putMerge (s : State) (p m : Nat) (y : Merge) (l : List Beat) : State :=
  (s.modPlot p (fun z => z.setMerge m y)).putBeats p (384 + m) 0 l

/-- A merge unit in the middle of an item sends on what has come, unless its duplicate disagrees on beats to send. -/
theorem mergeEmit_of_cur {m : Fin 16} {w : MergeSet} (ok : Bool) (hsw : s.switchOf p.val = some al)
    (hm : tget? (s.plot p.val).prom.merge m.val = some w) (hc : ((s.plot p.val).mergeUnit m.val).cur ≠ none) :
    let r := ((s.plot p.val).mergeUnit m.val).stream (s.outRoom p.val (384 + m.val))
    exec (.mergeEmit p m ok) s =
      .next (if ok = false ∧ r.2 ≠ [] then s.circuitFault p.val 1 (384 + m.val) else s.putMerge p.val m.val r.1 r.2) := by
  obtain ⟨c, hc⟩ := Option.ne_none_iff_exists'.mp hc
  show execMergeEmit p m ok s = _
  simp [execMergeEmit, State.putMerge, hsw, hm, hc]

/-- A merge unit with a head on both inputs sends the least item, unless its duplicate disagrees on beats to send. -/
theorem mergeEmit_of_heads {m : Fin 16} {w : MergeSet} {a b : Beat} (ok : Bool) (hsw : s.switchOf p.val = some al)
    (hm : tget? (s.plot p.val).prom.merge m.val = some w) (hc : ((s.plot p.val).mergeUnit m.val).cur = none)
    (hroom : s.outRoom p.val (384 + m.val) ≠ 0) (ha : (((s.plot p.val).mergeUnit m.val).buf 0).head? = some a)
    (hb : (((s.plot p.val).mergeUnit m.val).buf 1).head? = some b) :
    let e := ((s.plot p.val).mergeUnit m.val).emit a b s.ns (s.outRoom p.val (384 + m.val))
    exec (.mergeEmit p m ok) s =
      if ok = false ∧ e.2.1 ≠ [] then .next (s.circuitFault p.val 1 (384 + m.val))
      else .next (if e.2.2 then (s.putMerge p.val m.val e.1 e.2.1).consumeMerge al p.val m.val
        else s.putMerge p.val m.val e.1 e.2.1) := by
  show execMergeEmit p m ok s = _
  simp [execMergeEmit, State.putMerge, hsw, hm, hc, hroom, ha, hb]

/-! ### Skew timeouts (R272) -/

/-- Joins 0–31 are the steering units. -/
theorem skewTimeout_of_steer {j : Fin 48} (hsw : s.switchOf p.val = some al) (hj : j.val < 32)
    (hw : ∃ i ∈ steerInputs ((s.plot p.val).steerMode j.val), ((s.plot p.val).steer j.val).buf i ≠ [])
    (ht : ((s.plot p.val).steer j.val).since + s.skewNs p.val (320 + 3 * j.val) (320 + 2 * j.val) 3 2 ≤ s.ns)
    (hp : s.joinPaused p.val (320 + 3 * j.val) (320 + 2 * j.val) 3 2 = false) :
    exec (.skewTimeout p j) s = .next (s.skewFault p.val
      (320 + 3 * j.val + ((steerInputs ((s.plot p.val).steerMode j.val)).find?
        (fun i => (((s.plot p.val).steer j.val).buf i).isEmpty)).getD 0)
      ((((s.plot p.val).steer j.val).r.map BitVec.toNat).getD 0)
      ((((s.plot p.val).steer j.val).r.map BitVec.toNat).getD 0)) := by
  have hany : (steerInputs ((s.plot p.val).steerMode j.val)).any
      (fun i => !(((s.plot p.val).steer j.val).buf i).isEmpty) = true := by simpa using hw
  show execSkewTimeout p j s = _
  simp [execSkewTimeout, onlyIf, hsw, hj, hany, ht, hp]

/-- Joins 32–47 are the merge units. -/
theorem skewTimeout_of_merge {j : Fin 48} (hsw : s.switchOf p.val = some al) (hj : 32 ≤ j.val)
    (hw : ∃ l ∈ ((s.plot p.val).mergeUnit (j.val - 32)).bufs, l ≠ [])
    (hc : ((s.plot p.val).mergeUnit (j.val - 32)).cur = none)
    (ht : ((s.plot p.val).mergeUnit (j.val - 32)).since +
      s.skewNs p.val (416 + 2 * (j.val - 32)) (384 + (j.val - 32)) 2 1 ≤ s.ns)
    (hp : s.joinPaused p.val (416 + 2 * (j.val - 32)) (384 + (j.val - 32)) 2 1 = false) :
    exec (.skewTimeout p j) s = .next (s.skewFault p.val
      (416 + 2 * (j.val - 32) + (if ((s.plot p.val).mergeUnit (j.val - 32)).buf 0 = [] then 0 else 1))
      ((((s.plot p.val).mergeUnit (j.val - 32)).seq.map BitVec.toNat).getD 0)
      ((((s.plot p.val).mergeUnit (j.val - 32)).seq.map BitVec.toNat).getD 0)) := by
  have hnj : ¬ j.val < 32 := Nat.not_lt.mpr hj
  have hany : ((s.plot p.val).mergeUnit (j.val - 32)).bufs.any (fun l => !l.isEmpty) = true := by simpa using hw
  show execSkewTimeout p j s = _
  simp [execSkewTimeout, onlyIf, hsw, hnj, hany, hc, ht, hp]

end

/-- Settles O27: each event of the switch has the lemma above for the way in which it goes. -/
theorem promenadeCompletes : Obligations.PromenadeCompletes := by
  intro p al s hsw
  refine ⟨fun src b hb => ?beat, fun u r items own => steeringResolve_of_go hsw,
    fun m w a b => ?merge, fun j => skewTimeout_of_steer hsw, fun j => skewTimeout_of_merge hsw⟩
  case beat =>
    exact ⟨⟨beatArrival_of_clean hsw hb, beatArrival_of_corrected hsw hb⟩, beatArrival_of_uncorrectable hsw hb⟩
  case merge =>
    intro x room put hm
    refine ⟨fun hc => ⟨?streams, fun hne => ?strays⟩, fun hc hroom ha hb => ⟨?sends, fun hne => ?disagrees⟩⟩
    case streams => exact (mergeEmit_of_cur true hsw hm hc).trans (congrArg _ (if_neg (by simp)))
    case strays => exact (mergeEmit_of_cur false hsw hm hc).trans (congrArg _ (if_pos ⟨rfl, hne⟩))
    case sends => exact (mergeEmit_of_heads true hsw hm hc hroom ha hb).trans (if_neg (by simp))
    case disagrees => exact (mergeEmit_of_heads false hsw hm hc hroom ha hb).trans (if_pos ⟨rfl, hne⟩)

end Sys2Proof.Machine

/-! Completion of the writes of settings (R126, R312, R355, R356, R367, R370, R417, R473). Each such command is a write of one object
of the dictionary, so that what a write does that passes its checks, what the object's number selects, and the value that its bytes
spell settle it. -/

namespace Sys2Proof.Machine

/-! ### Values as bytes (R338, R552) -/

theorem length_natLE (n v : Nat) : (natLE n v).length = n := by
  induction n generalizing v with
  | zero => rfl
  | succ n ih => simp [natLE, ih]

theorem leNat_natLE (n v : Nat) : leNat (natLE n v) = v % 256 ^ n := by
  induction n generalizing v with
  | zero => simp [natLE, leNat, Nat.mod_one]
  | succ n ih =>
    have hb : (BitVec.ofNat 8 v).toNat = v % 256 := BitVec.toNat_ofNat v 8
    rw [natLE, leNat, ih, hb, Nat.pow_succ', Nat.mod_mul]

/-- The bytes of a word spell it. -/
theorem leNat_natLE_toNat {w : Nat} (n : Nat) (v : BitVec w) (hw : w = 8 * n) : leNat (natLE n v.toNat) = v.toNat := by
  rw [leNat_natLE, Nat.mod_eq_of_lt]
  calc v.toNat < 2 ^ w := v.isLt
    _ = (2 ^ 8) ^ n := by rw [hw, Nat.pow_mul]

theorem leNat_byte (v : Byte) : leNat [v] = v.toNat := by simp [leNat]

/-! ### Writes that pass their checks (R345–R349) -/

/-- The answer to a write: its abort code, 0 for success, and the state with that answer. -/
def State.answered (r : Requester) (w : Nat × State) : State := w.2.emit (.answer r (BitVec.ofNat 16 w.1) [])

section
variable {s : State} {r : Requester} {i sub : Nat} {x : Nat × State}

theorem putObject_of_check {l : List Byte} (h : s.writeCheck r i sub l.length = 0)
    (hx : s.writeObject r i sub l false = x) : s.putObject r i sub l = State.answered r x := by
  simp [State.putObject, State.dictWrite, State.answered, State.answer, h, hx]

/-- The write of a word of n bytes, of whose bytes only the value matters. -/
theorem putObject_of_word {w : Nat} (n : Nat) (v : BitVec w) (hn : w = 8 * n) (h : s.writeCheck r i sub n = 0)
    (hx : ∀ l, leNat l = v.toNat → s.writeObject r i sub l false = x) :
    s.putObject r i sub (natLE n v.toNat) = State.answered r x :=
  putObject_of_check (by rwa [length_natLE]) (hx _ (leNat_natLE_toNat n v hn))

theorem putObject_of_byte (v : Byte) (h : s.writeCheck r i sub 1 = 0)
    (hx : ∀ l, leNat l = v.toNat → s.writeObject r i sub l false = x) :
    s.putObject r i sub [v] = State.answered r x :=
  putObject_of_check h (hx _ (leNat_byte v))

end

/-! ### What an object's number selects (R355) -/

section
variable (s : State) (r : Requester) {l : List Byte}

theorem writeObject_forecast (p : PavIx) (b : BitVec 64) (hl : leNat l = b.toNat) :
    s.writeObject r (0x2200 + p.val) 9 l false = (0, s.rearm p.val b) := by
  simp (disch := omega) [State.writeObject, blockOnly, if_neg, if_pos, hl]

theorem writeObject_allot (a : AllotIx) (sub : Nat) :
    s.writeObject r (0x2400 + a.val) sub l false = s.allotWriteObj a.val sub (leNat l) l := by
  simp (disch := omega) [State.writeObject, blockOnly, if_neg, if_pos]

theorem writeObject_overlay (a : AllotIx) (v : BitVec 8) (hl : leNat l = v.toNat) :
    s.writeObject r (0x2400 + a.val) 13 l false = s.overlayWrite a.val v.toNat := by
  rw [writeObject_allot, hl]
  rfl

/-- R312, R382: with no LAUNCH of the allotment, a mode that its plots allow is in force at once. -/
theorem writeObject_attach (a : AllotIx) (v : BitVec 8) (hv : v.toNat ≤ 1) (hd : s.directOk (s.allot a.val).plots = true)
    (hj : (s.allot a.val).launchJob = none) (hl : leNat l = v.toNat) :
    s.writeObject r (0x2400 + a.val) 7 l false =
      (0, s.modAllot a.val (fun y => { y with attach := v, attachPending := none })) := by
  rw [writeObject_allot, hl]
  simp [State.allotWriteObj, State.attachWrite, Nat.not_lt.mpr hv, hd, hj]

theorem writeObject_serverPorts (a : AllotIx) (v : BitVec 16) (hl : leNat l = v.toNat) :
    s.writeObject r (0x2400 + a.val) 10 l false = s.portsWrite a.val v := by
  rw [writeObject_allot, hl]
  simp [State.allotWriteObj]

theorem writeObject_powerCap (v : BitVec 32) (hlo : 16000 ≤ v.toNat) (hhi : v.toNat ≤ 46000) (hl : leNat l = v.toNat) :
    s.writeObject r 0x3000 1 l false = (0, s.keepSet (fun x => { x with powerCap := v })) := by
  simp [State.writeObject, blockOnly, ranged, hl, hlo, hhi]

theorem writeObject_activeBase (v : BitVec 8) (hv : v.toNat ≤ 63) (hl : leNat l = v.toNat) :
    s.writeObject r 0x4000 3 l false = (0, s.keepSet (fun x => { x with activeBase := v })) := by
  simp [State.writeObject, blockOnly, ranged, hl, hv]

theorem writeObject_erase (n : Fin 64) (hn : n.val ≠ 0) (hu : s.slotInUse n.val = false) (hl : leNat l = 1) :
    s.writeObject r (0x4000 + n.val) 6 l false = (0, s.emptySlot n.val) := by
  simp (disch := omega) [State.writeObject, State.eraseWrite, blockOnly, if_neg, if_pos, hl, hu]

theorem writeObject_logPosition (v : BitVec 32) (hl : leNat l = v.toNat) :
    s.writeObject r 0x5080 2 l false = (0, s.setPosition r v.toNat) := by
  simp [State.writeObject, blockOnly, hl]

theorem writeObject_logClear (hl : leNat l = 1) : s.writeObject r 0x5080 5 l false = (0, s.clearLog) := by
  simp [State.writeObject, blockOnly, hl]

end

/-- Settles O36: each command is the write of a byte or a word to its object, whose own effect is the state given. -/
theorem settingsComplete : Obligations.SettingsComplete := by
  intro r s
  refine ⟨fun p b h => ?rearm, fun a v h => ?overlay, fun a v h hv hd hj => ?attach,
    fun a v h => ?ports, fun v h hlo hhi => ?powerCap, fun v h hv => ?activeBase,
    fun n hn h hu => ?erase, fun v h => ?position, fun h => ?clear⟩
  case rearm => exact congrArg Host.Outcome.next (putObject_of_word 8 b rfl h fun _ => writeObject_forecast s r p b)
  case overlay => exact congrArg Host.Outcome.next (putObject_of_byte v h fun _ => writeObject_overlay s r a v)
  case attach => exact congrArg Host.Outcome.next (putObject_of_byte v h fun _ => writeObject_attach s r a v hv hd hj)
  case ports => exact congrArg Host.Outcome.next (putObject_of_word 2 v rfl h fun _ => writeObject_serverPorts s r a v)
  case powerCap => exact congrArg Host.Outcome.next (putObject_of_word 4 v rfl h fun _ => writeObject_powerCap s r v hlo hhi)
  case activeBase => exact congrArg Host.Outcome.next (putObject_of_byte v h fun _ => writeObject_activeBase s r v hv)
  case erase => exact congrArg Host.Outcome.next (putObject_of_byte 1 h fun _ => writeObject_erase s r n hn hu)
  case position => exact congrArg Host.Outcome.next (putObject_of_word 4 v rfl h fun _ => writeObject_logPosition s r v)
  case clear => exact congrArg Host.Outcome.next (putObject_of_byte 1 h fun _ => writeObject_logClear s r)

end Sys2Proof.Machine

/-! Completion of the vector engine's arithmetic, integer, predicate, reduction, gather and flag instructions (R134–R146). What an
effect computes plays no part in it: a command of `VeRuns` completes with any effect (`VeRuns.completes`), so each command needs only
the equation that names its opcode and its effect. -/

namespace Sys2Proof.Machine

/-! ### Arithmetic, selection of extremes and moves (R135, R141) -/

theorem veRuns_vadd : VeRuns .vadd 0x40 vaddEff := fun _ _ _ _ _ => rfl
theorem veRuns_vsub : VeRuns .vsub 0x41 vsubEff := fun _ _ _ _ _ => rfl
theorem veRuns_vmul : VeRuns .vmul 0x42 vmulEff := fun _ _ _ _ _ => rfl
theorem veRuns_vfma : VeRuns .vfma 0x43 vfmaEff := fun _ _ _ _ _ => rfl
theorem veRuns_vfmai : VeRuns .vfmai 0x44 vfmaiEff := fun _ _ _ _ _ => rfl
theorem veRuns_vaddi : VeRuns .vaddi 0x45 vaddiEff := fun _ _ _ _ _ => rfl
theorem veRuns_vmuli : VeRuns .vmuli 0x46 vmuliEff := fun _ _ _ _ _ => rfl
theorem veRuns_vmax : VeRuns .vmax 0x47 vmaxEff := fun _ _ _ _ _ => rfl
theorem veRuns_vmin : VeRuns .vmin 0x48 vminEff := fun _ _ _ _ _ => rfl
theorem veRuns_vabs : VeRuns .vabs 0x49 vabsEff := fun _ _ _ _ _ => rfl
theorem veRuns_vneg : VeRuns .vneg 0x4A vnegEff := fun _ _ _ _ _ => rfl
theorem veRuns_vbcast : VeRuns .vbcast 0x4B vbcastEff := fun _ _ _ _ _ => rfl

/-- Settles O5: each of the twelve commands issues through `State.runVe` with its opcode and effect, so it completes when it can
issue. -/
theorem vectorArithmeticCompletes : Obligations.VectorArithmeticCompletes :=
  ⟨veRuns_vadd.completes, veRuns_vsub.completes, veRuns_vmul.completes, veRuns_vfma.completes, veRuns_vfmai.completes,
    veRuns_vaddi.completes, veRuns_vmuli.completes, veRuns_vmax.completes, veRuns_vmin.completes, veRuns_vabs.completes,
    veRuns_vneg.completes, veRuns_vbcast.completes⟩

/-! ### Integers, compares, selects and predicates (R138, R141, R142) -/

theorem veRuns_viadd : VeRuns .viadd 0x4C viaddEff := fun _ _ _ _ _ => rfl
theorem veRuns_vimul : VeRuns .vimul 0x4D vimulEff := fun _ _ _ _ _ => rfl
theorem veRuns_vilog : VeRuns .vilog 0x4E vilogEff := fun _ _ _ _ _ => rfl
theorem veRuns_vishi : VeRuns .vishi 0x4F vishiEff := fun _ _ _ _ _ => rfl
theorem veRuns_vcmp : VeRuns .vcmp 0x50 vcmpEff := fun _ _ _ _ _ => rfl
theorem veRuns_vcmpi : VeRuns .vcmpi 0x51 vcmpiEff := fun _ _ _ _ _ => rfl
theorem veRuns_vicmp : VeRuns .vicmp 0x52 vicmpEff := fun _ _ _ _ _ => rfl
theorem veRuns_vsel : VeRuns .vsel 0x53 vselEff := fun _ _ _ _ _ => rfl
theorem veRuns_vpst : VeRuns .vpst 0x54 vpstEff := fun _ _ _ _ _ => rfl
theorem veRuns_vpld : VeRuns .vpld 0x55 vpldEff := fun _ _ _ _ _ => rfl
theorem veRuns_vpcnt : VeRuns .vpcnt 0x56 vpcntEff := fun _ _ _ _ _ => rfl

/-- Settles O6: a command whose effect writes a predicate register issues through `State.runVe` as one that writes a vector does. -/
theorem vectorIntegerCompletes : Obligations.VectorIntegerCompletes :=
  ⟨veRuns_viadd.completes, veRuns_vimul.completes, veRuns_vilog.completes, veRuns_vishi.completes, veRuns_vcmp.completes,
    veRuns_vcmpi.completes, veRuns_vicmp.completes, veRuns_vsel.completes, veRuns_vpst.completes, veRuns_vpld.completes,
    veRuns_vpcnt.completes⟩

/-! ### Reductions, scans, gathers and VFLAGS (R143, R144, R146) -/

theorem veRuns_vred : VeRuns .vred 0x68 vredEff := fun _ _ _ _ _ => rfl
theorem veRuns_vscan : VeRuns .vscan 0x69 vscanEff := fun _ _ _ _ _ => rfl
theorem veRuns_vgath : VeRuns .vgath 0x70 vgathEff := fun _ _ _ _ _ => rfl
theorem veRuns_vflags : VeRuns .vflags 0x78 vflagsEff := fun _ _ _ _ _ => rfl

/-- Settles O8: the reductions, the gather and VFLAGS issue through `State.runVe` as the element-wise commands do. -/
theorem vectorReduceCompletes : Obligations.VectorReduceCompletes :=
  ⟨veRuns_vred.completes, veRuns_vscan.completes, veRuns_vgath.completes, veRuns_vflags.completes⟩

end Sys2Proof.Machine

/-! Completion of the unpack path's instructions (R162, R172). Each is an issue that is no tile pass, so that all that it does when it
can go is its effect, on the pitches that its stream held before it issued. -/

namespace Sys2Proof.Machine

/-! ### What the unpack path's instructions run (R162, R172) -/

theorem exec_munpk (p : PavIx) (i : StreamIx) (w : Body) (c : Chk) (s : State) :
    exec (.munpk p i w c) s = s.instr p i 0x18 w (fun u => u.issue p.val i.val 0x18
      (munpkIssue ((u.pav p.val).seq.stream i.val) w.toNat)
      (munpkEff p.val i.val w.toNat c ((u.pav p.val).seq.stream i.val))) := rfl

theorem exec_mpack (p : PavIx) (i : StreamIx) (w : Body) (c : Chk) (s : State) :
    exec (.mpack p i w c) s = s.instr p i 0x1C w (fun u => u.issue p.val i.val 0x1C
      (mpackIssue ((u.pav p.val).seq.stream i.val) w.toNat)
      (mpackEff p.val i.val w.toNat c ((u.pav p.val).seq.stream i.val))) := rfl

/-! ### Neither is a tile pass of the cadence (R167) -/

theorem munpkIssue_notPass (t : Strm) (n : Nat) (o : Option Bool) : (munpkIssue t n).cad ≠ .pass o := by simp [munpkIssue]

theorem mpackIssue_notPass (t : Strm) (n : Nat) (o : Option Bool) : (mpackIssue t n).cad ≠ .pass o := by simp [mpackIssue]

/-- Settles O4: neither MUNPK nor MPACK is a tile pass, so its effect, with every square of its tile, is all that its issue does. -/
theorem unpackCompletes : Obligations.UnpackCompletes := by
  intro p i w c s n t
  refine ⟨fun h => ?munpk, fun h => ?mpack⟩
  case munpk =>
    rw [exec_munpk, instr_issue_go s p i 0x18 w (fun u => munpkIssue ((u.pav p.val).seq.stream i.val) n) _ h
      (munpkIssue_notPass t n)]
  case mpack =>
    rw [exec_mpack, instr_issue_go s p i 0x1C w (fun u => mpackIssue ((u.pav p.val).seq.stream i.val) n) _ h
      (mpackIssue_notPass t n)]

end Sys2Proof.Machine

/-! Completion of the cell cores' instructions that reach no memory (R206–R213). An instruction of a core that can issue does what
its meaning makes of that core (`onCore_of_runs`), so that each takes one equation between values. -/

namespace Sys2Proof.Machine

/-! ### Registers (R206) -/

/-- g0 reads zero whatever is written; a register written reads the value, and the others are left. -/
theorem Core.reg_set (k : Core) (gd g : RegIx) (v : Word) (hk : k.regs.length = 32) :
    (k.set gd v).reg g = if g = 0 then 0 else if g = gd then v else k.reg g := by
  by_cases hg : g = 0
  · simp [Core.reg, hg]
  · by_cases hd : g = gd
    · subst hd
      have hlen : g.val < k.regs.length := by omega
      simp [Core.reg, Core.set, lget, hg, hlen]
    · have hne : gd.val ≠ g.val := fun h => hd (Fin.ext h.symm)
      by_cases h0 : gd = 0 <;> simp [Core.reg, Core.set, lget, hg, hd, h0, hne]

@[simp] theorem Core.set_zero (k : Core) (v : Word) : k.set 0 v = k := if_pos rfl

/-- Writing a register changes the registers alone. -/
theorem Core.set_eq (k : Core) (gd : RegIx) (v : Word) : k.set gd v = { k with regs := (k.set gd v).regs } := by
  unfold Core.set
  split <;> rfl

/-- Settles O13: a result is a register written, which `Core.reg_set` and `Core.set_eq` describe, and the next instruction. -/
theorem coreResultWrites : Obligations.CoreResultWrites := by
  intro k gd g v hk
  have hset := Core.set_eq k gd v
  refine ⟨Core.reg_set k gd g v hk, ?pc, ?others, fun h0 => ?zero⟩
  case pc => rw [Core.result, Core.advance, hset]
  case others =>
    calc k.result gd v = (k.set gd v).advance := rfl
      _ = _ := by rw [hset]; rfl
  case zero =>
    calc (k.result gd v).regs = (k.set gd v).regs := rfl
      _ = k.regs := by rw [h0, Core.set_zero]

/-! ### Instructions of a core that can issue (R208) -/

section
variable {c : CellXY} {p n : Nat} {s : State}

theorem onCore_of_runs (hc : cellNo c = some (p, n)) (hr : s.coreRuns p n = true) (f : Nat → Nat → Core → State) :
    s.onCore c f = .next (f p n ((s.pav p).core n)) := by
  simp [State.onCore, hc, onlyIf_of_true _ _ hr]

theorem alu_of_runs (hc : cellNo c = some (p, n)) (hr : s.coreRuns p n = true) (gd : RegIx) (f : Core → Word) (v : Word)
    (hv : f ((s.pav p).core n) = v) : s.alu c gd f = .next (s.setCore p n (((s.pav p).core n).result gd v)) := by
  rw [State.alu, onCore_of_runs hc hr, hv]

end

/-! ### Results of the integer instructions (R208, R209) -/

/-- A choice by a comparison is one by the numbers that the words stand for. -/
theorem ite_ult {α : Type} (x y : Word) (a b : α) : (if x.ult y then a else b) = if x.toNat < y.toNat then a else b := by
  simp [BitVec.ult]

theorem ite_slt {α : Type} (x y : Word) (a b : α) : (if x.slt y then a else b) = if x.toInt < y.toInt then a else b := by
  simp [BitVec.slt]

/-- R209: imm21 in bits [31:11] is imm21 times 2^11. -/
theorem immediate_append (imm : BitVec 21) : imm ++ (0 : BitVec 11) = BitVec.ofNat 32 (2048 * imm.toNat) := by
  apply BitVec.eq_of_toNat_eq
  have hlt : imm.toNat < 2 ^ 21 := imm.isLt
  rw [BitVec.toNat_append, BitVec.toNat_ofNat, Nat.shiftLeft_eq]
  simp
  omega

theorem mul_eq_ofNat (x y : Word) : x * y = BitVec.ofNat 32 (x.toNat * y.toNat) := by
  apply BitVec.eq_of_toNat_eq
  simp

/-- Settles O14: each instruction writes a result that the lemmas above bring to the manual's form. -/
theorem coreIntegerCompletes : Obligations.CoreIntegerCompletes := by
  intro c p n s hc hr gd ga gb b imm k x y z r
  have writes := fun (f : Core → Word) (v : Word) => alu_of_runs hc hr gd f (v := v)
  refine ⟨?add, ?sub, ?and, ?or, ?xor, ?below, ?less, ?min, ?max, ?upper, ?low, ?high, ?highUnsigned⟩
  case add => exact writes (fun k => k.reg ga + k.src b) _ rfl
  case sub => exact writes (fun k => k.reg ga - k.src b) _ rfl
  case and => exact writes (fun k => k.reg ga &&& k.src b) _ rfl
  case or => exact writes (fun k => k.reg ga ||| k.src b) _ rfl
  case xor => exact writes (fun k => k.reg ga ^^^ k.src b) _ rfl
  case below => exact writes (fun k => if (k.reg ga).ult (k.src b) then 1 else 0) _ (ite_ult x y 1 0)
  case less => exact writes (fun k => if (k.reg ga).slt (k.src b) then 1 else 0) _ (ite_slt x y 1 0)
  case min => exact writes (fun k => if (k.reg ga).slt (k.src b) then k.reg ga else k.src b) _ (ite_slt x y x y)
  case max => exact writes (fun k => if (k.reg ga).slt (k.src b) then k.src b else k.reg ga) _ (ite_slt x y y x)
  case upper => exact writes (fun _ => imm ++ (0 : BitVec 11)) _ (immediate_append imm)
  case low => exact writes (fun k => k.reg ga * k.reg gb) _ (mul_eq_ofNat x z)
  case high => exact writes (fun k => mulHigh (k.reg ga) (k.reg gb)) _ rfl
  case highUnsigned => exact writes (fun k => BitVec.ofNat 32 ((k.reg ga).toNat * (k.reg gb).toNat / 2 ^ 32)) _ rfl

/-! ### Branches, jumps, signals and waits (R208, R209, R213) -/

theorem exec_compareAndBranch (c : CellXY) (cond : BranchCond) (ga gb : RegIx) (off : BitVec 16) (s : State) :
    exec (.compareAndBranch c cond ga gb off) s = s.onCore c (fun p n k => s.setCore p n
      (if branchTaken cond (k.reg ga) (k.reg gb) then k.goto (off.signExtend 32) else k.advance)) := rfl

theorem exec_wfe (c : CellXY) (s : State) :
    exec (.wfe c) s = s.onCore c (fun p n k => s.setCore p n
      (if k.watchHit then { k.advance with watchHit := false } else { k.advance with suspended := true })) := rfl

/-- Settles O19: a branch and a wfe go the way that their condition says, and the others have one way each. -/
theorem coreFlowCompletes : Obligations.CoreFlowCompletes := by
  intro c p n s hc hr cond gd ga gb off far k r
  have runs := onCore_of_runs hc hr
  refine ⟨fun h => ?taken, fun h => ?passed, ?jump, ?link, ?signal, ?counter, fun h => ?hit, fun h => ?waits, ?fence⟩
  case taken =>
    rw [exec_compareAndBranch, runs, if_pos h]
    rfl
  case passed => rw [exec_compareAndBranch, runs, if_neg (ne_true_of_eq_false h)]
  case jump => exact runs (fun p n k => s.setCore p n (k.goto (far.signExtend 32)))
  case link => exact runs (fun p n k => s.setCore p n ((k.goto (far.signExtend 32)).set Config.linkReg (k.pc + 4)))
  case signal =>
    exact runs (fun p n k => (s.setCore p n k.advance).emit
      (.packet (signalPacket p n ((k.reg ga).toNat % 16) (k.reg gb).toNat)))
  case counter => exact runs (fun p n k => s.setCore p n (k.result gd (lget 0 (s.pav p).seq.ctrs ((k.reg ga).toNat % 16))))
  case hit =>
    rw [exec_wfe, runs, if_pos h]
    rfl
  case waits =>
    rw [exec_wfe, runs, if_neg (ne_true_of_eq_false h)]
    rfl
  case fence => exact runs (fun p n k => s.setCore p n k.advance)

/-- Settles O20: a suspended core whose row has been written meets the condition of its wake. -/
theorem coreWakes : Obligations.CoreWakes := by
  intro c p n s hc k hs hw hh hg
  show execWfeWake c s = _
  rw [execWfeWake, hc]
  exact onlyIf_of_true _ _ (by simp [hs, hw, hh, hg, k])

end Sys2Proof.Machine

/-! Loads and stores of the cell cores, where they trap, and the frame of a store (R208, R210, R214, R237, R450). A store to a row
without errors writes that row once, with the stored bytes merged in, after the keep copy that it may make. -/

namespace Sys2Proof.Machine

/-! ### Where a core's address leads (R210; log 78) -/

section
variable {x : Pav} {n size a : Nat} {m : Bool}

theorem coreAddr_misaligned (h : a % size ≠ 0) : x.coreAddr n m a size = .inr causeMisaligned := if_pos h

theorem coreAddr_outside (ha : a % size = 0) (hp : x.pool.getLsbD (poolBlock n) = false)
    (h : 0x40000 ≤ a ∨ (m = false ∧ 0x3F000 ≤ a)) : x.coreAddr n m a size = .inr causeMonitor := by
  have hout : 0x40000 ≤ a ∨ (m = false ∧ 0x3F000 ≤ a % 0x40000) := by
    rcases h with h | ⟨hm, h⟩
    · exact .inl h
    · by_cases hc : 0x40000 ≤ a
      · exact .inl hc
      · exact .inr ⟨hm, by omega⟩
  simp [Pav.coreAddr, ha, hp, hout]

theorem coreAddr_own (ha : a % size = 0) (hp : x.pool.getLsbD (poolBlock n) = false) (h : a < 0x3F000) :
    x.coreAddr n m a size = .inl (0x40000 * n + a) := by
  have hc : a < 0x40000 := by omega
  simp [Pav.coreAddr, ha, hp, hc, h, Nat.div_eq_of_lt hc, Nat.mod_eq_of_lt hc]

end

section
variable {s : State} {p n a size : Nat} {k : Core}

theorem access_of_trap {t : Nat} (f : Nat → State) (h : (s.pav p).coreAddr n k.monitor a size = .inr t) :
    s.access p n k a size f = s.trapStop p n t := by simp [State.access, h]

/-- An aligned access below the monitor region of a core's own cell reaches it in either mode. -/
theorem access_own (f : Nat → State) (ha : a % size = 0) (hp : (s.pav p).pool.getLsbD (poolBlock n) = false) (h : a < 0x3F000) :
    s.access p n k a size f = f (0x40000 * n + a) := by simp [State.access, coreAddr_own ha hp h]

end

/-! ### What the loads and stores run (R208, R210) -/

section
variable (c : CellXY) (z : MemSize) (gd ga : RegIx) (off : BitVec 16) (s : State)

theorem exec_ld : exec (.ld c z gd ga off) s =
    s.onCore c (fun p n k => s.access p n k (k.address ga off) (MemSize.bytes z) (fun a =>
      s.fresh.2.coreLoad p n a (MemSize.bytes z) causePoison
        (fun v k => k.result gd (loaded z v (Config.free32 s.fresh.1))))) := rfl

theorem exec_st : exec (.st c z gd ga off) s =
    s.onCore c (fun p n k => s.access p n k (k.address ga off) (MemSize.bytes z) (fun a =>
      (s.setCore p n k.advance).coreStore p a (MemSize.bytes z) (k.reg gd).toNat)) := rfl

theorem exec_ldp : exec (.ldp c gd ga off) s =
    s.onCore c (fun p n k => if gd.val % 2 = 1 then s.trapStop p n causeUndefined
      else s.access p n k (k.address ga off) 8 (fun a => s.coreLoad p n a 8 causePoison
        (fun v k => (k.set gd (BitVec.ofNat 32 v)).result (pairHigh gd) (BitVec.ofNat 32 (v / 2 ^ 32))))) := rfl

theorem exec_stp : exec (.stp c gd ga off) s =
    s.onCore c (fun p n k => if gd.val % 2 = 1 then s.trapStop p n causeUndefined
      else s.access p n k (k.address ga off) 8 (fun a => (s.setCore p n k.advance).coreStore p a 8
        ((k.reg gd).toNat + 2 ^ 32 * (k.reg (pairHigh gd)).toNat))) := rfl

end

/-- Settles O18: the address, or the odd register, gives the trap's cause. -/
theorem coreAccessTraps : Obligations.CoreAccessTraps := by
  intro c p n s hc hr z gd ga off k a stop
  have runs := onCore_of_runs hc hr
  have traps : ∀ {t : Nat}, (s.pav p).coreAddr n k.monitor a (MemSize.bytes z) = .inr t →
      exec (.ld c z gd ga off) s = stop t ∧ exec (.st c z gd ga off) s = stop t := fun h => by
    rw [exec_ld, exec_st, runs, runs, access_of_trap _ h, access_of_trap _ h]
    exact ⟨rfl, rfl⟩
  refine ⟨fun h => traps (coreAddr_misaligned h), fun hz hp h => traps (coreAddr_outside hz hp h), fun h => ?odd⟩
  case odd =>
    rw [exec_ldp, exec_stp, runs, runs, if_pos h, if_pos h]
    exact ⟨rfl, rfl⟩

/-! ### Rows without errors (R234–R237) -/

/-- The bytes that the garden stores for a pavilion-local row (R219). -/
def State.storedRow (s : State) (p row : Nat) : List Byte :=
  memRead (s.pav p).garden.bytes (64 * s.gardenRow p (64 * row)) 64

@[simp] theorem length_storedRow (s : State) (p row : Nat) : (s.storedRow p row).length = 64 := by simp [State.storedRow, memRead]

/-- The garden row that an address's row leads to has neither poison nor errors. -/
def State.CleanRow (s : State) (p row : Nat) : Prop := (s.pav p).garden.rowMeta (s.gardenRow p (64 * row)) = RowMeta.clean

section
variable {s : State} {p row : Nat}

theorem gardenTake_clean (merge : Bool) (h : s.CleanRow p row) : s.gardenTake p row merge = ((s.storedRow p row, false), s) := by
  unfold State.CleanRow at h
  simp [State.storedRow, State.gardenTake, State.gardenSeen, Store.correct, Store.beyond, Seen.bad, sramCode, h, RowMeta.clean]

/-- A load from a row without errors leaves the garden as it is. -/
theorem coreLoad_clean {n a size cause : Nat} (f : Nat → Core → Core) (h : s.CleanRow p (a / 64)) :
    s.coreLoad p n a size cause f =
      s.setCore p n (f (leNat (bslice (s.storedRow p (a / 64)) (a % 64) size)) ((s.pav p).core n)) := by
  simp [State.coreLoad, State.gardenRead, gardenTake_clean false h]

end

/-- Settles O17: an access to a row of the core's own cell, delivered clean, reads or merges that row. -/
theorem coreMemoryCompletes : Obligations.CoreMemoryCompletes := by
  intro c p n s hc hr _ z gd ga off k a g row ha hp
  have runs := onCore_of_runs hc hr
  have even : gd.val % 2 = 0 → ¬ gd.val % 2 = 1 := by omega
  refine ⟨fun hz hm => ?ld, fun hz => ?st, fun hz hg hm => ?ldp, fun hz hg => ?stp⟩
  case ld =>
    rw [exec_ld, runs, access_own _ hz hp ha, coreLoad_clean (s := s.fresh.2) _ hm]
    rfl
  case st => rw [exec_st, runs, access_own _ hz hp ha]
  case ldp =>
    rw [exec_ldp, runs, if_neg (even hg), access_own _ hz hp ha, coreLoad_clean _ hm]
    rfl
  case stp => rw [exec_stp, runs, if_neg (even hg), access_own _ hz hp ha]

/-! ### A byte of a row that is written -/

theorem memByte_of_absent {m : List Host.Cell} {k : Nat} (h : ∀ e ∈ m, e.1 ≠ k) : memByte m k = 0 := by
  induction m with
  | nil => rfl
  | cons e m ih =>
    rw [memByte, if_neg (h e List.mem_cons_self)]
    exact ih fun e' he' => h e' (List.mem_cons_of_mem _ he')

/-- A byte that the memory does not list reads as it is written, in canonical form or not. -/
theorem memByte_memSet_of_absent {m : List Host.Cell} {k : Nat} (v : Byte) (h : ∀ e ∈ m, e.1 ≠ k) :
    memByte (memSet m k v) k = v := by
  induction m with
  | nil => by_cases hv : v = 0#8 <;> simp [memSet, memByte, hv]
  | cons e m ih =>
    obtain ⟨j, u⟩ := e
    have hj : j ≠ k := h (j, u) List.mem_cons_self
    have ht : ∀ e ∈ m, e.1 ≠ k := fun e he => h e (List.mem_cons_of_mem _ he)
    by_cases hlt : k < j
    · by_cases hv : v = 0#8 <;> simp [memSet, memByte, hv, hlt, hj, memByte_of_absent ht]
    · simp [memSet, memByte, hlt, hj, Ne.symm hj, ih ht]

theorem mem_memSet {m : List Host.Cell} {k : Nat} {v : Byte} {e : Host.Cell} (h : e ∈ memSet m k v) : e ∈ m ∨ e.1 = k := by
  have hput : ∀ {t l : List Host.Cell}, e ∈ (if v = 0 then t else (k, v) :: l) → (e ∈ t ∨ e ∈ l) ∨ e.1 = k := fun he => by
    split at he
    · exact .inl (.inl he)
    · exact (List.mem_cons.mp he).elim (fun hk => .inr (congrArg Prod.fst hk)) (fun hl => .inl (.inr hl))
  induction m with
  | nil => simpa using hput (t := []) (l := []) h
  | cons x m ih =>
    obtain ⟨j, u⟩ := x
    rw [memSet] at h
    split at h
    · simpa using hput h
    · split at h
      · exact (hput h).imp_left fun ht => List.mem_cons_of_mem _ (or_self_iff.mp ht)
      · exact (List.mem_cons.mp h).elim (fun hx => .inl (hx ▸ List.mem_cons_self))
          (fun ht => (ih ht).imp_left (List.mem_cons_of_mem _))

/-- The bytes that a write puts where nothing is listed. -/
theorem memByte_memWrite_of_absent {d : List Byte} {m : List Host.Cell} {a j : Nat}
    (h : ∀ e ∈ m, e.1 < a ∨ a + d.length ≤ e.1) (hj : j < d.length) : memByte (memWrite m a d) (a + j) = lget 0 d j := by
  induction d generalizing m a j with
  | nil => exact absurd hj (Nat.not_lt_zero j)
  | cons b d ih =>
    rw [List.length_cons] at h hj
    cases j with
    | zero =>
      have hm : ∀ e ∈ m, e.1 ≠ a := fun e he => by have := h e he; omega
      rw [memWrite, memByte_memWrite_other _ _ _ _ (by omega)]
      exact memByte_memSet_of_absent b hm
    | succ j =>
      have hset : ∀ e ∈ memSet m a b, e.1 < a + 1 ∨ a + 1 + d.length ≤ e.1 := fun e he => by
        rcases mem_memSet he with hm | rfl
        · have := h e hm
          omega
        · omega
      rw [memWrite, Nat.add_comm j 1, ← Nat.add_assoc]
      simpa [lget, Nat.add_comm 1 j] using ih hset (Nat.lt_of_succ_lt_succ hj)

theorem memByte_memZero_out {m : List Host.Cell} {a n k : Nat} (h : k < a ∨ a + n ≤ k) :
    memByte (memZero m a n) k = memByte m k := by
  induction m with
  | nil => rfl
  | cons e m ih =>
    obtain ⟨j, u⟩ := e
    rw [memZero] at ih ⊢
    rw [List.filter_cons]
    split
    · simp only [memByte, ih]
    · rename_i hj
      have hne : j ≠ k := by
        rintro rfl
        simp [h] at hj
      rw [ih, memByte, if_neg hne]

section
variable (m : Store) (row : Nat) (d : List Byte) (poison : Bool)

theorem bytes_putRow : (m.putRow row d poison).bytes =
    memWrite (memZero m.bytes (64 * row) 64) (64 * row) (bslice d 0 64) := Store.bytes_setMeta _ _ _

theorem length_bslice (o n : Nat) : (bslice d o n).length = n := by
  simp only [bslice, List.length_append, List.length_replicate]
  have := List.length_take_le n (d.drop o)
  omega

theorem memByte_putRow_in {j : Nat} (hd : d.length = 64) (hj : j < 64) :
    memByte (m.putRow row d poison).bytes (64 * row + j) = lget 0 d j := by
  have hb : bslice d 0 64 = d := by simp [bslice, hd, List.take_of_length_le (Nat.le_of_eq hd)]
  rw [bytes_putRow, hb]
  refine memByte_memWrite_of_absent (fun e he => ?_) (hd ▸ hj)
  simpa [memZero, hd] using (List.mem_filter.mp he).2

theorem memByte_putRow_out {b : Nat} (hb : b / 64 ≠ row) :
    memByte (m.putRow row d poison).bytes b = memByte m.bytes b := by
  have hout : b < 64 * row ∨ 64 * row + 64 ≤ b := by omega
  rw [bytes_putRow, memByte_memWrite_other _ _ _ _ (by rwa [length_bslice]), memByte_memZero_out hout]

end

/-! ### A row with bytes merged in (R237) -/

/-- Bytes d in place of those of old from o on. -/
def mergeAt (old d : List Byte) (o : Nat) : List Byte := old.take o ++ d ++ old.drop (o + d.length)

section
variable {old d : List Byte} {o j : Nat} (h : o + d.length ≤ old.length)
include h

theorem length_mergeAt : (mergeAt old d o).length = old.length := by
  simp [mergeAt]
  omega

theorem lget_mergeAt_in (hj : j < d.length) : lget 0 (mergeAt old d o) (o + j) = lget 0 d j := by
  have ho : (old.take o).length = o := List.length_take_of_le (by omega)
  have hleft : o + j < (old.take o ++ d).length := by rw [List.length_append, ho]; omega
  rw [mergeAt, lget, lget, List.getD_eq_getElem?_getD, List.getD_eq_getElem?_getD, List.getElem?_append_left hleft,
    List.getElem?_append_right (by omega), ho, Nat.add_sub_cancel_left]

theorem lget_mergeAt_out (hj : j < o ∨ o + d.length ≤ j) : lget 0 (mergeAt old d o) j = lget 0 old j := by
  simp only [mergeAt, lget, List.getD_eq_getElem?_getD]
  grind

end

theorem lget_memRead (m : List Host.Cell) (a : Nat) {n j : Nat} (hj : j < n) : lget 0 (memRead m a n) j = memByte m (a + j) := by
  simp [lget, memRead, hj]

theorem lget_natLE {n j : Nat} (v : Nat) (hj : j < n) : lget 0 (natLE n v) j = BitVec.ofNat 8 (v / 256 ^ j) := by
  induction n generalizing v j with
  | zero => exact absurd hj (Nat.not_lt_zero j)
  | succ n ih =>
    cases j with
    | zero => simp [natLE, lget]
    | succ j =>
      rw [Nat.pow_succ', ← Nat.div_div_eq_div_mul]
      simpa [natLE, lget] using ih (v / 256) (Nat.lt_of_succ_lt_succ hj)

/-- The row of local address a with bytes d merged in at a. -/
def State.mergedRow (s : State) (p a : Nat) (d : List Byte) : List Byte := mergeAt (s.storedRow p (a / 64)) d (a % 64)

section
variable {s : State} {p a : Nat} {d : List Byte}

/-- A write of part of a row without errors merges into it, and reading that row changes nothing. -/
theorem mergeRow_clean (hd : d.length < 64) (h : s.CleanRow p (a / 64)) :
    s.mergeRow p false (a / 64) (a % 64) d false = ((a / 64, s.mergedRow p a d, false), s) := by
  have hpart : ¬ (a % 64 = 0 ∧ d.length = 64) := by omega
  simp [State.mergeRow, hpart, gardenTake_clean true h, State.mergedRow, mergeAt]

theorem length_mergedRow (hd : a % 64 + d.length ≤ 64) : (s.mergedRow p a d).length = 64 := by
  rw [State.mergedRow, length_mergeAt (by simpa using hd), length_storedRow]

theorem lget_mergedRow_in (hd : a % 64 + d.length ≤ 64) {j : Nat} (hj : j < d.length) :
    lget 0 (s.mergedRow p a d) (a % 64 + j) = lget 0 d j := lget_mergeAt_in (by simpa using hd) hj

theorem lget_mergedRow_out (hd : a % 64 + d.length ≤ 64) {j : Nat} (hj : j < a % 64 ∨ a % 64 + d.length ≤ j) (hr : j < 64) :
    lget 0 (s.mergedRow p a d) j = memByte (s.pav p).garden.bytes (64 * s.gardenRow p (64 * (a / 64)) + j) := by
  rw [State.mergedRow, lget_mergeAt_out (by simpa using hd) hj, State.storedRow, lget_memRead _ _ hr]

end

/-! ### What a write of one row changes (R213, R431, R438, R450) -/

/-- HBM and every pavilion but p are in t as in s. -/
def KeepsOthers (p : Nat) (s t : State) : Prop := t.hbm = s.hbm ∧ ∀ q, q ≠ p → t.pav q = s.pav q

theorem KeepsOthers.trans {p : Nat} {s t u : State} (h : KeepsOthers p s t) (g : KeepsOthers p t u) : KeepsOthers p s u :=
  ⟨g.1.trans h.1, fun q hq => (g.2 q hq).trans (h.2 q hq)⟩

theorem setPav_keepsOthers (s : State) (p : Nat) (x : Pav) : KeepsOthers p s (s.setPav p x) :=
  ⟨rfl, fun q hq => State.pav_setPav_other s p q x hq⟩

theorem modPav_keepsOthers (s : State) (p : Nat) (f : Pav → Pav) : KeepsOthers p s (s.modPav p f) := setPav_keepsOthers s p _

/-- A pavilion with a keep copy more, in row e of its garden (R450). -/
def Pav.withKeepCopy (x : Pav) (e : Nat) (d : List Byte × Bool) (k : Keep) : Pav :=
  { x with garden := x.garden.putRow e d.1 d.2, seq := { x.seq with keep := x.seq.keep ++ [k] } }

/-- x is pavilion p of s as it stands, or with a keep copy more in the first free row of its keep store. -/
def State.MayKeep (s : State) (p : Nat) (x : Pav) : Prop :=
  x = s.pav p ∨ ∃ d k, x = (s.pav p).withKeepCopy (freeKeep (s.spareCells p) (s.pav p).seq.keep) d k

/-- A write to a garden makes a keep copy in the first free row of the keep store, or none. -/
theorem keepRow_cases (s : State) (p iv row : Nat) : s.keepRow p false iv row = s ∨ ∃ d k, s.keepRow p false iv row =
    s.fresh.2.setPav p ((s.pav p).withKeepCopy (freeKeep (s.spareCells p) (s.pav p).seq.keep) d k) := by
  simp only [State.keepRow, Bool.false_eq_true, if_false]
  split
  · exact .inr ⟨_, _, rfl⟩
  · exact .inl rfl

/-- The garden of t is that of x with bytes d in garden row r, and its keep copies are those of x. -/
def RowPut (x t : Pav) (r : Nat) (d : List Byte) : Prop := t.garden = x.garden.putRow r d false ∧ t.seq.keep = x.seq.keep

/-- t is s after bytes d have been written into the garden row that local row `row` of pavilion p leads to, and perhaps a keep copy;
engine stage and registers are as before. -/
structure StoresRow (s t : State) (p row : Nat) (d : List Byte) : Prop where
  others : KeepsOthers p s t
  put : ∃ x, s.MayKeep p x ∧ RowPut x (t.pav p) (s.gardenRow p (64 * row)) d
  stage : (t.pav p).stage = (s.pav p).stage
  regs : ∀ n, ((t.pav p).core n).regs = ((s.pav p).core n).regs

section
variable {s t : State} {p row : Nat} {d : List Byte}

theorem rowPut_storesRow (s : State) (p iv row : Nat) (d : List Byte) :
    StoresRow s (s.rowPut p false iv row d false) p row d := by
  rcases keepRow_cases s p iv row with h | ⟨c, k, h⟩
  · simp only [State.rowPut, h, Bool.false_eq_true, if_false]
    refine ⟨modPav_keepsOthers s p _, ⟨s.pav p, .inl rfl, ?_⟩, ?_, fun n => ?_⟩ <;> rw [State.pav_modPav_same]
    · exact ⟨rfl, rfl⟩
    · rfl
  · simp only [State.rowPut, h, Bool.false_eq_true, if_false]
    refine ⟨(setPav_keepsOthers s.fresh.2 p _).trans (modPav_keepsOthers _ p _),
      ⟨_, .inr ⟨c, k, rfl⟩, ?_⟩, ?_, fun n => ?_⟩ <;> rw [State.pav_modPav_same, State.pav_setPav_same]
    · exact ⟨rfl, rfl⟩
    · rfl
    · rfl

/-- A change of the pavilion that leaves its garden, keep copies, engine stage and registers. -/
theorem StoresRow.modPav (h : StoresRow s t p row d) (f : Pav → Pav) (hg : (f (t.pav p)).garden = (t.pav p).garden)
    (hk : (f (t.pav p)).seq.keep = (t.pav p).seq.keep) (hs : (f (t.pav p)).stage = (t.pav p).stage)
    (hr : ∀ n, ((f (t.pav p)).core n).regs = ((t.pav p).core n).regs) : StoresRow s (t.modPav p f) p row d := by
  obtain ⟨x, hx, hgarden, hkeep⟩ := h.put
  refine ⟨h.others.trans (modPav_keepsOthers t p f), ⟨x, hx, ?_⟩, ?_, fun n => ?_⟩ <;> rw [State.pav_modPav_same]
  · exact ⟨hg.trans hgarden, hk.trans hkeep⟩
  · exact hs.trans h.stage
  · exact (hr n).trans (h.regs n)

/-- A core whose watched row is written notes it (R213). -/
theorem StoresRow.touchWatch (h : StoresRow s t p row d) (r : Nat) : StoresRow s (t.touchWatch p r) p row d := by
  simp only [State.touchWatch]
  split
  case h_1 c hc =>
    split
    · refine h.modPav _ rfl rfl rfl fun n => ?_
      by_cases hn : n = r / 4096
      · simp [Pav.core, hn, hc]
      · simp [Pav.core, hn]
    · exact h
  case h_2 => exact h

theorem StoresRow.memByte_in (h : StoresRow s t p row d) (hd : d.length = 64) {j : Nat} (hj : j < 64) :
    memByte (t.pav p).garden.bytes (64 * s.gardenRow p (64 * row) + j) = lget 0 d j := by
  obtain ⟨x, -, hg, -⟩ := h.put
  rw [hg, memByte_putRow_in _ _ _ _ hd hj]

/-- The other rows stay, but for the row of a keep copy that the write makes. -/
theorem StoresRow.memByte_out (h : StoresRow s t p row d) {b : Nat} (hb : b / 64 ≠ s.gardenRow p (64 * row))
    (hk : (t.pav p).seq.keep = (s.pav p).seq.keep ∨ b / 64 ≠ freeKeep (s.spareCells p) (s.pav p).seq.keep) :
    memByte (t.pav p).garden.bytes b = memByte (s.pav p).garden.bytes b := by
  obtain ⟨x, hx, hg, hkeep⟩ := h.put
  rw [hg, memByte_putRow_out _ _ _ _ hb]
  rcases hx with rfl | ⟨c, k, rfl⟩
  · rfl
  · refine memByte_putRow_out _ _ _ _ (hk.resolve_left ?_)
    rw [hkeep]
    simp [Pav.withKeepCopy]

end

/-! ### The frame of a store (R208, R237, R450) -/

section
variable {s : State} {p a size : Nat} (v : Nat) (h : s.CleanRow p (a / 64)) (hsize : size < 64)
include h hsize

/-- A store to a row without errors writes that row with the bytes merged in. -/
theorem coreStore_storesRow :
    StoresRow s (s.coreStore p a size v) p (a / 64) (s.mergedRow p a (natLE size v)) := by
  have hd : (natLE size v).length < 64 := by rwa [length_natLE]
  have hput := rowPut_storesRow s p 0 (a / 64) (s.mergedRow p a (natLE size v))
  have hmark := hput.modPav (fun x => x.markDirty a) rfl rfl rfl fun _ => rfl
  simp only [State.coreStore, mergeRow_clean hd h]
  exact StoresRow.touchWatch (hmark.modPav _ rfl rfl rfl fun _ => rfl) (a / 64)

variable (hin : a % 64 + size ≤ 64)
include hin

theorem memByte_coreStore_in {j : Nat} (hj : j < size) :
    memByte ((s.coreStore p a size v).pav p).garden.bytes (64 * s.gardenRow p (64 * (a / 64)) + a % 64 + j) =
      BitVec.ofNat 8 (v / 256 ^ j) := by
  have hd : a % 64 + (natLE size v).length ≤ 64 := by rwa [length_natLE]
  rw [Nat.add_assoc, (coreStore_storesRow v h hsize).memByte_in (length_mergedRow hd) (by omega),
    lget_mergedRow_in hd (by rwa [length_natLE]), lget_natLE v hj]

/-- A store leaves every byte but its own, and but those of the row of a keep copy that it makes. -/
theorem memByte_coreStore_out {b : Nat}
    (hb : b < 64 * s.gardenRow p (64 * (a / 64)) + a % 64 ∨ 64 * s.gardenRow p (64 * (a / 64)) + a % 64 + size ≤ b)
    (hk : ((s.coreStore p a size v).pav p).seq.keep = (s.pav p).seq.keep ∨
      b / 64 ≠ freeKeep (s.spareCells p) (s.pav p).seq.keep) :
    memByte ((s.coreStore p a size v).pav p).garden.bytes b = memByte (s.pav p).garden.bytes b := by
  have hstore := coreStore_storesRow v h hsize
  by_cases hrow : b / 64 = s.gardenRow p (64 * (a / 64))
  · have hd : a % 64 + (natLE size v).length ≤ 64 := by rwa [length_natLE]
    have hb' : b % 64 < a % 64 ∨ a % 64 + (natLE size v).length ≤ b % 64 := by rw [length_natLE]; omega
    have hmod : b % 64 < 64 := Nat.mod_lt b (by decide)
    have heq : b = 64 * s.gardenRow p (64 * (a / 64)) + b % 64 := by omega
    rw [heq, hstore.memByte_in (length_mergedRow hd) hmod, ← heq, lget_mergedRow_out hd hb' hmod, ← heq]
  · exact hstore.memByte_out hrow hk

end

/-- An aligned access of one, two or four bytes lies in one row. -/
theorem aligned_in_row (z : MemSize) {n a : Nat} (h : a % MemSize.bytes z = 0) :
    (0x40000 * n + a) % 64 + MemSize.bytes z ≤ 64 := by
  cases z <;> simp only [MemSize.bytes] at h ⊢ <;> omega

/-- Settles O24: the store acts on the state in which the core has gone on, whose garden, keep list and spare cells are those of s. -/
theorem coreStoreFrame : Obligations.CoreStoreFrame := by
  intro c p n s t hc hr _ z gd ga off k a g at_ keep ha hz hp hclean hexec
  obtain ⟨u, hu⟩ : ∃ u, u = s.setCore p n k.advance := ⟨_, rfl⟩
  have hpav : u.pav p = (s.pav p).setCore n k.advance := hu ▸ State.pav_modPav_same _ _ _
  have hrow : ∀ b, u.gardenRow p b = s.gardenRow p b := fun b => by rw [hu]; rfl
  have hspare : u.spareCells p = s.spareCells p := by simp [hu, State.spareCells, State.setCore, Pav.setCore]
  have hregs : ((u.pav p).core n).regs = k.regs := by simp [hpav, Pav.setCore, Pav.core, Core.advance]
  have hothers : KeepsOthers p s u := hu ▸ modPav_keepsOthers s p _
  have ht : t = u.coreStore p g (MemSize.bytes z) (k.reg gd).toNat := by
    rw [exec_st, onCore_of_runs hc hr, access_own _ hz hp ha] at hexec
    rw [hu]
    exact (Host.Outcome.next.inj hexec).symm
  have hsize : MemSize.bytes z < 64 := by cases z <;> decide
  have hin : g % 64 + MemSize.bytes z ≤ 64 := aligned_in_row z hz
  have hmeta : u.CleanRow p (g / 64) := by rw [State.CleanRow, hpav, hrow]; exact hclean
  have hstore := coreStore_storesRow (k.reg gd).toNat hmeta hsize
  have hframe := hothers.trans hstore.others
  subst ht
  refine ⟨fun j hj => ?stored, fun b hb hk => ?rest, ?stage, hframe.1, hframe.2, (hstore.regs n).trans hregs⟩
  case stored =>
    have hstored := memByte_coreStore_in (k.reg gd).toNat hmeta hsize hin hj
    rwa [hrow] at hstored
  case rest =>
    have hrest := memByte_coreStore_out (k.reg gd).toNat hmeta hsize hin (b := b)
    rw [hrow, hspare, hpav] at hrest
    exact hrest hb hk
  case stage => rw [hstore.stage, hpav]; rfl

end Sys2Proof.Machine

/-! Completion of the control instructions, of holds, runs and marks, and of the DMA engine (R187–R202, R260–R262, R433). A control
instruction is an issue that is no tile pass and takes no entry but a CPOST's, so that all that it does is its effect. -/

namespace Sys2Proof.Machine

/-! ### Control instructions that issue (R191) -/

/-- A control command whose meaning is `State.issueCtl` completes with its effect, which has its issue count. -/
theorem instr_issueCtl_go (s : State) (p : PavIx) (i : StreamIx) (op : Nat) (w : Body) (refuse : State → Option Nat)
    (f : State → Nat → State → State) (h : s.canIssue p.val i.val op w.toNat (ctlIssue (refuse s)) = true) :
    s.instr p i op w (fun u => u.issueCtl p.val i.val op (refuse u) (f u)) =
      .next (let t := (s.moved p.val i.val op (ctlIssue (refuse s))).2
        f s ((t.pav p.val).seq.issued - 1) t) :=
  instr_issue_go s p i op w (fun u => ctlIssue (refuse u)) (fun u _ t => f u ((t.pav p.val).seq.issued - 1) t) h
    (by simp [ctlIssue])

/-- The value field of a control instruction as a word is the field's number. -/
theorem toNat_valueField (n : Nat) : (BitVec.ofNat 32 (bits n 63 32)).toNat = bits n 63 32 := by
  rw [BitVec.toNat_ofNat]
  exact Nat.mod_eq_of_lt (Nat.mod_lt _ (by decide))

theorem valueField_eq_zero (n : Nat) : BitVec.ofNat 32 (bits n 63 32) = 0 ↔ bits n 63 32 = 0 := by
  rw [← BitVec.toNat_inj, toNat_valueField]
  rfl

theorem ite_valueField {α : Type} (n : Nat) (a b : α) :
    (if bits n 63 32 = 0 then a else b) = if BitVec.ofNat 32 (bits n 63 32) = 0 then a else b := by
  by_cases h : bits n 63 32 = 0
  · rw [if_pos h, if_pos ((valueField_eq_zero n).mpr h)]
  · rw [if_neg h, if_neg (fun hv => h ((valueField_eq_zero n).mp hv))]

/-! ### Streams that move on (R189, R192, R196) -/

theorem stream_modStream (s : State) (p i : Nat) (f : Strm → Strm) (h : i < (s.pav p).seq.streams.length) :
    ((s.modStream p i f).pav p).seq.stream i = f ((s.pav p).seq.stream i) := by
  simp [State.modStream, Seq.stream, lget, h]

/-- What the cadence does not govern leaves the sequencer as it is (R167). -/
theorem cadGo_free (s : State) (p i : Nat) : s.cadGo p i .free = some (s.pav p).seq := by simp [State.cadGo, Seq.cadAsk]

theorem length_streams_moved (s : State) (p i op : Nat) (refuse : Option Nat) :
    ((s.moved p i op (ctlIssue refuse)).2.pav p).seq.streams.length = (s.pav p).seq.streams.length := by
  simp [State.moved, ctlIssue, cadGo_free, State.depart, State.modStream, Seq.won, Seq.take]

/-- The stream of a MARKP opens its next interval, at its new mark point. -/
def Strm.marked (t : Strm) (tag : Word) (issue : Nat) : Strm :=
  { t with
    markPts := t.markPts ++ [{ tag := tag, issue := issue, slot := t.slot, loops := t.loops }]
    interval := t.interval + 1 }

/-- What a MARKP does: a mark that becomes due by it waits for the cadence's next boundary (R196). -/
def State.markStream (s : State) (p i : Nat) (tag : Word) (issue : Nat) : State :=
  let t := s.modStream p i (fun t => t.marked tag issue)
  if (s.pav p).seq.markDue.isNone && (t.pav p).seq.markDue.isSome then t.modSeq p (fun q => { q with cadBoundary := false }) else t

theorem stream_markStream (s : State) (p i : Nat) (tag : Word) (issue : Nat) (h : i < (s.pav p).seq.streams.length) :
    ((s.markStream p i tag issue).pav p).seq.stream i = ((s.pav p).seq.stream i).marked tag issue := by
  rw [← stream_modStream s p i (fun t => t.marked tag issue) h, State.markStream]
  split
  · rw [State.pav_modSeq_same]
    rfl
  · rfl

theorem exec_markp (p : PavIx) (i : StreamIx) (w : Body) (s : State) :
    exec (.markp p i w) s = s.instr p i 8 w (fun u => u.issueCtl p.val i.val 8 (ctlRefuse w.toNat false false true false)
      (fun k t => t.markStream p.val i.val (BitVec.ofNat 32 (bits w.toNat 63 32)) k)) := rfl

/-- Settles O10: each control instruction issues, and its effect on the moved state is the one stated. -/
theorem controlCompletes : Obligations.ControlCompletes := by
  intro p i w s n v c ctl m
  refine ⟨fun h => ?nop, fun h => ?wait, fun h => ?halt, fun h => ?loop, fun h => ?syncw, fun h => ?synca, fun h => ?cpost,
    fun h => ?fence, fun h hlen => ?markp⟩
  case nop => exact instr_issueCtl_go s p i 0 w (fun _ => ctlRefuse n false false false false) (fun _ _ u => u) h
  case wait =>
    refine (instr_issueCtl_go s p i 1 w (fun _ => ctlRefuse n false false true false) (fun _ _ u =>
      if bits n 63 32 = 0 then u else u.hold p.val i.val (.wait v)) h).trans (congrArg _ ?_)
    exact ite_valueField n _ _
  case halt =>
    exact instr_issueCtl_go s p i 2 w (fun _ => ctlRefuse n false false false false)
      (fun _ _ u => u.modStream p.val i.val (fun t => { t with halted := true })) h
  case loop =>
    exact instr_issueCtl_go s p i 3 w (fun u => loopRefuse ((u.pav p.val).seq.stream i.val) n)
      (fun u _ t => t.modStream p.val i.val (fun r => { r with
        loops := loopLevel ((u.pav p.val).seq.stream i.val).slot n :: r.loops })) h
  case syncw =>
    refine (instr_issueCtl_go s p i 4 w (fun _ => ctlRefuse n true false true false) (fun _ _ u =>
      if bits n 63 32 ≤ (lget 0 (u.pav p.val).seq.ctrs c).toNat then u else u.hold p.val i.val (.sync c v)) h).trans
        (congrArg _ ?_)
    rw [← toNat_valueField n]
  case synca =>
    exact instr_issueCtl_go s p i 5 w (fun _ => ctlRefuse n true false true false) (fun _ _ u => u.addCtr p.val c v) h
  case cpost =>
    exact instr_issue_go s p i 6 w (fun _ => cpostIssue n) (fun _ ids u => (u.modSeq p.val (fun q => { q with
      posts := q.posts ++ [(i.val, q.issued - 1, bits n 31 0, v, ids.headD 0)] })).settlePosts p.val) h (by simp [cpostIssue])
  case fence =>
    exact instr_issueCtl_go s p i 7 w (fun _ => ctlRefuse n false false false false) (fun _ k u =>
      if (u.pav p.val).finishedBefore k then u else u.hold p.val i.val (.fence k)) h
  case markp =>
    have hgo := instr_issueCtl_go s p i 8 w (fun _ => ctlRefuse n false false true false)
      (fun _ k u => u.markStream p.val i.val v k) h
    have hi : i.val < ((m 8 false false true false).pav p.val).seq.streams.length := by
      rw [length_streams_moved, hlen]
      exact i.isLt
    refine ⟨_, (exec_markp p i w s).trans hgo, ?_, ?_⟩
    · rw [stream_markStream _ _ _ _ _ hi]
      rfl
    · rw [stream_markStream _ _ _ _ _ hi]
      simp [Strm.marked]

/-! ### Holds (R191, R194, R195, R202) -/

/-- Settles O11: each event's condition holds under its hypotheses. -/
theorem holdsComplete : Obligations.HoldsComplete := by
  intro p i s q t
  refine ⟨fun n hh ht => ?wait, fun c v hh hv => ?sync, fun ho hh hy => ?stalled, fun hi hn hh hc ht => ?limit⟩
  case wait =>
    show execWaitEnd p i s = _
    rw [execWaitEnd, hh]
    exact onlyIf_of_true _ _ (decide_eq_true ht)
  case sync =>
    show execSyncwRelease p i s = _
    rw [execSyncwRelease, hh]
    exact onlyIf_of_true _ _ (decide_eq_true hv)
  case stalled =>
    have waits : ((s.pav p.val).seq.stream i.val).hold ≠ .none := hh
    show execStalledIssue p i s = _
    exact onlyIf_of_true _ _ (by simp [ho, hy, waits])
  case limit =>
    show execStallLimit p i s = _
    exact onlyIf_of_true _ _ (by simp [hi, hn, hh, hc, ht, q, t])

/-! ### Runs and marks (R187, R196, R197, R433) -/

/-- Settles O12: each event's condition holds under its hypotheses. -/
theorem runsComplete : Obligations.RunsComplete := by
  intro p s v
  refine ⟨fun hd hr hs hf hdrill he hon => ?start, fun hr hs hf hh ho hm => ?finish, fun tag ht hr hs hf hb => ?taken,
    fun r t a ht ha hf hs h1 h2 hm => ?verified, fun r a hv ha hf hs => ⟨fun h1 => ?digest1, fun h1 h2 ht => ?digest2⟩⟩
  case start =>
    show execRunStart p s = _
    exact onlyIf_of_true _ _ (by simp [hd, hr, hs, hf, hdrill, he, hon, v])
  case finish =>
    show execRunEnd p s = _
    exact onlyIf_of_true _ _ (by simp [hr, hs, hf, hh, ho, hm, v])
  case taken =>
    show execMarkTaken p s = _
    rw [execMarkTaken, ht]
    exact onlyIf_of_true _ _ (by simpa [hr, hs, hf, v, or_assoc] using hb)
  case verified =>
    show execMarkVerified p s = _
    simp [execMarkVerified, ht, ha, hf, hs, h1, h2, hm, v]
  case digest1 =>
    show execDigestReadback p .d1 s = _
    rw [execDigestReadback, hv, ha]
    exact onlyIf_of_true _ _ (by simp [h1, hf, hs, v])
  case digest2 =>
    show execDigestReadback p .d2 s = _
    rw [execDigestReadback, hv, ha]
    exact onlyIf_of_true _ _ (by simp [h1, h2, ht, hf, hs, v])

/-! ### The DMA engine (R193, R198, R260–R262) -/

theorem exec_dcopy (p : PavIx) (i : StreamIx) (w : Body) (s : State) :
    exec (.dcopy p i w) s = s.instr p i 0x80 w (fun u => u.issue p.val i.val 0x80 (u.dcopyIssue p.val w.toNat)
      (dcopyEff p i.val w.toNat ((u.pav p.val).seq.stream i.val).slot ((u.pav p.val).seq.freePlace.getD 0))) := rfl

theorem exec_psend (p : PavIx) (i : StreamIx) (w : Body) (s : State) :
    exec (.psend p i w) s = s.instr p i 0x81 w (fun u => u.issue p.val i.val 0x81 (u.psendIssue p.val w.toNat)
      (fun ids t => t.psendGo p.val ((u.pav p.val).seq.freePlace.getD 0) (dmaOf t p.val i.val
        ((u.pav p.val).seq.stream i.val).slot w.toNat .psend (u.psendIssue p.val w.toNat).rngs ids))) := rfl

theorem exec_precv (p : PavIx) (i : StreamIx) (w : Body) (s : State) :
    exec (.precv p i w) s = s.instr p i 0x82 w (fun u => u.issue p.val i.val 0x82 (u.precvIssue p.val w.toNat)
      (fun ids t => t.precvStart p.val ((u.pav p.val).seq.freePlace.getD 0) (dmaOf t p.val i.val
        ((u.pav p.val).seq.stream i.val).slot w.toNat .precv (u.precvIssue p.val w.toNat).rngs ids))) := rfl

section
variable {p : PavIx} {k : Fin 4} {x : Dma} {s : State}

/-- A DCOPY of a place that has moved all that it moves ends as its observed end says. -/
theorem dcopyFinish_of_done (e : XferEnd) (hx : (s.pav p.val).seq.place k.val = some x) (hk : x.kind = .dcopy)
    (he : (s.plot (plotOf p.val)).e.on = true) (hd : s.dcopyDone p.val x = true) :
    exec (.dcopyFinish p k e) s = match e with
      | .failed => .next s
      | .landed => .next (s.dcopyLand p.val k.val ((s.allotOfPav p.val).getD 16) x false)
      | .digestMismatch =>
        onlyIf x.parts.isNone s (s.dcopyLand p.val k.val ((s.allotOfPav p.val).getD 16) x true) := by
  show execDcopyFinish p k e s = _
  cases e <;> simp [execDcopyFinish, hx, hk, he, hd]

theorem precvItem_of_whole {port : Fin 16} {n : Nat} {item rest : List Beat}
    (hx : (s.pav p.val).seq.onPort .precv port.val = some (n, x)) (hw : x.tagWait = none)
    (he : (s.plot (plotOf p.val)).e.on = true)
    (hi : firstItem (tget [] (s.pav (s.portsOf p.val)).inBuf port.val) = some (item, rest)) :
    exec (.precvItem p port) s = .next ((s.modPav (s.portsOf p.val) (fun y => { y with
      inBuf := tset y.inBuf port.val rest })).precvLand p.val n x item) := by
  show execPrecvItem p port s = _
  simp [execPrecvItem, hx, hi, hw, he, onlyIf]

end

/-- Settles O9: no transfer is a tile pass, so its start is all that its issue does; its end and its items are the lemmas above. -/
theorem dmaCompletes : Obligations.DmaCompletes := by
  refine ⟨fun p i w s => ⟨fun h => ?dcopy, fun h => ?psend, fun h => ?precv⟩,
    fun p k x s hx hk he hd => ⟨?landed, fun hp => ?mismatch⟩,
    fun p port n x item rest s hx hw he hi => precvItem_of_whole hx hw he hi⟩
  case dcopy =>
    have notPass : ∀ o, (s.dcopyIssue p.val w.toNat).cad ≠ .pass o := by simp [State.dcopyIssue]
    rw [exec_dcopy, instr_issue_go s p i 0x80 w (fun u => u.dcopyIssue p.val w.toNat) _ h notPass]
  case psend =>
    have notPass : ∀ o, (s.psendIssue p.val w.toNat).cad ≠ .pass o := by simp [State.psendIssue]
    rw [exec_psend, instr_issue_go s p i 0x81 w (fun u => u.psendIssue p.val w.toNat) _ h notPass]
  case precv =>
    have notPass : ∀ o, (s.precvIssue p.val w.toNat).cad ≠ .pass o := by simp [State.precvIssue]
    rw [exec_precv, instr_issue_go s p i 0x82 w (fun u => u.precvIssue p.val w.toNat) _ h notPass]
  case landed => exact dcopyFinish_of_done .landed hx hk he hd
  case mismatch => exact (dcopyFinish_of_done .digestMismatch hx hk he hd).trans (onlyIf_of_true _ _ (by simp [hp]))

end Sys2Proof.Machine

/-! Completion of the move engines' events (R211, R212). A movq is a load of 32 bytes whose result is a descriptor in the queue. -/

namespace Sys2Proof.Machine

theorem exec_movq (c : CellXY) (ga : RegIx) (s : State) :
    exec (.movq c ga) s = s.onCore c (fun p n k => if 16 ≤ k.moveQueue.length then s
      else s.access p n k (k.reg ga).toNat 32 (fun a => s.coreLoad p n a 32 causeMove
        (fun v k => { k.advance with moveQueue := k.moveQueue ++ [BitVec.ofNat 256 v] }))) := rfl

section
variable {c : CellXY} {p n : Nat} {s : State}

/-- R211: the head of the queue starts in a free place, unless it waits for the moves before it. -/
theorem moveTransferStart_of_place {d : BitVec 256} {rest : List (BitVec 256)} {i : Nat} (hc : cellNo c = some (p, n))
    (hq : ((s.pav p).core n).moveQueue = d :: rest) (hi : ((s.pav p).core n).movePlace = some i)
    (hr : s.moverRuns p n = true) (ho : (moveOf d).ord = false ∨ ((s.pav p).core n).moves.all (·.isNone) = true) :
    exec (.moveTransferStart c) s = .next (s.moveStart c p n ((s.pav p).core n) d i) := by
  have ready : (s.moverRuns p n && (!(moveOf d).ord || ((s.pav p).core n).moves.all (·.isNone))) = true := by
    rcases ho with ho | ho <;> simp only [hr, ho, Bool.not_false, Bool.true_or, Bool.or_true, Bool.and_true]
  show execMoveTransferStart c s = _
  simp only [execMoveTransferStart, hc, hq, hi]
  exact onlyIf_of_true _ _ ready

/-- R212: a move lands once its parts are over without a fault. -/
theorem moveTransferFinish_of_landed {i : Fin 4} {x : MoveXfer} (hc : cellNo c = some (p, n))
    (hx : lget none ((s.pav p).core n).moves i.val = some x) (hr : s.moverRuns p n = true) (ho : x.parts.over = true)
    (hf : x.parts.fault = 0) : exec (.moveTransferFinish c i .landed) s =
      .next (s.moveLand p n i.val ((s.allotOfPav p).getD 16) (moveOf x.d)) := by
  show execMoveTransferFinish c i .landed s = _
  simp only [execMoveTransferFinish, hc, hx]
  exact onlyIf_of_true _ _ (by simp [hr, ho, hf])

theorem moveTransferFinish_of_failed {i : Fin 4} {x : MoveXfer} (hc : cellNo c = some (p, n))
    (hx : lget none ((s.pav p).core n).moves i.val = some x) (hf : x.parts.fault ≠ 0) :
    exec (.moveTransferFinish c i .failed) s = .next (s.moveFail p n i.val) := by
  show execMoveTransferFinish c i .failed s = _
  simp only [execMoveTransferFinish, hc, hx]
  exact onlyIf_of_true _ _ (bne_iff_ne.mpr hf)

theorem moveFail_of_place {i : Nat} {x : MoveXfer} (hx : lget none ((s.pav p).core n).moves i = some x) :
    s.moveFail p n i = (s.setCore p n { (s.pav p).core n with
      moves := ((s.pav p).core n).moves.set i none }).moveFault p n (moveOf x.d) := by
  simp only [State.moveFail, hx]

end

/-- Settles O22: a movq loads its descriptor from a clean row; a start and an end meet the conditions of the lemmas above. -/
theorem movesComplete : Obligations.MovesComplete := by
  intro c p n s hc k
  refine ⟨fun ga hr hroom _ hal ha hp => ?queued, fun d rest i hq hi hr ho => moveTransferStart_of_place hc hq hi hr ho,
    fun i x hx => ⟨moveTransferFinish_of_landed hc hx, fun hf => ?failed⟩⟩
  case queued =>
    intro g hm
    rw [exec_movq, onCore_of_runs hc hr, if_neg (Nat.not_le.mpr hroom), access_own _ hal hp ha, coreLoad_clean _ hm]
    rfl
  case failed => rw [moveTransferFinish_of_failed hc hx hf, moveFail_of_place hx]

end Sys2Proof.Machine

/-! Completion of a plot's scrub and of its read-back (R248, R249). -/

namespace Sys2Proof.Machine

section
variable {p : PlotIx} {s : State}

/-- R248 steps 1–4: in a plot that is scrubbing the clearing runs on the state as it stands, no scrub being started first. -/
theorem plotScrub_of_scrubbing (hs : (s.plot p.val).scrubbing = true) :
    exec (.plotScrub p) s = .next (((s.eachPav p.val Pav.scrub).modPlot p.val (fun x => { x with zeroed := true })).progressTo
      (1 + p.val) 1 4 5 (0x2100 + p.val)) := by
  show execPlotScrub p s = _
  simp only [execPlotScrub, hs, Bool.true_or, if_true]

/-- R248 step 5, R249: the plot p, its read-back over, leaves scrubbing and joins the allotment that is opening with it. -/
def State.scrubJoin (s : State) (p : Nat) : State :=
  let t := s.modPlot p (fun x => { x with scrubbing := false, zeroed := false })
  match (List.range 16).find? (fun a => (t.allot a).enable == Enable.opening && (t.allot a).plots.getLsbD p) with
  | some a => (t.modPlot p (fun x => { x with owner := some (Fin.ofNat 16 a) })).modAllot a (fun x =>
      { x with claims := x.claims &&& ~~~(BitVec.ofNat 64 (2 ^ p)) })
  | none => t

/-- R248 step 5: a read-back that no cell and no pavilion fails retires nothing, so that all it does is let the plot join. -/
theorem plotScrubDone_of_zeroed (hs : (s.plot p.val).scrubbing = true) (hz : (s.plot p.val).zeroed = true) :
    exec (.plotScrubDone p [] []) s = .next ((s.scrubJoin p.val).progressEnd (1 + p.val) 2) := by
  have applies : (!(s.plot p.val).scrubbing || !(s.plot p.val).zeroed) = false := by simp [hs, hz]
  show execPlotScrubDone p [] [] s = _
  simp only [execPlotScrubDone, applies, State.each, List.foldl_nil, Bool.false_eq_true, if_false]
  rfl

end

/-- Settles O26: a scrubbing plot meets the condition of its clearing, and a cleared one that of its read-back's end. -/
theorem plotScrubCompletes : Obligations.PlotScrubCompletes := fun _ _ hs =>
  ⟨plotScrub_of_scrubbing hs, plotScrubDone_of_zeroed hs⟩

end Sys2Proof.Machine

/-! The module before aux power: `State.reset` has no entry in any table, so that each unit is as built, and the objects read what
the Lodge as built holds (R355). -/

namespace Sys2Proof.Machine

/-! ### What the objects of the settings read as (R355) -/

/-- The n little-endian bytes of a value say it again when they can hold it. -/
theorem leNat_natLE_of_lt {n v : Nat} (h : v < 256 ^ n) : leNat (natLE n v) = v := by
  induction n generalizing v with
  | zero => exact (Nat.lt_one_iff.mp h).symm
  | succ n ih =>
    have high : v / 256 < 256 ^ n := Nat.div_lt_of_lt_mul (by rwa [Nat.pow_succ'] at h)
    simp only [natLE, leNat, ih high, BitVec.toNat_ofNat]
    omega

section
variable (s : State) (r : Requester) {sub : Nat}

theorem objValue_ring (h : sub ≠ 0) : s.objValue r 0x1100 sub = s.ringValue sub := by simp [State.objValue, h]
theorem objValue_events (h : sub ≠ 0) : s.objValue r 0x1800 sub = s.eventsValue sub := by simp [State.objValue, h]
theorem objValue_module (h : sub ≠ 0) : s.objValue r 0x2000 sub = s.moduleValue sub := by simp [State.objValue, h]
theorem objValue_power (h : sub ≠ 0) : s.objValue r 0x3000 sub = s.powerValue sub := by simp [State.objValue, h]
theorem objValue_thermal (h : sub ≠ 0) : s.objValue r 0x3100 sub = s.thermalValue sub := by simp [State.objValue, h]

theorem objValue_allot (a : AllotIx) (h : sub ≠ 0) : s.objValue r (0x2400 + a.val) sub = s.allotValue a.val sub := by
  have inRange : 0x2400 ≤ 0x2400 + a.val ∧ 0x2400 + a.val < 0x2410 := by omega
  have notPlot : ¬ (0x2100 ≤ 0x2400 + a.val ∧ 0x2400 + a.val < 0x2138) := by omega
  have notPav : ¬ (0x2200 ≤ 0x2400 + a.val ∧ 0x2400 + a.val < 0x22E0) := by omega
  have notModule : ∀ i ≤ 0x2000, 0x2400 + a.val ≠ i := by omega
  simp only [State.objValue, h, if_false, notModule 0x1000 (by decide), notModule 0x1100 (by decide), notModule 0x1800 (by decide),
    notModule 0x2000 (by decide), notPlot, notPav, inRange, if_true, and_self, Nat.add_sub_cancel_left]

end

/-! ### The units at reset -/

theorem pav_reset (p : Nat) : State.reset.pav p = Pav.built false p := rfl
theorem plot_reset (p : Nat) : State.reset.plot p = Plot.built := rfl
theorem allot_reset (a : Nat) : State.reset.allot a = Allot.built := rfl
theorem lodge_reset : State.reset.lodge = Lodge.built := rfl

/-- No byte and no row of HBM has an entry, so none has one out of order or one that says nothing. -/
theorem safe_reset : State.reset.safe = true := rfl

/-- No pavilion runs a program, and no matrix engine a tile. -/
theorem pav_reset_idle (p : Nat) :
    (State.reset.pav p).seq.running = false ∧ (State.reset.pav p).me.running = none := by
  simp [pav_reset, Pav.built, Seq.cleared, ME.cleared]

/-- R470: the domains E, G and H of a plot are off. -/
theorem plot_reset_off (p : Nat) : (State.reset.plot p).e.on = false ∧ (State.reset.plot p).g.on = false ∧
    (State.reset.plot p).h.on = false := by
  simp [plot_reset, Plot.built, PowerDom.off]

/-- R355: an allotment reads Closed. -/
theorem allot_reset_reads_closed (r : Requester) (a : AllotIx) :
    leNat (State.reset.objValue r (0x2400 + a.val) 1) = 0 := by
  simp [objValue_allot, allot_reset, State.allotValue, Allot.built, Enable.code, leNat_natLE_of_lt]

/-- Settles O57: each setting that is read is one of the Lodge as built, in as many bytes as it needs. -/
theorem resetState : Obligations.ResetState := by
  refine ⟨rfl, rfl, safe_reset, rfl, ?_⟩
  simp [objValue_ring, objValue_events, objValue_module, objValue_power, objValue_thermal, State.ringValue, State.eventsValue,
    State.moduleValue, State.powerValue, State.thermalValue, lodge_reset, Lodge.built, Settings.built, boolNat,
    leNat_natLE_of_lt, allot_reset_reads_closed, pav_reset_idle, plot_reset_off]

end Sys2Proof.Machine

/-! Completion of a section's end and of its freeze (R274, R277, R460). -/

namespace Sys2Proof.Machine

section
variable {a : AllotIx} {s : State}

/-- R274: the state of an allotment whose section has ended, its beats counted as stranded and its waiting settings in effect. -/
def State.sectionLeft (s : State) (a : Nat) : State := (s.discardBeats a true).boundary a

/-- The place in the section list of the section that follows. -/
def State.nextSection (s : State) (a : Nat) : Nat := (s.allot a).sectionPos + 1

/-- R274, R460: the next section is entered with its tunnels dropped, or after the last the LAUNCH has ended. -/
theorem sectionEnd_of_over (h : s.sectionOver a.val = true) :
    let t := s.sectionLeft a.val
    let n := t.nextSection a.val
    exec (.sectionEnd a) s = .next (if n < (t.allot a.val).sections.length then (t.enterSection a.val n).dropTunnels a.val
      else (t.modLaunch a.val (fun j => { j with ended := some 0 })).modAllot a.val (fun x => { x with sectionActive := false })) := by
  intro t n
  have ends : ¬ (!s.sectionOver a.val) = true := by simp [h]
  show execSectionEnd a s = _
  rw [execSectionEnd, if_neg ends]
  by_cases hn : n < (t.allot a.val).sections.length
  case pos => exact (if_pos hn).trans (congrArg _ (if_pos hn).symm)
  case neg => exact (if_neg hn).trans (congrArg _ (if_neg hn).symm)

theorem sectionFreeze_of_running {j : Job} (c : FreezeCause) (hs : (s.allot a.val).sectionActive = true)
    (hj : j ∈ (s.allot a.val).jobs) (hl : j.launch = true) (he : j.ended = none) :
    exec (.sectionFreeze a c) s = .next (s.recover a.val c) := by
  have runs : (s.allot a.val).jobs.any (fun j => j.launch && j.ended.isNone) = true :=
    List.any_eq_true.mpr ⟨j, hj, by simp [hl, he]⟩
  show execSectionFreeze a c s = _
  exact onlyIf_of_true _ _ (by rw [hs, runs]; rfl)

end

/-- Settles O28: a section that is over leaves, and one that runs a job meets the condition of a freeze. -/
theorem sectionsComplete : Obligations.SectionsComplete := fun _ _ =>
  ⟨sectionEnd_of_over, fun c _ => sectionFreeze_of_running c⟩

end Sys2Proof.Machine

/-! Completion of the packet commands (R285–R291, R306). Each lemma about a command speaks of a packet of the command's type that has
passed the path's checks to a receiver, so that what is left of the command is what the receiver does with the packet. -/

namespace Sys2Proof.Machine

/-! ### A transfer and an entry of a receiver (R287–R289) -/

/-- The receiver keeps x as its transfer of a tag. -/
def State.setTx (s : State) (r : Receiver) (tag : Nat) (x : Tx) : State :=
  s.modRx r (fun z => { z with tx := tset z.tx tag x })

/-- The receiver keeps e as its landing entry of a number. -/
def State.setEntry (s : State) (r : Receiver) (entry : Nat) (e : Landing) : State :=
  s.modRx r (fun z => { z with entries := tset z.entries entry e })

/-- R287: a transfer whose data now goes to the entry that a GRANTED reply names. -/
def Tx.granted (x : Tx) (k : Packet) (ns : Nat) : Tx :=
  { x with phase := .sent, entry := BitVec.ofNat 12 (bits k.payload.toNat 383 372), last := ns }

/-- R289, R309: an entry with one more packet landed, poisoned when the packet is. -/
def Landing.add (e : Landing) (k : Packet) (ns : Nat) : Landing :=
  { e with landed := e.landed + 2 ^ k.seq.toNat, count := e.count + 1, since := ns, poison := e.poison || k.poison }

/-- R289: the bytes of a DATA packet lie in the memory that the entry's range names. -/
def State.putData (s : State) (r : Receiver) (k : Packet) (e : Landing) : State :=
  s.targetPut (s.rxAllot r) (s.resolveEnd (s.rxAllot r) (e.base.toNat + 48 * k.seq.toNat)) (s.landWriter r e)
    ((natLE 48 k.payload.toNat).take k.valid.toNat) k.poison

/-! ### What a receiver does with a packet (R287–R291) -/

section
variable {k : Packet} {r : Receiver} {s : State}

/-- A packet command takes the packets of its own type (R285). -/
theorem wfOr_ofType_self {n : BitVec 4} (s : State) (x : Res) (h : k.ptype = n) : wfOr (k.ofType n) s x = x :=
  if_pos (by simp [Packet.ofType, h])

/-- A receiver that holds no request back has none to grant (R287). -/
theorem grantHeld_of_none_held (h : (s.rx r).held = []) : s.grantHeld r = s := by
  rw [State.grantHeld, h]; rfl

/-- A receiver with no READ in its queue has none to start (R291). -/
theorem pumpReads_of_none_queued (h : (s.rx r).readQueue = []) : s.pumpReads r = s := by
  rw [State.pumpReads, h]; rfl

/-- R287, R288: GRANTED to a sender that does not send yet starts its data. -/
theorem answerTx_granted {x : Tx} (hs : x.phase ≠ .sent) (hr : x.read = false) (ho : k.opq = 0) :
    let y := x.granted k s.ns
    s.answerTx r k x = ((s.setTx r k.tag.toNat y).sendData r y false (fun _ => true)).partSent r y := by
  have granted : k.opq.toNat = 0 := by rw [ho]; rfl
  have waits : ¬ (x.phase == .sent) = true := by simpa using hs
  have notRead : ¬ x.read = true := by simp [hr]
  simp only [State.answerTx, granted]
  rw [if_neg waits, if_neg notRead]
  rfl

/-- R289: a packet with which its transfer is not whole yet lands its bytes, and its entry stays granted. -/
theorem landData_of_missing {e : Landing} (h : e.count + 1 ≠ packetsOf e.length) :
    s.landData r k e = (s.putData r k e).setEntry r k.tag.toNat (e.add k (s.putData r k e).ns) :=
  if_pos h

end

/-! ### The packet commands (R285) -/

section
variable {k : Packet} {r : Receiver} {s : State}

/-- R287: a REQ that is new to a receiver is granted when the receiver answers for its range and nothing stands against it. -/
theorem req_granted (hp : s.passage k = .to r) (ht : k.ptype = 1) (hq : k.reqQuery = false) (hh : (s.rx r).held = [])
    (he : (s.rx r).entryOf k.srcX k.srcY k.tag = none) (hd : (s.rx r).doneOf k.srcX k.srcY k.tag false = none)
    (hr : ∀ p, r ≠ .dma p)
    (hf : s.answersFor r ((s.packetAllot k).getD 16) (s.resolve ((s.packetAllot k).getD 16) k.reqAddress) = true)
    (hg : s.answerTo r (s.resolve ((s.packetAllot k).getD 16) k.reqAddress) k.reqAddress k.reqLength
      ((s.packetAllot k).getD 16) = .grant) :
    exec (.req k) s = .next (s.grant r (k.held s.ns) (s.resolve ((s.packetAllot k).getD 16) k.reqAddress)) := by
  show execReq k s = _
  rw [execReq, wfOr_ofType_self _ _ ht, hp]
  simp only [hq, grantHeld_of_none_held hh, he, hd, hh, hg, List.any_nil, Bool.false_eq_true, if_false]
  cases r with
  | dma p => exact absurd rfl (hr p)
  | cell _ | agent _ | host _ | server _ => simp only [hf, Bool.not_true, Bool.false_eq_true, if_false]

/-- R291: with no READ served and none in the queue, one is served when nothing stands before it. -/
theorem read_served (hp : s.passage k = .to r) (ht : k.ptype = 2) (hs : (s.rx r).reads = []) (hw : (s.rx r).readQueue = [])
    (h0 : 1 ≤ k.reqLength) (h1 : k.reqLength ≤ 3145728)
    (hf : s.answersFor r ((s.packetAllot k).getD 16) (s.resolve ((s.packetAllot k).getD 16) k.reqAddress) = true)
    (hfit : s.targetFits ((s.packetAllot k).getD 16) (s.resolve ((s.packetAllot k).getD 16) k.reqAddress) k.reqLength = true)
    (hgo : (s.readAsk r (k.held s.ns)).2 = .go) :
    exec (.read k) s = .next (s.serveRead r (k.held s.ns)) := by
  have lengthFits : ¬ k.reqLength = 0 ∧ ¬ 3145728 < k.reqLength := by omega
  obtain ⟨p, hask⟩ : ∃ p, s.readAsk r (k.held s.ns) = (p, .go) := ⟨_, Prod.ext rfl hgo⟩
  show execRead k s = _
  rw [execRead, wfOr_ofType_self _ _ ht, hp]
  simp [pumpReads_of_none_queued hw, hs, hw, hask, hf, hfit, lengthFits]

theorem reply_granted {x : Tx} (hp : s.passage k = .to r) (ht : k.ptype = 3) (hx : (s.rx r).answered k = some x)
    (hs : x.phase ≠ .sent) (hr : x.read = false) (ho : k.opq = 0) :
    let y := x.granted k s.ns
    exec (.reply k) s = .next (((s.setTx r k.tag.toNat y).sendData r y false (fun _ => true)).partSent r y) := by
  show execReply k s = _
  rw [execReply, wfOr_ofType_self _ _ ht, hp]
  simp only [hx]
  rw [answerTx_granted hs hr ho]

/-- R289: a packet of a granted entry that has not landed before, and that its transfer has, lands. -/
theorem data_landed {e : Landing} (hp : s.passage k = .to r) (ht : k.ptype = 0) (htag : k.tag ≠ 0xFFF)
    (he : tget? (s.rx r).entries k.tag.toNat = some e) (hx : e.srcX = k.srcX) (hy : e.srcY = k.srcY)
    (hfr : k.framingBad e.length = false) (hl : e.landed.testBit k.seq.toNat = false)
    (hw : s.waitsContext (s.rxAllot r) e.base.toNat = false) : exec (.data k) s = .next (s.landData r k e) := by
  show execData k s = _
  rw [execData, wfOr_ofType_self _ _ ht, hp]
  simp only [if_neg htag, he]
  simp [hx, hy, hfr, hl, hw]

/-- R306: a NACK to a sender that has sent its data has the packets that it names sent again, with RETRY set. -/
theorem nack_resends {x : Tx} (hp : s.passage k = .to r) (ht : k.ptype = 4) (hx : (s.rx r).answered k = some x)
    (hs : x.phase = .sent) (hr : x.read = false) :
    exec (.nack k) s = .next ((s.setTx r k.tag.toNat { x with last := s.ns }).sendData r x true k.nackMissing) := by
  show execNack k s = _
  rw [execNack, wfOr_ofType_self _ _ ht, hp]
  simp [hx, hs, hr, State.setTx]

/-- R194, R286: a SIGNAL adds to the sync counter that it names of the pavilion whose port cell it reaches. -/
theorem signalPacket_adds {c : CellXY} (hp : s.passage k = .to (.cell c)) (ht : k.ptype = 5) (ho : k.opq = 8)
    (hc : (c.x.val % 64, c.y.val % 68) = portCell (quadOf (c.x.val % 64) (c.y.val % 68))) :
    let i := bits k.payload.toNat 383 380
    exec (.signalPacket k) s = .next (s.modSeq (4 * plotOfCell c.x.val c.y.val + quadOf (c.x.val % 64) (c.y.val % 68))
      (fun x => { x with ctrs := x.ctrs.set i (lget 0 x.ctrs i + BitVec.ofNat 32 (bits k.payload.toNat 379 348)) })) := by
  show execSignalPacket k s = _
  rw [execSignalPacket, wfOr_ofType_self _ _ ht, hp]
  exact congrArg Host.Outcome.next (if_pos ⟨hc, ho⟩)

theorem control_forwarded {c : CellXY} (hp : s.passage k = .to (.cell c)) (ht : k.ptype = 6) :
    exec (.control k) s = .next (s.emit (.forward k)) := by
  show execControl k s = _
  rw [execControl, wfOr_ofType_self _ _ ht, hp]

end

/-- Settles O29: each packet command by its lemma above; a DATA packet with which its transfer is not whole leaves its entry granted. -/
theorem packetsComplete : Obligations.PacketsComplete := by
  intro k r s hp a t
  refine ⟨req_granted hp, read_served hp, fun x => reply_granted hp, fun e ht htag he hx hy hfr hl hc hw => ?lands,
    fun x => nack_resends hp,
    fun c ht ho hr hc => signalPacket_adds (hr ▸ hp) ht ho hc,
    fun c ht hr => control_forwarded (hr ▸ hp) ht⟩
  case lands =>
    rw [data_landed hp ht htag he hx hy hfr hl hw, landData_of_missing hc]
    rfl

end Sys2Proof.Machine

/-! Completion of what receivers, senders, routers and links do on their own (R287, R288, R297, R302, R305, R306, R308). -/

namespace Sys2Proof.Machine

/-! ### Timers of senders and of landings (R288, R305, R306) -/

section
variable {r : Receiver} {tag : BitVec 12} {s : State}

theorem fullRetry_of_due {x : Tx} (hx : tget? (s.rx r).tx tag.toNat = some x) (hf : x.phase = .full)
    (hd : x.fullAt + fcycles 1024 ≤ s.ns) : exec (.fullRetry r tag) s =
      .next ((s.setTx r tag.toNat { x with phase := .requested, last := s.ns }).resendReq r tag.toNat x false) := by
  show execFullRetry r tag s = _
  rw [execFullRetry, hx]
  exact onlyIf_of_true _ _ (by simp [hf, hd])

/-- R288: a request that has waited a landing timeout is sent again, or fails after four. -/
theorem requestTimeout_of_due {x : Tx} (hx : tget? (s.rx r).tx tag.toNat = some x) (hq : x.phase = .requested)
    (hd : x.last + s.landingAt r ≤ s.ns) : exec (.requestTimeout r tag) s =
      .next (if x.first + 4 * s.landingAt r ≤ s.ns then s.failTx r tag.toNat x 2
        else (s.setTx r tag.toNat { x with last := s.ns }).resendReq r tag.toNat x false) := by
  have due : ¬ (x.phase != .requested || decide (s.ns < x.last + s.landingAt r)) = true := by simp [hq, hd]
  show execRequestTimeout r tag s = _
  rw [execRequestTimeout, hx]
  exact (if_neg due).trans (apply_ite Host.Outcome.next _ _ _).symm

theorem doneQuery_of_due {x : Tx} (hx : tget? (s.rx r).tx tag.toNat = some x) (hs : x.phase = .sent) (hr : x.read = false)
    (hd : x.last + 2 * s.landingAt r ≤ s.ns) (hw : s.waitsContext (s.rxAllot r) x.source.toNat = false) :
    exec (.doneQuery r tag) s =
      .next ((s.setTx r tag.toNat { x with last := s.ns }).resendReq r tag.toNat x true) := by
  show execDoneQuery r tag s = _
  simp only [execDoneQuery, hx]
  rw [Option.filter_some_pos (by simp [hs, hr, hd, hw])]
  rfl

/-- R306: a landing that misses packets asks for them in each of its first four rounds. -/
theorem landingTimeout_of_due {e : Landing} (he : tget? (s.rx r).entries tag.toNat = some e)
    (hd : e.since + s.landingAt r ≤ s.ns) (hc : e.count ≠ packetsOf e.length)
    (hw : s.waitsContext (s.rxAllot r) e.base.toNat = false) (hn : e.round < 4) :
    exec (.landingTimeout r tag) s = .next ((s.setEntry r tag.toNat { e with round := e.round + 1, since := s.ns }).emits
      (nackPackets (addressOf r) (e.srcX, e.srcY) (if e.own then tag else e.tag) (packetsOf e.length) e.landed (e.round + 1))) := by
  have due : ¬ (s.ns < e.since + s.landingAt r ∨ e.count = packetsOf e.length ∨
      s.waitsContext (s.rxAllot r) e.base.toNat = true) := by simp [hd, hc, hw]
  show execLandingTimeout r tag s = _
  rw [execLandingTimeout, he]
  exact (if_neg due).trans (if_pos hn)

end

/-- R287, R291: only a server port has frames and transfers besides to go on with. -/
theorem heldGrant_of_ne_server {r : Receiver} {s : State} (h : ∀ n, r ≠ .server n) :
    exec (.heldGrant r) s = .next ((s.grantHeld r).pumpReads r) := by
  cases r with
  | server n => exact absurd rfl (h n)
  | cell _ | dma _ | agent _ | host _ => rfl

/-! ### Packets at a router (R297, R302) -/

theorem olderPacket_eq (k : Packet) : olderPacket k = { k with age := BitVec.ofNat 6 (min (k.age.toNat + 1) 63) } := by
  have age : (if k.age = 63 then 63 else k.age + 1) = BitVec.ofNat 6 (min (k.age.toNat + 1) 63) := by
    by_cases h : k.age = 63
    case pos => rw [if_pos h, h]; rfl
    case neg =>
      rw [if_neg h]
      bv_omega
  rw [olderPacket, age]

theorem escapeSet_of_unset (q : Router) (column : Bool) {k : Packet} (s : State) (h : k.escape = false) :
    let w := (s.waysFrom q column k).head?
    let m := s.rewritten q { k with escape := true }
    exec (.escapeSet q column k) s = .next (s.emit (.hop q w (if w.any Way.isHop then olderPacket m else m))) := by
  show execEscapeSet q column k s = _
  exact onlyIf_of_true _ _ (by simp [h])

theorem ageRaise_eq (k : Packet) (s : State) :
    exec (.ageRaise k) s = .next (s.emit (.forward { k with age := BitVec.ofNat 6 (min (k.age.toNat + 1) 63) })) := by
  show execAgeRaise k s = _
  rw [execAgeRaise, olderPacket_eq]

/-! ### The error window of a link (R308) -/

/-- A record goes to a coalescer or to the log (R442), so no link changes by it. -/
@[simp] theorem State.link_record (s : State) (r : ErrRec) (l : LinkId) : (s.record r).link l = s.link l := by
  simp only [State.record]
  split
  case h_1 => rw [State.link_modPlot]
  case h_2 => rw [State.link_modSeg]
  case h_3 => by_cases ha : r.allotment.toNat < 16 <;> simp [State.logRecord, ha]

/-- R308: the link l as a window of a second leaves it that carried some bits and saw some CRC failures beside those counted. -/
def State.endWindow (s : State) (l : LinkId) (failures bits : Nat) (state : BitVec 8) : State :=
  s.modLink l (fun y => { y with
    crc := satAdd y.crc failures, bits := BitVec.ofNat 64 (min (y.bits.toNat + bits) (2 ^ 64 - 1)), winStart := s.ns, fails := 0
    state := state })

section
variable {l : LinkId} {s : State}

/-- R308: a link whose window saw more failures than its limit, and that does not retry yet, retries from now on. -/
theorem linkErrorWindow_of_due {failures bits : Nat} (he : linkExists l = true) (hd : 10 ^ 9 + (s.link l).winStart ≤ s.ns)
    (hk : ∀ k, l ≠ .stack k) :
    exec (.linkErrorWindow l failures bits) s =
      .next (if bits < 10 ^ 12 * ((s.link l).fails + failures) ∧ (s.link l).state = 0 then
          (s.endWindow l failures bits 1).record ((s.endWindow l failures bits 1).linkRec l 1)
        else s.endWindow l failures bits (s.link l).state) := by
  have due : ¬ (!linkExists l || decide (s.ns < 1000000000 + (s.link l).winStart)) = true := by simp [he]; omega
  show execLinkErrorWindow l failures bits s = _
  rw [execLinkErrorWindow]
  case x_1 => exact hk
  have bad_iff : ((decide (bits < 10 ^ 12 * ((s.link l).fails + failures)) && (s.link l).state == 0 && !false) = true) ↔
      bits < 10 ^ 12 * ((s.link l).fails + failures) ∧ (s.link l).state = 0 := by simp
  rw [if_neg due]
  simp only [bad_iff]
  by_cases hbad : bits < 10 ^ 12 * ((s.link l).fails + failures) ∧ (s.link l).state = 0
  case pos => simp only [if_pos hbad]; rfl
  case neg => simp only [if_neg hbad]; rfl

/-! ### Links that are withdrawn (R301, R308) -/

/-- Nothing else ends with a link that is no channel of the Promenade, no cell-torus link and not the spine's (R15, R35, R300). -/
theorem cutLink_of_alone (s : State) (hf : fabricLink l = true) (ht : ∀ p x y d, l ≠ .cellTorus p x y d) (hs : l ≠ .spine) :
    s.cutLink l = s := by
  cases l with
  | prom p e c => exact absurd hf Bool.false_ne_true
  | cellTorus p x y d => exact absurd rfl (ht p x y d)
  | spine => exact absurd rfl hs
  | _ => rfl

/-- R308: a link that fails under retry is withdrawn; only with a cell-torus link does its allotment recover. -/
theorem linkWithdrawal_of_retrying {vc : BitVec 2} (hs : (s.link l).state ≠ 2) (hv : vc = 0 ∨ (s.link l).state = 1)
    (hf : fabricLink l = true) (ht : ∀ p x y d, l ≠ .cellTorus p x y d) :
    exec (.linkWithdrawal l vc) s = .next (s.withdraw l) := by
  have retries : ((s.link l).retries vc && (s.link l).state != 2 && fabricLink l) = true := by
    simpa [Link.retries, hf] using And.intro hv hs
  show execLinkWithdrawal l vc s = _
  rw [execLinkWithdrawal, onlyIf_of_true _ _ retries]
  split
  case h_1 p x y d => exact absurd rfl (ht p x y d)
  case h_2 => rfl

/-- R308: the link l has just been withdrawn and its record written. -/
def State.withdrawn (s : State) (l : LinkId) : State :=
  let t := s.modLink l (fun x => { x with state := 2 })
  t.record (t.linkRec l 0)

/-- R308: a link with which nothing else ends is withdrawn, recorded and, when a plot reports it, told in an event. -/
theorem withdraw_of_alone (hs : (s.link l).state ≠ 2) (he : linkExists l = true) (hf : fabricLink l = true)
    (ht : ∀ p x y d, l ≠ .cellTorus p x y d) (hsp : l ≠ .spine) :
    s.withdraw l = match linkPlot (linkCanon l) with
      | some p => (s.withdrawn l).event 0x0007 p (0x2100 + p) 0 (((s.withdrawn l).ownerOf p).getD 0x1F)
      | none => s.withdrawn l := by
  have present : ¬ ((s.link l).state = 2 ∨ linkExists l = false) := by simpa [he] using hs
  rw [State.withdraw, if_neg present, cutLink_of_alone _ hf ht hsp]
  rfl

theorem ownerOf_withdrawn (p : Nat) : (s.withdrawn l).ownerOf p = s.ownerOf p := by
  simp [State.withdrawn, State.ownerOf, plot_owner_record]

/-- R308: the end of an express link is a plot's. -/
theorem linkPlot_express (p : PlotIx) (d j : Fin 4) : ∃ q, linkPlot (linkCanon (.express p d j)) = some q := by
  simp only [linkCanon]
  split
  case isTrue => exact ⟨_, rfl⟩
  case isFalse => exact ⟨_, rfl⟩

end

/-- Settles O30: each event meets its condition; a link over its limit starts to retry, and nothing else ends with the links that the
statement has withdrawn. -/
theorem fabricEventsComplete : Obligations.FabricEventsComplete := by
  intro r tag s
  refine ⟨heldGrant_of_ne_server, fun n hr => ?grantedServer,
    fun x hx => ⟨fullRetry_of_due hx, fun hq hd hn => ?asks, fun hq hd hn => ?fails,
      doneQuery_of_due hx⟩,
    fun e => landingTimeout_of_due, fun q column k => escapeSet_of_unset q column s, fun k => ageRaise_eq k s,
    fun l failures bits he hd hk => ⟨fun hn => ?within, fun hn hs => ?beyond⟩,
    fun l vc hs hv he hf hp hsp => ?withdrawn, fun p d j vc hs hv he => ?express⟩
  case grantedServer => rw [hr]; rfl
  case asks => rw [requestTimeout_of_due hx hq hd, if_neg (Nat.not_le.mpr hn)]; rfl
  case fails => rw [requestTimeout_of_due hx hq hd, if_pos hn]
  case within => rw [linkErrorWindow_of_due he hd hk, if_neg (fun h => absurd h.1 (Nat.not_lt.mpr hn))]; rfl
  case beyond =>
    refine ⟨_, (linkErrorWindow_of_due he hd hk).trans (congrArg _ (if_pos ⟨hn, hs⟩)), ?_⟩
    rw [State.link_record, State.endWindow, State.link_modLink_same]
  case withdrawn =>
    have noTorus : ∀ p x y d, l ≠ .cellTorus p x y d := by rintro p x y d rfl; cases hp
    rw [linkWithdrawal_of_retrying hs hv hf noTorus, withdraw_of_alone hs he hf noTorus hsp, hp]
    rfl
  case express =>
    intro t
    obtain ⟨q, hq⟩ := linkPlot_express p d j
    rw [linkWithdrawal_of_retrying hs hv rfl nofun, withdraw_of_alone hs he rfl nofun nofun]
    simp only [hq, ownerOf_withdrawn, Option.getD_some]
    rfl

end Sys2Proof.Machine

/-! Stacked memory: the requests that a segment takes from an agent and what HBM does on its own (R320–R330). A request is admitted,
or denied before anything else happens; each event of HBM has one lemma that says what it does under its condition. -/

namespace Sys2Proof.Machine

/-! ### GRANULE requests at a segment (R320, R321) -/

/-- R320: a request of a plot's agent, on the agents' virtual channel, that has passed its CRC. -/
structure AgentRequest (k : Packet) : Prop where
  ptype : k.ptype = 7
  crc : k.crcOk = true
  vc : k.vc = 3
  opq : k.opq = 0
  row : k.srcY = 481
  plot : k.srcX.toNat < 56

section
variable {k : Packet} {s : State}

theorem granule_of_request (h : AgentRequest k) : exec (.granule k) s = .next (s.granuleAt k) := by
  show execGranule k s = _
  rw [execGranule, wfOr_ofType_self _ _ h.ptype]
  simp [h.ptype, h.crc, h.vc, h.opq, h.row, h.plot, bits]

/-- The op field of a request is 00. -/
theorem op_of_request (h : AgentRequest k) : bits k.opq.toNat 3 2 = 0 := by rw [h.opq]; rfl

/-- R321: a request that is not admitted is denied, whether its stack retrains or not. -/
theorem granuleAt_of_refused (h : AgentRequest k) (ha : s.granuleAllowed k.srcX.toNat (granuleReq k s.ns) = false) :
    s.granuleAt k = s.granuleDenied k.srcX.toNat (granuleReq k s.ns) (k.srcX, k.srcY) := by
  rw [State.granuleAt, if_pos ⟨op_of_request h, by simp [ha]⟩]

theorem granuleAt_of_allowed (h : AgentRequest k) (ha : s.granuleAllowed k.srcX.toNat (granuleReq k s.ns) = true)
    (hw : s.granuleWaits (granuleReq k s.ns).seg k = false) : s.granuleAt k = s.granuleAsk k := by
  have seg : segOf k s.ns = (granuleReq k s.ns).seg := if_pos (op_of_request h)
  simp [State.granuleAt, seg, ha, hw, op_of_request h]

/-- R320: a read is answered with its lines. -/
theorem granuleAsk_of_read (hr : (granuleReq k s.ns).write = false) :
    let q := granuleReq k s.ns
    s.granuleAsk k = (s.linesRead q.line.toNat q.lines).2.emits
      (granuleData (segAddress q.seg) (k.srcX, k.srcY) q.tag (s.linesRead q.line.toNat q.lines).1) := by
  simp [State.granuleAsk, hr]

end

/-- R321: a plot outside the named allotment is not admitted, nor is a request one of whose lines the allotment does not own. -/
theorem granuleAllowed_eq_false {s : State} {plot : Nat} {q : AgentReq}
    (h : s.ownerOf plot ≠ some q.allotment.toNat ∨
      ∃ i, i < q.lines ∧ s.lineOwned q.allotment.toNat (q.line.toNat + i) = false) : s.granuleAllowed plot q = false := by
  rw [Bool.eq_false_iff]
  intro allowed
  simp only [State.granuleAllowed, Bool.and_eq_true, beq_iff_eq, List.all_eq_true, List.mem_range] at allowed
  obtain ⟨⟨owned, -⟩, lines⟩ := allowed
  rcases h with foreign | ⟨i, hi, outside⟩
  · exact foreign owned
  · exact absurd (lines i hi) (ne_true_of_eq_false outside)

/-! ### What a record leaves (R441, R442) -/

theorem hbm_logRecord (s : State) (r : ErrRec) : (s.logRecord r).hbm = s.hbm := by
  by_cases ha : r.allotment.toNat < 16 <;> simp [State.logRecord, ha]

theorem seg_logRecord (s : State) (r : ErrRec) (n : Nat) : (s.logRecord r).seg n = s.seg n := by
  by_cases ha : r.allotment.toNat < 16 <;> simp [State.logRecord, ha]

theorem hbm_record (s : State) (r : ErrRec) : (s.record r).hbm = s.hbm := by
  simp only [State.record]
  split
  case h_1 => rw [State.modPlot_hbm]
  case h_2 => rw [State.modSeg_hbm]
  case h_3 => rw [hbm_logRecord]

/-- A record that a segment coalesces leaves the writes that wait there. -/
theorem seg_writes_record (s : State) (r : ErrRec) (n : Nat) : ((s.record r).seg n).writes = (s.seg n).writes := by
  simp only [State.record]
  split
  case h_1 => rw [State.seg_modPlot]
  case h_2 m _ =>
    by_cases hn : n = m.val
    · rw [hn, State.seg_modSeg_same]
    · rw [State.seg_modSeg_other _ _ _ _ hn]
  case h_3 => rw [seg_logRecord]

/-- R321: the error record of a denial. -/
def State.denialRec (s : State) (plot : Nat) (q : AgentReq) : ErrRec :=
  { ErrRec.base with
    ty := 0x14, severity := 1, cls := 11, subunit := BitVec.ofNat 16 (hbmHash (64 * q.line.toNat)).1
    allotment := BitVec.ofNat 5 ((s.ownerOf plot).getD 0x1F), detail := 1, address := BitVec.ofNat 64 q.line.toNat }

theorem granuleDenied_eq (s : State) (plot : Nat) (q : AgentReq) (dst : BitVec 9 × BitVec 9) :
    s.granuleDenied plot q dst = (s.record (s.denialRec plot q)).emit (granuleAck q.seg dst q.tag 1) := rfl

/-- A line number is whole in the 64 bits of a record's address. -/
theorem toNat_address_denialRec (s : State) (plot : Nat) (q : AgentReq) :
    (s.denialRec plot q).address.toNat = q.line.toNat :=
  Nat.mod_eq_of_lt (Nat.lt_trans q.line.isLt (by decide))

/-- Settles O55: a request that fails either check is denied at once, and the record of the denial reaches neither HBM nor the writes
that wait at a segment. -/
theorem granuleDenied : Obligations.GranuleDenied := by
  intro k s ht hcrc hvc ho hy hx q hbad
  have request : AgentRequest k := ⟨ht, hcrc, hvc, ho, hy, hx⟩
  refine ⟨s.denialRec k.srcX.toNat q, rfl, toNat_address_denialRec _ _ _, ?denied, hbm_record _ _, seg_writes_record _ _⟩
  case denied =>
    rw [granule_of_request request, granuleAt_of_refused request (granuleAllowed_eq_false hbad), granuleDenied_eq]

/-! ### Requests whose answer is late (R324) -/

section
variable {p : PlotIx} {tag : BitVec 12} {q : AgentReq} {s : State}

/-- R324: a request that is due is sent again whole, or fails after four times. -/
theorem granuleResend_of_due (hq : (s.plot p.val).agent.find? (fun q => q.tag == tag) = some q)
    (hd : q.since + s.landingNs ≤ s.ns) :
    let t := s.modPlot p.val (fun x => { x with agent := x.agent.map (fun r =>
      if r.tag = tag then { r with retries := r.retries + 1, since := s.ns, got := [] } else r) })
    exec (.granuleResend p tag) s = .next (if 4 ≤ q.retries then s.agentFail p q 6 else t.emits (t.agentPackets p.val q)) := by
  show execGranuleResend p tag s = _
  simp only [execGranuleResend, hq]
  rw [if_neg (Nat.not_lt.mpr hd)]
  exact (apply_ite Host.Outcome.next _ _ _).symm

end

/-! ### Scrub, replacement and failure of a stack (R328, R329) -/

section
variable {k : StackIx} {s : State}

theorem hbmPatrolScrub_of_line {line : Nat} (hs : (s.stack k.val).state = 0)
    (hl : (s.stack k.val).lineAt k.val (s.stack k.val).scrubPos = some line) :
    exec (.hbmPatrolScrub k line) s = .next ((s.lineRead line).2.modStack k.val (fun x =>
      if x.scrubPos + 1 = stackLines then { x with scrubPos := 0, rowCorr := [], pcUnc := [] }
      else { x with scrubPos := x.scrubPos + 1 })) := by
  show execHbmPatrolScrub k line s = _
  rw [execHbmPatrolScrub, hl]
  exact onlyIf_of_true _ _ (by simp [hs])

/-- R328: a pseudo-channel with no replacement yet, whose failure is not its stack's, takes the next one that is left. -/
theorem pcReplacement_of_first {pc : Fin 64} (hm : (s.stack k.val).pcMove = none) (hs : (s.stack k.val).state ≠ 2)
    (hn : tget? (s.stack k.val).pcMap pc.val = none) (hf : ((s.failPc k.val pc.val).stack k.val).state ≠ 2)
    (hr : ((s.failPc k.val pc.val).stack k.val).pcReplacements < 4) :
    exec (.pcReplacement k pc) s = .next ((s.failPc k.val pc.val).modStack k.val (fun y => { y with
      pcReplacements := y.pcReplacements + 1, pcMove := some (pc.val, 0) })) := by
  show execPcReplacement k pc s = _
  simp only [execPcReplacement, hn, hm, Option.map_none, Option.getD_none, Bool.false_eq_true, if_false]
  rw [if_neg hs, if_neg hf, if_neg (Nat.not_le.mpr hr)]

/-! ### Training and zeroing (R327, R330, R331) -/

/-- R330, R331: the stack k as it reports its temperature. -/
def State.reported (s : State) (k : Nat) (temp : BitVec 32) : State := s.modStack k (fun x => { x with temperature := temp })

theorem hbmRetrain_of_needed {temp : BitVec 32} (ok : Bool) (hs : ((s.reported k.val temp).stack k.val).state = 0)
    (hn : ((s.reported k.val temp).stack k.val).needs = true) (hm : (s.reported k.val temp).mayTrain k.val = true) :
    exec (.hbmRetrain k temp ok) s = .next ((s.reported k.val temp).modStack k.val (fun x => { x with state := 1 })) := by
  have serves : ¬ (((s.reported k.val temp).stack k.val).state = 1 ∧ ((s.reported k.val temp).stack k.val).trained = true) := by
    simp [hs]
  have starts : (((s.reported k.val temp).stack k.val).state == 0 && ((s.reported k.val temp).stack k.val).needs &&
      (s.reported k.val temp).mayTrain k.val) = true := by simp [hs, hn, hm]
  show execHbmRetrain k temp ok s = _
  exact (if_neg serves).trans (onlyIf_of_true _ _ starts)

/-- R330: a stack whose training succeeds serves again, and the packets that waited at its segment go on. -/
theorem hbmRetrain_of_success {temp : BitVec 32} (hs : ((s.reported k.val temp).stack k.val).state = 1)
    (ht : ((s.reported k.val temp).stack k.val).trained = true) :
    exec (.hbmRetrain k temp true) s = .next (((s.reported k.val temp).modStack k.val (fun x => { x with
      state := 0, lastTrainTemp := x.temperature, due := false })).granulesGoOn (k.val / 3)) := by
  show execHbmRetrain k temp true s = _
  exact if_pos ⟨hs, ht⟩

end

theorem hbmZeroingDone_of_opening {a : AllotIx} {s : State} (he : (s.allot a.val).enable = .opening)
    (hz : (s.allot a.val).zeroed = false) :
    exec (.hbmZeroingDone a) s = .next ((({ s with hbm := (s.allot a.val).ranges.foldl (fun m r =>
      m.zeroRows (10 ^ 9 * r.1.toNat / 64) (10 ^ 9 * r.2.toNat / 64)) s.hbm } : State).modAllot a.val
        (fun x => { x with zeroed := true })).progressEnd (0x40 + a.val) 2) := by
  have opens : ¬ ((s.allot a.val).enable != .opening || (s.allot a.val).zeroed) = true := by simp [he, hz]
  show execHbmZeroingDone a s = _
  exact if_neg opens

/-- Settles O31: each command by its lemma above; a stack that fails has its record and its events from `State.failStack`. -/
theorem hbmCompletes : Obligations.HbmCompletes := by
  refine ⟨fun k s ht hcrc hvc ho hy hx ha hr hw => ?read, fun p tag q s hq hd => ⟨fun hn => ?again, fun hn => ?fails⟩,
    fun k s => ⟨fun line => hbmPatrolScrub_of_line, fun pc => pcReplacement_of_first, fun hs => ?failed,
      fun temp ok => ⟨hbmRetrain_of_needed ok, hbmRetrain_of_success⟩⟩,
    fun a s => hbmZeroingDone_of_opening⟩
  case read =>
    have request : AgentRequest k := ⟨ht, hcrc, hvc, ho, hy, hx⟩
    rw [granule_of_request request, granuleAt_of_allowed request ha hw, granuleAsk_of_read hr]
  case again => rw [granuleResend_of_due hq hd, if_neg (Nat.not_le.mpr hn)]
  case fails => rw [granuleResend_of_due hq hd, if_pos hn]
  case failed => exact ⟨_, congrArg Host.Outcome.next (if_neg hs)⟩

end Sys2Proof.Machine

/-! Completion of the dictionary's commands (R345–R359): a write of any object, the writes that turn a unit on or off, and the reads
with an effect. A write is the answer to what its object's write gives (`State.answered`), a read that to what its object's read gives
(`State.readAnswered`); which of the model's functions that is depends on the object's number alone. -/

namespace Sys2Proof.Machine

/-! ### Writes of any object (R345–R348) -/

section
variable {s : State} {r : Requester} {i sub : Nat}

/-- R348: a write that fails a check answers with its abort code, and changes nothing. -/
theorem putObject_of_refused {l : List Byte} (h : s.writeCheck r i sub l.length ≠ 0) :
    s.putObject r i sub l = State.answered r (s.writeCheck r i sub l.length, s) := by
  rw [State.putObject, State.dictWrite, if_pos h]
  rfl

/-- R348: a write of a byte that passes its checks and has its effect answers with code 0. -/
theorem putObject_of_success {t : State} (v : Byte) (h : s.writeCheck r i sub 1 = 0)
    (ht : ∀ l, leNat l = v.toNat → s.writeObject r i sub l false = (0, t)) :
    s.putObject r i sub [v] = t.emit (.answer r 0 []) := putObject_of_byte v h ht

theorem putWith_of_success {len : Nat} {f : State → Nat × State} {t : State} (h : s.writeCheck r i sub len = 0)
    (ht : f s = (0, t)) : s.putWith r i sub len f = t.emit (.answer r 0 []) := by
  simp [State.putWith, State.answer, h, ht]

end

/-- Settles O34: a write is answered once, with the code of the check that fails or with that of the object's own write. -/
theorem objectWriteCompletes : Obligations.ObjectWriteCompletes := by
  intro r i sub v s c
  refine ⟨fun hc => ?refused, fun hc => ?written⟩
  case refused => exact congrArg Host.Outcome.next (putObject_of_refused hc)
  case written => exact congrArg Host.Outcome.next (putObject_of_check hc rfl)

/-! ### The enable of a unit (R355, R379, R382–R384, R400, R417, R509, R511) -/

section
variable (s : State) (r : Requester) {l : List Byte} {v : Nat}

theorem writeObject_module (hl : leNat l = v) : s.writeObject r 0x2000 1 l false = s.moduleWrite v := by
  simp [State.writeObject, State.settingWrite, blockOnly, hl]

theorem writeObject_plot (p : PlotIx) (hl : leNat l = v) :
    s.writeObject r (0x2100 + p.val) 1 l false = s.plotWrite p.val v [] := by
  simp (disch := omega) [State.writeObject, blockOnly, if_neg, if_pos, hl]

theorem writeObject_pavilion (p : PavIx) (hl : leNat l = v) :
    s.writeObject r (0x2200 + p.val) 2 l false = s.pavWrite p.val v true := by
  simp (disch := omega) [State.writeObject, blockOnly, if_neg, if_pos, hl]

theorem writeObject_hostPort (h : PortIx) (hl : leNat l = v) :
    s.writeObject r (0x2500 + h.val) 1 l false = s.hostPortWrite h.val v := by
  simp (disch := omega) [State.writeObject, blockOnly, if_neg, if_pos, hl]

theorem writeObject_serverPort (n : SrvIx) (hl : leNat l = v) :
    s.writeObject r (0x2510 + n.val) 2 l false = s.srvWrite n.val v := by
  simp (disch := omega) [State.writeObject, blockOnly, if_neg, if_pos, hl]

/-- R351, R352: outside a compute reset, an allotment's enable takes 0 and 1. -/
theorem writeObject_allotEnable (a : AllotIx) (hc : s.lodge.computeReset = false) (hv : v ≤ 1) (hl : leNat l = v) :
    s.writeObject r (0x2400 + a.val) 1 l false = if v = 1 then s.allotEnable a.val else s.allotDisable a.val := by
  rw [writeObject_allot, hl]
  simp [State.allotWriteObj, Nat.not_lt.mpr hv, hc]

end

section
variable {s : State}

/-- R355: an operating module with no job stops at once. -/
theorem moduleWrite_stop (hm : s.lodge.moduleState = 3)
    (hj : (List.range 16).all (fun a => (s.allot a).jobs.isEmpty) = true) : s.moduleWrite 1 = (0, s.toState 1) := by
  rw [State.moduleWrite, hm]
  exact if_pos hj

/-- R509: a stopped module with no allotment that is live operates again through a compute reset. -/
theorem moduleWrite_operate (hm : s.lodge.moduleState = 1) (hl : s.anyLive = false) :
    s.moduleWrite 3 = (0, s.computeReset) := by
  simp [State.moduleWrite, hm, hl]

theorem plotWrite_close {p : Nat} (d : List Nat) (he : (s.plot p).enable = .open_) (hs : s.shuffleIn p = false) :
    s.plotWrite p 0 d = (0, (s.modPlot p (fun x => { x with enable := .closing })).closePlot p) := by
  simp [State.plotWrite, he, hs]

theorem plotWrite_open {p : Nat} (d : List Nat) (he : (s.plot p).enable = .closed) :
    s.plotWrite p 1 d = (0, s.openPlot p d) := by
  simp [State.plotWrite, he]

theorem pavWrite_close {p : Nat} (ok : Bool) (hc : s.lodge.computeReset = false) (he : (s.pav p).enable = .open_)
    (hs : s.shuffleIn (plotOf p) = false) : s.pavWrite p 0 ok = (0, s.closePav p) := by
  simp [State.pavWrite, hc, he, hs]

theorem pavWrite_open {p : Nat} (ok : Bool) (hc : s.lodge.computeReset = false) (he : (s.pav p).enable = .closed)
    (hr : (s.pav p).role ≠ .retired) : s.pavWrite p 1 ok = (0, s.openPav p ok) := by
  simp [State.pavWrite, hc, he, hr]

theorem hostPortWrite_close {h : Nat} (he : (s.hostPort h).enable = .open_) :
    s.hostPortWrite h 0 =
      (0, ((s.quiescePort h).modHost h (fun x => { x with enable := .closed, linkUp := false })).latchBars h) := by
  simp [State.hostPortWrite, he]

theorem hostPortWrite_open {h : Nat} (he : (s.hostPort h).enable = .closed) :
    s.hostPortWrite h 1 = (0, s.modHost h (fun x => { x with enable := .open_ })) := by
  simp [State.hostPortWrite, he]

theorem srvWrite_close {n : Nat} (he : (s.srv n).enable = .open_) :
    s.srvWrite n 0 =
      (0, ((s.modSrv n (fun x => { x with enable := .closing })).closeWindows n (fun _ => true)).settleSrv n) := by
  simp [State.srvWrite, he]

theorem srvWrite_open {n : Nat} (he : (s.srv n).enable = .closed) :
    s.srvWrite n 1 = (0, s.modSrv n (fun x => { x with enable := .open_ })) := by
  simp [State.srvWrite, he]

end

/-- Settles O35: each command is a write of 0 or 1 (for the module 1 or 3) to the unit's enable, whose effect the unit's state
decides. -/
theorem enablesComplete : Obligations.EnablesComplete := by
  intro r s ok done
  refine ⟨fun h hm hj => ?stop, fun h hm hl => ?operate,
    fun a h hc => ⟨?allotOpen, ?allotClose⟩,
    fun p h => ⟨fun he hs => ?plotClose, fun he => ?plotOpen⟩,
    fun p h hc => ⟨fun he hs => ?pavClose, fun drillOk he hr => ?pavOpen⟩,
    fun k h => ⟨fun he => ?hostClose, fun he => ?hostOpen⟩,
    fun n h => ⟨fun he => ?srvClose, fun he => ?srvOpen⟩⟩
  case stop =>
    exact congrArg Host.Outcome.next (putObject_of_success 1 h fun _ hl =>
      (writeObject_module s r hl).trans (moduleWrite_stop hm hj))
  case operate =>
    exact congrArg Host.Outcome.next (putObject_of_success 3 h fun _ hv =>
      (writeObject_module s r hv).trans (moduleWrite_operate hm hl))
  case allotOpen =>
    exact congrArg Host.Outcome.next (putObject_of_byte 1 h fun _ => writeObject_allotEnable s r a hc (by decide))
  case allotClose =>
    exact congrArg Host.Outcome.next (putObject_of_byte 0 h fun _ => writeObject_allotEnable s r a hc (by decide))
  case plotClose =>
    exact congrArg Host.Outcome.next (putObject_of_success 0 h fun _ hl =>
      (writeObject_plot s r p hl).trans (plotWrite_close [] he hs))
  case plotOpen =>
    exact congrArg Host.Outcome.next (putWith_of_success h (plotWrite_open [] he))
  case pavClose =>
    exact congrArg Host.Outcome.next (putObject_of_success 0 h fun _ hl =>
      (writeObject_pavilion s r p hl).trans (pavWrite_close true hc he hs))
  case pavOpen =>
    exact congrArg Host.Outcome.next (putWith_of_success h (pavWrite_open drillOk hc he hr))
  case hostClose =>
    exact congrArg Host.Outcome.next (putObject_of_success 0 h fun _ hl =>
      (writeObject_hostPort s r k hl).trans (hostPortWrite_close he))
  case hostOpen =>
    exact congrArg Host.Outcome.next (putObject_of_success 1 h fun _ hl =>
      (writeObject_hostPort s r k hl).trans (hostPortWrite_open he))
  case srvClose =>
    exact congrArg Host.Outcome.next (putObject_of_success 0 h fun _ hl =>
      (writeObject_serverPort s r n hl).trans (srvWrite_close he))
  case srvOpen =>
    exact congrArg Host.Outcome.next (putObject_of_success 1 h fun _ hl =>
      (writeObject_serverPort s r n hl).trans (srvWrite_open he))

/-! ### Reads with an effect (R346, R356, R536) -/

/-- The answer to a read: its abort code, 0 for success, the object's bytes, and the state with that answer. -/
def State.readAnswered (r : Requester) (w : Nat × List Byte × State) : State :=
  w.2.2.emit (.answer r (BitVec.ofNat 16 w.1) w.2.1)

section
variable {s : State} {r : Requester}

theorem getObject_of_dictRead {i sub : Nat} {w : Nat × List Byte × State} (h : s.dictRead r i sub = w) :
    s.getObject r i sub = State.readAnswered r w := by
  rw [State.getObject, h]
  rfl

/-- R346: no object with a read effect of its own is a counter that clears. -/
theorem dictRead_of_clears {i sub : Nat} (h : s.readCheck r i sub = 0) (hc : clearsOnRead i sub = true) :
    s.dictRead r i sub = (0, s.objValue r i sub, s.clearCounter i sub) := by
  have notLog : ∀ k, ¬ (i = 0x5080 ∧ sub = k) := by rintro k ⟨rfl, -⟩; simp [clearsOnRead] at hc
  have notReport : ¬ (i = 0x6000 ∧ sub = 2) := by rintro ⟨rfl, -⟩; simp [clearsOnRead] at hc
  have notTest : ¬ (i = 0x7F00 ∧ sub ≠ 0) := by rintro ⟨rfl, -⟩; simp [clearsOnRead] at hc
  simp only [State.dictRead, h, notLog, notReport, notTest, hc, ne_eq, not_true_eq_false, if_false, if_true]

theorem dictRead_logRecord (h : s.readCheck r 0x5080 3 = 0) : s.dictRead r 0x5080 3 = s.logRead (s.readerOf r) := by
  simp [State.dictRead, h]

theorem dictRead_lost (h : s.readCheck r 0x5080 4 = 0) :
    s.dictRead r 0x5080 4 = (0, s.lostRead (s.readerOf r)) := by
  simp [State.dictRead, h]

theorem dictRead_report (h : s.readCheck r 0x6000 2 = 0) : s.dictRead r 0x6000 2 = s.reportRead r := by
  simp [State.dictRead, h]

theorem logRead_of_record {d : Reader} {e : Nat × ErrRec}
    (he : (s.recordsFor d).find? (fun e => e.1 == s.readPos d) = some e) :
    s.logRead d = (0, natLE 64 e.2.toBits.toNat, s.modLodge (fun l => { l with readers := (aset l.readers d
      { (aget ReaderPos.start l.readers d) with position := s.readPos d + 1 }) })) := by
  simp only [State.logRead, he]

theorem reportRead_of_nonce {e : Reader × List Byte}
    (he : s.lodge.nonces.find? (fun e => e.1 == s.readerOf r) = some e) :
    s.reportRead r = (0, s.report (s.mailAllot r) e.2,
      s.modLodge (fun l => { l with nonces := l.nonces.filter (fun x => x.1 != s.readerOf r) })) := by
  simp only [State.reportRead, he]

end

/-- Settles O37: each command reads one object, whose read that passes its checks gives the value and the state stated. -/
theorem readsComplete : Obligations.ReadsComplete := by
  intro r s
  refine ⟨fun i sub h hc => ?counter, fun h e he => ?record, fun h => ?lost, fun h e he => ?report⟩
  case counter =>
    exact (onlyIf_of_true _ _ hc).trans (congrArg Host.Outcome.next (getObject_of_dictRead (dictRead_of_clears h hc)))
  case record =>
    exact congrArg Host.Outcome.next (getObject_of_dictRead ((dictRead_logRecord h).trans (logRead_of_record he)))
  case lost => exact congrArg Host.Outcome.next (getObject_of_dictRead (dictRead_lost h))
  case report =>
    exact congrArg Host.Outcome.next (getObject_of_dictRead ((dictRead_report h).trans (reportRead_of_nonce he)))

end Sys2Proof.Machine

/-! Completion of the Holcel ring's commands (R333–R344). A frame that is delivered is served by its service (`State.serve`), so a
command of one service completes with that service's effect on the state after the frame's arrival. -/

namespace Sys2Proof.Machine

/-! ### Frames that are delivered (R339) -/

/-- R339: a station's own frame that comes round is not delivered to it. -/
theorem arriveAs_of_sent {s : State} {f : HFrame} (g : HFrame) (h : s.lodge.sent f = true) : (s.arriveAs f g).1 = false := by
  by_cases stops : (s.lodge.relay || !s.lodge.booted || (f.fcsOk && !f.wf)) = true
  · rw [State.arriveAs, if_pos stops]
  · rw [State.arriveAs, if_neg stops]
    simp only [h, true_or, or_true, if_true]
    split <;> rfl

theorem sent_of_delivered {s : State} {f : HFrame} (h : (s.arrive f).1 = true) : s.lodge.sent f = false := by
  cases own : s.lodge.sent f with
  | false => rfl
  | true => exact absurd h (ne_true_of_eq_false (arriveAs_of_sent f own))

theorem ringIn_of_delivered {s : State} {f : HFrame} (h : (s.arrive f).1 = true) :
    s.ringIn f = (s.arrive f).2.serve f := if_pos h

/-- The command of one service, with a frame of that service that is delivered. -/
theorem ringCmd_of_delivered {s : State} {f : HFrame} {n : BitVec 4} {rsp : Bool} {x : State} (h : (s.arrive f).1 = true)
    (hn : f.service = n) (hr : f.rsp = rsp) (hx : (s.arrive f).2.serve f = x) : ringCmd f n.toNat rsp s = .next x := by
  rw [ringCmd, onlyIf_of_true _ _ (by simp [hn, hr]), ringIn_of_delivered h, hx]

/-! ### What a delivered frame does, by its service (R340–R344, R347) -/

section
variable {t : State} {f : HFrame}

theorem serve_expRead (hn : f.service = 0) (hr : f.rsp = false) : t.serve f = t.expRead f := by
  simp [State.serve, hn, hr]

theorem serve_expWrite (hn : f.service = 1) (hr : f.rsp = false) : t.serve f = t.expWrite f := by
  simp [State.serve, hn, hr]

theorem serve_segRead (hn : f.service = 2) (hr : f.rsp = false) : t.serve f = t.segRead f := by
  simp [State.serve, hn, hr]

/-- R337: a segmented write without a session to 0x1100:02 is an assignment, every other one a write. -/
theorem serve_segWrite (hn : f.service = 3) (hr : f.rsp = false) :
    t.serve f = if f.session = 0 ∧ f.index = 0x1100 ∧ f.sub = 2 then t.assign f else t.segWrite f := by
  simp [State.serve, hn, hr]

theorem serve_blockData (hn : f.service = 4) (hr : f.rsp = false) : t.serve f = t.blockData f := by
  simp [State.serve, hn, hr]

theorem serve_ackEvent (hn : f.service = 5) (hr : f.rsp = true) : t.serve f = t.ackEvent f := by
  simp [State.serve, hn, hr]

theorem serve_answerDelay (hn : f.service = 6) (hr : f.rsp = false) (hp : f.param = 1) (hs : t.lodge.set.station ≠ 0x7E) :
    t.serve f = t.answerDelay f := by
  have speaks : ¬ t.lodge.set.station = 126#8 := hs
  simp [State.serve, hn, hr, hp, speaks]

theorem serve_takeDelay (hn : f.service = 6) (hr : f.rsp = true) : t.serve f = t.takeDelay f := by
  simp [State.serve, hn, hr]

theorem serve_abortFrame (hn : f.service = 8) (hr : f.rsp = false) (hs : t.lodge.set.station ≠ 0x7E) :
    t.serve f = t.abortFrame f := by
  have speaks : ¬ t.lodge.set.station = 126#8 := hs
  simp [State.serve, hn, hr, speaks]

theorem serve_blockCtl (hn : f.service = 9) (hr : f.rsp = false) : t.serve f = t.blockCtl f := by
  simp [State.serve, hn, hr]

/-- R347: an abort in a session that is open. -/
theorem abortFrame_of_session (h : (t.sessionOf (ringFrom f)).isSome = true) :
    t.abortFrame f = t.dropTransfer (.station f.src.toNat) f.index f.sub := if_pos h

/-- R343: an empty response from the station that events go to. -/
theorem ackEvent_of_empty (hn : f.service = 5) (hr : f.rsp = true) (hp : f.payload = [])
    (hd : t.lodge.set.eventStation = 0x7F ∨ f.src.toNat = t.lodge.set.eventStation.toNat) :
    t.ackEvent f = t.modLodge (fun l => { l with events := l.events.filter (fun e => e.seq != f.seq) }) :=
  if_pos ⟨hr, hn, by rw [hp]; rfl, hd⟩

end

/-! ### Transfers and events that wait (R341, R343) -/

/-- R341: a station's transfer of an object that has been idle for 100 ms. -/
theorem segmentedTransferDrop_of_idle {st : BitVec 7} {i : BitVec 16} {sub : BitVec 8} {x : Transfer} {s : State}
    (hx : x ∈ s.lodge.transfers) (hr : x.reader = .station st.toNat) (hi : x.index = i) (hs : x.sub = sub)
    (hd : 10 ^ 8 + x.since ≤ s.ns) :
    exec (.segmentedTransferDrop st i sub) s = .next (s.dropTransfer (.station st.toNat) i sub) :=
  onlyIf_of_true _ _ (List.any_eq_true.mpr ⟨x, hx, by simpa [hr, hi, hs] using hd⟩)

section
variable {seq : BitVec 16} {e : Waiting} {s : State}

theorem eventResend_of_spent (he : s.lodge.events.find? (fun e => e.seq == seq) = some e) (hd : 10 ^ 8 + e.sent ≤ s.ns)
    (ha : 10 ≤ e.attempts) :
    exec (.eventResend seq) s = .next (s.modLodge (fun l => { l with events := l.events.filter (fun x => x.seq != seq) })) := by
  show execEventResend seq s = _
  simp only [execEventResend, he, if_neg (Nat.not_lt.mpr hd), if_pos ha]

theorem eventResend_of_left (he : s.lodge.events.find? (fun e => e.seq == seq) = some e) (hd : 10 ^ 8 + e.sent ≤ s.ns)
    (ha : e.attempts < 10) :
    let t := s.modLodge (fun l => { l with events := l.events.map (fun x =>
      if x.seq = seq then { x with attempts := x.attempts + 1, sent := s.ns } else x) })
    exec (.eventResend seq) s = .next (t.ringOut
      (eventFrame (t.lodge.set.station.setWidth 7) (t.lodge.set.eventStation.setWidth 7) seq e.event)) := by
  show execEventResend seq s = _
  simp only [execEventResend, he, if_neg (Nat.not_lt.mpr hd), if_neg (Nat.not_le.mpr ha)]

end

/-- Settles O32: a delivered frame is served by its service, and what waits too long is dropped or sent again. -/
theorem ringServicesComplete : Obligations.RingServicesComplete := by
  refine ⟨fun f s h => ⟨fun hn hr => ?expRead, fun hn hr => ?expWrite, fun hn hr => ?segRead, fun hn hr ho => ?segWrite,
      fun hn hr => ?blockCtl, fun hn hr => ?blockData, fun hn hr hs ha => ?abort, fun hn hr hp hd => ?ack⟩,
    fun st i sub x s => segmentedTransferDrop_of_idle,
    fun seq e s he hd => ⟨fun ha => eventResend_of_spent he hd ha, fun ha => ⟨_, eventResend_of_left he hd ha⟩⟩⟩
  case expRead => exact ringCmd_of_delivered h hn hr (serve_expRead hn hr)
  case expWrite => exact ringCmd_of_delivered h hn hr (serve_expWrite hn hr)
  case segRead => exact ringCmd_of_delivered h hn hr (serve_segRead hn hr)
  case segWrite =>
    have notAssign : ¬ (f.session = 0 ∧ f.index = 0x1100 ∧ f.sub = 2) := by
      rintro ⟨hs, hi, hsub⟩
      exact ho.elim (· hs) (·.elim (· hi) (· hsub))
    exact ringCmd_of_delivered h hn hr ((serve_segWrite hn hr).trans (if_neg notAssign))
  case blockCtl => exact ringCmd_of_delivered h hn hr (serve_blockCtl hn hr)
  case blockData => exact ringCmd_of_delivered h hn hr (serve_blockData hn hr)
  case abort =>
    exact ringCmd_of_delivered h hn hr ((serve_abortFrame hn hr hs).trans (abortFrame_of_session ha))
  case ack => exact ringCmd_of_delivered h hn hr ((serve_ackEvent hn hr).trans (ackEvent_of_empty hn hr hp hd))

/-! ### The relay (R333, R334) -/

section
variable {s : State}

theorem relayOpen_of_up (hb : s.lodge.booted = true) (ha : s.lodge.portA = true) (hp : s.lodge.portB = true)
    (hw : s.lodge.watchdogFired = false) (hr : s.lodge.relay = true) :
    exec .relayOpen s = .next (((s.modLodge (fun l => { l with relay := false, watchdogFrom := s.ns })).emit
      (.relay false)).settleStep1) :=
  onlyIf_of_true _ _ (by simp [hb, ha, hp, hw, hr])

theorem watchdogExpiry_of_passed {restarted : Nat} (hr : s.lodge.relay = false)
    (hw : max restarted s.lodge.watchdogFrom + 1000000 * s.lodge.set.watchdog.toNat ≤ s.ns) :
    exec (.watchdogExpiry restarted) s =
      .next ((s.modLodge (fun l => { l with relay := true, watchdogFired := true })).emit (.relay true)) :=
  onlyIf_of_true _ _ (by rw [hr, decide_eq_true hw]; rfl)

end

/-! ### Time (R344) -/

theorem link_setLink_other (l : Lodge) (b : Bool) (x : RingLink) : (l.setLink b x).link (!b) = l.link (!b) := by
  cases b <;> rfl

section
variable {s t : State} {f : HFrame}

theorem sync_of_delivered {d : BitVec 64} (hf : isSync f = true) (h : (s.arriveAs f (stayed f d.toNat)).1 = true) :
    exec (.sync f d) s = .next ((s.arriveAs f (stayed f d.toNat)).2.followSync f) := by
  show execSync f d s = _
  exact (onlyIf_of_true _ _ hf).trans (congrArg Host.Outcome.next (if_pos h))

/-- A delivered DELAY_REQ is that of another station. -/
theorem delayReq_of_delivered (hn : f.service = 6) (hr : f.rsp = false) (hp : f.param = 1) (h : (s.arrive f).1 = true)
    (hs : (s.arrive f).2.lodge.set.station ≠ 0x7E) : exec (.delayReq f) s = .next ((s.arrive f).2.answerDelay f) := by
  have own := sent_of_delivered h
  show execDelayReq f s = _
  simp [execDelayReq, hn, hr, hp, own, ringIn_of_delivered h, serve_answerDelay hn hr hp hs]

/-- The first DELAY_REQ of the module's own over a link. -/
theorem delayReq_of_own (hn : f.service = 6) (hr : f.rsp = false) (hp : f.param = 1) (own : s.lodge.sent f = true)
    (hh : s.lodge.here.isSome = true) (hb : s.lodge.booted = true) (hrel : s.lodge.relay = false)
    (ha : (s.lodge.link f.onB).asked = none) :
    let q := s.nextSeq
    exec (.delayReq f) s = .next ((q.2.sendRing (q.2.ringFrame false 6 f.dst.toNat 0 1 q.1 0 (natLE 8 s.ns))).modLodge (fun l =>
      l.setLink f.onB { s.lodge.link f.onB with req := some (q.1, s.ns), asked := some s.ns })) := by
  show execDelayReq f s = _
  simp [execDelayReq, onlyIf, hn, hr, hp, own, hh, hb, hrel, ha]

/-- The answer to the one request that waits gives its link's delay. -/
theorem takeDelay_of_asked {b : Bool} {t0 : Nat} (hb : (t.lodge.link b).req = some (f.seq, t0))
    (ho : (t.lodge.link (!b)).req = none) :
    t.takeDelay f = t.modLodge (fun l => l.setLink b { t.lodge.link b with
      delay := BitVec.ofNat 64 ((t.ns - t0) / 2), req := none }) := by
  cases b with
  | false =>
    have other : ∀ x, ((t.lodge.setLink false x).link true).req = none := fun x =>
      (congrArg RingLink.req (link_setLink_other t.lodge false x)).trans ho
    simp [State.takeDelay, State.each, hb, other]
  | true =>
    have first : (t.lodge.link false).req = none := ho
    simp [State.takeDelay, State.each, hb, first]

/-- A frame that is no SYNC is forwarded as it is. -/
theorem frameForward_of_notSync (hf : isSync f = false) : exec (.frameForward f) s = .next (s.ringIn f) := by
  show execFrameForward f s = _
  simp [execFrameForward, State.ringIn, hf]

/-- R337: the module that an assignment names takes its station and answers. -/
theorem assign_of_assigned (hd : f.dst = 0x7F) (hs : f.session = 0) (hi : f.index = 0x1100) (hsub : f.sub = 2)
    (ha : t.assigned f.payload = true) : t.assign f = (t.setStation (leNat (f.payload.drop 8))).respond f 0 [] :=
  if_pos ⟨hd, hi, hsub, hs, ha⟩

theorem stationAssign_of_delivered (hn : f.service = 3) (hr : f.rsp = false) (hs : f.session = 0) (hi : f.index = 0x1100)
    (hsub : f.sub = 2) (h : (s.arrive f).1 = true) : exec (.stationAssign f) s = .next ((s.arrive f).2.assign f) := by
  show execStationAssign f s = _
  rw [execStationAssign, onlyIf_of_true _ _ (by simp [hn, hr, hs, hi, hsub]), ringIn_of_delivered h, serve_segWrite hn hr,
    if_pos ⟨hs, hi, hsub⟩]

theorem syncSend_of_due (hb : s.lodge.booted = true) (hr : s.lodge.relay = false) (hm : s.lodge.timeMaster = s.lodge.set.station)
    (hd : ∀ t, s.lodge.syncSent = some t → t + 1000000 * s.lodge.syncInterval.toNat ≤ s.ns) :
    exec .syncSend s = .next ((s.nextSeq.2.sendRing (s.nextSeq.2.ringFrame false 6 0x7F 0 0 s.nextSeq.1 0
      (natLE 8 s.ns))).modLodge (fun l => { l with lastSync := s.ns, syncSent := some s.ns })) := by
  show execSyncSend s = _
  cases last : s.lodge.syncSent with
  | none => simp [execSyncSend, last, hb, hr, hm]
  | some t => simp [execSyncSend, last, hb, hr, hm, hd t last]

theorem syncLost_of_late (ht : s.lodge.timeLocked = true) (hl : 10 ^ 10 + s.lodge.lastSync ≤ s.ns) :
    exec .syncLost s = .next ((s.modLodge (fun l => { l with timeLocked := false, slew := 0 })).event 0x000B 0 0x1100 8 0x1F) :=
  onlyIf_of_true _ _ (by rw [ht, decide_eq_true hl]; rfl)

end

/-- Settles O33: the relay, SYNC and the delays each by its lemma above; any other frame is served as it is delivered. -/
theorem ringTimeCompletes : Obligations.RingTimeCompletes := by
  refine ⟨fun s => ⟨relayOpen_of_up, fun restarted => watchdogExpiry_of_passed⟩,
    fun f s => ⟨fun d hf h => sync_of_delivered hf h, fun hn hr hp h hs => ?answer, delayReq_of_own,
      fun b t0 hn hr h hb ho => ?delay, fun hf h => ?served, fun hf h => ?forwarded,
      fun hn hr hd hs hi hsub h ha => ?assigned⟩,
    fun s => ⟨syncSend_of_due, syncLost_of_late⟩⟩
  case answer => exact (delayReq_of_delivered hn hr hp h hs).trans (congrArg Host.Outcome.next (if_pos hp))
  case delay => exact ringCmd_of_delivered h hn hr ((serve_takeDelay hn hr).trans (takeDelay_of_asked hb ho))
  case served => rw [frameForward_of_notSync hf, ringIn_of_delivered h]
  case forwarded =>
    exact (frameForward_of_notSync hf).trans (congrArg Host.Outcome.next (if_neg (ne_true_of_eq_false h)))
  case assigned =>
    rw [stationAssign_of_delivered hn hr hs hi hsub h, assign_of_assigned hd hs hi hsub ha]

end Sys2Proof.Machine

/-! What a step leaves behind it (spec/00_scope.md, spec/11_hbm.md). Each command is made of the shared operations, whose lemmas under
Laws/Grows*.lean say that the queue stays, that what has been sent stays sent, that the draw counter does not fall and that HBM keeps
its canonical form; so one lemma per command, and one case split over the commands, say it of every command. A command whose meaning is
one call or two of such operations has its proof in the case split itself. -/

namespace Sys2Proof.Machine

section
variable {z s : State}

/-! ### The commands of Machine/Fabric.lean -/

theorem execReq_grows {k : Packet} (hs : Grows z s) : GrowsR z (execReq k s) := by
  unfold execReq
  refine wfOr_grows _ _ _ hs ?_
  dsimp only
  refine .next ?_
  split
  next t stopped => exact State.passage_grows _ _ hs stopped
  · exact State.discard_grows _ _ hs
  · refine .ite _ (State.answerQuery_grows _ _ _ hs) ?_
    split
    · exact State.reply_grows _ _ _ _ _ _ (State.grantHeld_grows _ _ hs)
    · exact State.reply_grows _ _ _ _ _ _ (State.grantHeld_grows _ _ hs)
    · refine .ite _ (State.reply_grows _ _ _ _ _ _ (State.grantHeld_grows _ _ hs)) ?_
      refine .ite _ (State.reply_grows _ _ _ _ _ _ (State.grantHeld_grows _ _ hs)) ?_
      split
      · exact State.reply_grows _ _ _ _ _ _ (State.grantHeld_grows _ _ hs)
      · exact State.reply_grows _ _ _ _ _ _ (State.grantHeld_grows _ _ hs)
      · exact State.reply_grows _ _ _ _ _ _ (State.modRx_grows _ _ _ (State.grantHeld_grows _ _ hs))
      · exact State.grant_grows _ _ _ _ (State.grantHeld_grows _ _ hs)
      · exact State.failFrom_grows _ _ (State.brokenTag_grows _ _ _ (State.grantHeld_grows _ _ hs))

theorem execRead_grows {k : Packet} (hs : Grows z s) : GrowsR z (execRead k s) := by
  unfold execRead
  refine wfOr_grows _ _ _ hs (.next ?_)
  split
  next t dropped => exact State.passage_grows _ _ hs dropped
  · exact State.discard_grows _ _ hs
  next r _ =>
    extract_lets pumped q a t x
    have hpumped : Grows z pumped := State.pumpReads_grows _ _ hs
    have reply {u : State} (status tag length opq : Nat) (hu : Grows z u) : Grows z (u.reply k status tag length opq) :=
      State.reply_grows _ _ _ _ _ _ hu
    refine .ite _ (reply _ _ _ _ hpumped) (.ite _ (reply _ _ _ _ hpumped) ?_)
    split
    · exact State.failFrom_grows _ _ (State.brokenTag_grows _ _ _ hpumped)
    · exact .ite _ (.ite _ hpumped (reply _ _ _ _ hpumped)) (.ite _ (State.serveRead_grows _ _ _ hpumped)
        (.ite _ (.ite _ (State.modRx_grows _ _ _ hpumped) (reply _ _ _ _ (State.modRx_grows _ _ _ hpumped))) (reply _ _ _ _ hpumped)))

theorem execReply_grows {k : Packet} (hs : Grows z s) : GrowsR z (execReply k s) := by
  unfold execReply
  refine wfOr_grows _ _ _ hs (.next ?_)
  split
  next t stopped => exact State.passage_grows _ _ hs stopped
  · exact State.discard_grows _ _ hs
  · split
    · exact State.answerTx_grows _ _ _ _ hs
    · split
      · exact .ite _ (State.endRead_grows _ _ _ hs) hs
      · exact hs

theorem execData_grows {k : Packet} (hs : Grows z s) : GrowsR z (execData k s) := by
  unfold execData
  refine wfOr_grows _ _ _ hs (.next ?_)
  split
  next t stopped => exact State.passage_grows _ _ hs stopped
  · exact State.discard_grows _ _ hs
  · refine .ite _ (State.discard_grows _ _ hs) ?_
    split
    · split
      · exact .ite _ (State.reply_grows _ _ _ _ _ _ hs) hs
      · exact hs
    · exact .ite _ hs (.ite _ (State.modRx_grows _ _ _ hs) (.ite _ hs (State.landData_grows _ _ _ _ hs)))

theorem execNack_grows {k : Packet} (hs : Grows z s) : GrowsR z (execNack k s) := by
  unfold execNack
  refine wfOr_grows _ _ _ hs ?_
  dsimp only
  refine .next ?_
  split
  next t stopped => exact State.passage_grows _ _ hs stopped
  · exact State.discard_grows _ _ hs
  · split
    · exact .ite _ (State.sendData_grows _ _ _ _ _ (State.modRx_grows _ _ _ hs)) hs
    · split
      · exact State.sendRange_grows _ _ _ _ _ _ _ _ _ _ (State.modRx_grows _ _ _ hs)
      · exact hs

theorem execSignalPacket_grows {k : Packet} (hs : Grows z s) : GrowsR z (execSignalPacket k s) := by
  unfold execSignalPacket
  refine wfOr_grows _ _ _ hs ?_
  dsimp only
  refine .next ?_
  split
  next t stopped => exact State.passage_grows _ _ hs stopped
  · exact State.discard_grows _ _ hs
  · split
    · exact .ite _ (State.modSeq_grows _ _ _ hs) (State.discard_grows _ _ hs)
    · exact State.discard_grows _ _ hs

theorem execControl_grows {k : Packet} (hs : Grows z s) : GrowsR z (execControl k s) := by
  unfold execControl
  refine wfOr_grows _ _ _ hs (.next ?_)
  split
  next t stopped => exact State.passage_grows _ _ hs stopped
  · exact State.emit_grows _ _ hs
  · split
    · exact State.emit_grows _ _ hs
    · exact State.emit_grows _ _ hs
    · exact State.discard_grows _ _ hs

theorem execFullRetry_grows {r : Receiver} {tag : BitVec 12} (hs : Grows z s) : GrowsR z (execFullRetry r tag s) := by
  unfold execFullRetry
  split
  · exact onlyIf_grows _ _ _ hs (State.resendReq_grows _ _ _ _ _ (State.modRx_grows _ _ _ hs))
  · exact .next hs

theorem execRequestTimeout_grows {r : Receiver} {tag : BitVec 12} (hs : Grows z s) : GrowsR z (execRequestTimeout r tag s) := by
  unfold execRequestTimeout
  split
  · exact .ite _ (.next hs) (.ite _ (.next (State.failTx_grows _ _ _ _ _ hs)) (.next (State.resendReq_grows _ _ _ _ _
      (State.modRx_grows _ _ _ hs))))
  · exact .next hs

theorem execLandingTimeout_grows {r : Receiver} {entry : BitVec 12} (hs : Grows z s) :
    GrowsR z (execLandingTimeout r entry s) := by
  unfold execLandingTimeout
  dsimp only
  split
  · exact .ite _ (.next hs) (.ite _ (.next (State.emits_grows _ _ (State.modRx_grows _ _ _ hs))) (.next (State.pumpAll_grows _
      _ (State.landFail_grows _ _ _ _ _ hs))))
  · exact .next hs

theorem execDoneQuery_grows {r : Receiver} {tag : BitVec 12} (hs : Grows z s) : GrowsR z (execDoneQuery r tag s) := by
  unfold execDoneQuery
  dsimp only
  split
  · exact .next (State.resendReq_grows _ _ _ _ _ (State.modRx_grows _ _ _ hs))
  · split
    · exact .next (State.emit_grows _ _ (State.modRx_grows _ _ _ hs))
    · exact .next hs

theorem execLinkErrorWindow_grows {l : LinkId} {failures : Nat} {bits : Nat} (hs : Grows z s) :
    GrowsR z (execLinkErrorWindow l failures bits s) := by
  unfold execLinkErrorWindow
  dsimp only
  refine .ite _ (.next hs) (.next ?_)
  split
  · exact .ite _ (State.modStack_grows _ _ _ (State.modLink_grows _ _ _ hs)) (State.modLink_grows _ _ _ hs)
  · exact .ite _ (State.record_grows _ _ (State.modLink_grows _ _ _ hs)) (State.modLink_grows _ _ _ hs)

theorem execLinkWithdrawal_grows {l : LinkId} {vc : BitVec 2} (hs : Grows z s) : GrowsR z (execLinkWithdrawal l vc s) := by
  unfold execLinkWithdrawal
  refine onlyIf_grows _ _ _ hs ?_
  dsimp only
  split
  · split
    · exact State.recover_grows _ _ _ (State.withdraw_grows _ _ hs)
    · exact State.withdraw_grows _ _ hs
  · exact State.withdraw_grows _ _ hs

/-! ### The commands of Machine/HBM.lean -/

theorem execGranule_grows {k : Packet} (hs : Grows z s) : GrowsR z (execGranule k s) :=
  wfOr_grows _ _ _ hs (.next (.ite _ (State.crcFailed_grows _ _ hs) (.ite _ (State.discard_grows _ _ hs) (.ite _ (.ite _
    (State.granuleAt_grows _ _ hs) (State.discard_grows _ _ hs)) (.ite _ (.ite _ (State.granuleAt_grows _ _ hs) (.ite _
    (State.granuleGot_grows _ _ _ hs) (State.discard_grows _ _ hs))) (.ite _ (State.granuleAcked_grows _ _ _ hs)
    (State.discard_grows _ _ hs)))))))

theorem execGranuleResend_grows {p : PlotIx} {tag : BitVec 12} (hs : Grows z s) : GrowsR z (execGranuleResend p tag s) := by
  unfold execGranuleResend
  dsimp only
  split
  · exact .next hs
  · exact .ite _ (.next hs) (.ite _ (.next (State.agentFail_grows _ _ _ _ hs)) (.next (State.emits_grows _ _
      (State.modPlot_grows _ _ _ hs))))

theorem execPcReplacement_grows {k : StackIx} {pc : Fin 64} (hs : Grows z s) : GrowsR z (execPcReplacement k pc s) := by
  unfold execPcReplacement
  dsimp only
  refine .ite _ (.next hs) ?_
  split
  · exact .ite _ (.next hs) (.ite _ (.next (State.failPc_grows _ _ _ hs)) (.ite _ (.next (State.failStack_grows _ _
      (State.failPc_grows _ _ _ hs))) (.next (State.modStack_grows _ _ _ (State.failPc_grows _ _ _ hs)))))
  · exact .ite _ (.next hs) (.next (State.modStack_grows _ _ _ (State.each_grows _ _ _ hs (fun _ _ h => State.linePut_grows _ _
      _ _ (State.lineRead_grows _ _ h)))))

theorem execHbmRetrain_grows {k : StackIx} {temp : BitVec 32} {ok : Bool} (hs : Grows z s) :
    GrowsR z (execHbmRetrain k temp ok s) :=
  .ite _ (.next (State.granulesGoOn_grows _ _ (.ite _ (State.modStack_grows _ _ _ (State.modStack_grows _ _ _ hs))
    (State.failStack_grows _ _ (State.modStack_grows _ _ _ hs))))) (onlyIf_grows _ _ _ (State.modStack_grows _ _ _ hs)
    (State.modStack_grows _ _ _ (State.modStack_grows _ _ _ hs)))

/-! ### The commands of Machine/Recovery.lean -/

theorem execReplay_grows {a : AllotIx} (hs : Grows z s) : GrowsR z (execReplay a s) := by
  unfold execReplay
  split
  · exact onlyIf_grows _ _ _ hs (State.replay_grows _ _ _ hs)
  · exact .next hs

theorem execFreezeAbandon_grows {a : AllotIx} (hs : Grows z s) : GrowsR z (execFreezeAbandon a s) := by
  unfold execFreezeAbandon
  dsimp only
  split
  · exact .ite _ (.next hs) (.next (State.modAllot_grows _ _ _ (Grows.rxsSet _ (State.each_grows _ _ _ hs (fun _ _ h =>
      State.modPav_grows _ _ _ h)))))
  · exact .next hs

theorem execCellShuffle_grows {p : PavIx} {cell : Fin 1088} {coreOnly : Bool} {dummy : Fin 1088} (hs : Grows z s) :
    GrowsR z (execCellShuffle p cell coreOnly dummy s) := by
  unfold execCellShuffle
  dsimp only
  refine .ite _ (.next (State.cellDead_grows _ _ _ _ hs)) (.ite _ ?_ ?_)
  · split
    · exact .next (State.pavShuffle_grows _ _ _ (State.cellDead_grows _ _ _ _ hs))
    · exact .next (State.failPav_grows _ _ (State.cellDead_grows _ _ _ _ hs))
  · refine .ite _ (.next (State.cellDead_grows _ _ _ _ hs)) ?_
    split
    · exact .next (State.clearKeeps_grows _ _ _ (State.cellDead_grows _ _ _ _ hs))
    · exact .next (State.shuffleEnd_grows _ _ _ (State.useDummy_grows _ _ _ _ _ _ (State.freezeFor_grows _ _
        (State.clearKeeps_grows _ _ _ (State.cellDead_grows _ _ _ _ hs)))))
    · exact .next (State.useDummy_grows _ _ _ _ _ _ (State.clearKeeps_grows _ _ _ (State.cellDead_grows _ _ _ _ hs)))

theorem execPavilionShuffle_grows {p : PavIx} (hs : Grows z s) : GrowsR z (execPavilionShuffle p s) := by
  unfold execPavilionShuffle
  split
  · exact onlyIf_grows _ _ _ hs (State.pavShuffle_grows _ _ _ hs)
  · exact .next (State.failPav_grows _ _ hs)

theorem execPlotShuffle_grows {p : PlotIx} (hs : Grows z s) : GrowsR z (execPlotShuffle p s) := by
  unfold execPlotShuffle
  dsimp only
  split
  · exact .next (State.plotShuffle_grows _ _ _ _ _ hs)
  · exact .next hs

theorem execLineRetirement_grows {p : PavIx} {column : Bool} {line : Fin 530} (hs : Grows z s) :
    GrowsR z (execLineRetirement p column line s) := by
  unfold execLineRetirement
  dsimp only
  refine .ite _ ?_ (.next hs)
  split
  · split
    · exact .next (State.retireRec_grows _ _ _ _ (State.modPav_grows _ _ _ (State.modME_grows _ _ _ hs)))
    · exact .ite _ (.next (State.modAllot_grows _ _ _ (State.retireRec_grows _ _ _ _ (State.modPav_grows _ _ _
        (State.modME_grows _ _ _ hs))))) (.next (State.recover_grows _ _ _ (State.retireRec_grows _ _ _ _ (State.modPav_grows _
        _ _ (State.modME_grows _ _ _ hs)))))
  · exact .next (State.pavLost_grows _ _ (State.modME_grows _ _ _ hs))

theorem execDoubling_grows {p : PavIx} (hs : Grows z s) : GrowsR z (execDoubling p s) := by
  unfold execDoubling
  dsimp only
  split
  · exact .ite _ (.next hs) (.next (State.shuffleEnd_grows _ _ _ (State.double_grows _ _ _ _ _ _ _ (State.changePav_grows _ _ _
      (State.freezeFor_grows _ _ hs)))))
  · exact .next hs

theorem execContextSwitch_grows {p : PavIx} (hs : Grows z s) : GrowsR z (execContextSwitch p s) := by
  unfold execContextSwitch
  dsimp only
  split
  · exact .ite _ (.next hs) (.next (State.shiftTimers_grows _ _ _ _ _ (State.modPav_grows _ _ _ (State.swapContext_grows _ _ _
      hs))))
  · exact .next hs

theorem execStandInFailure_grows {p : PavIx} (hs : Grows z s) : GrowsR z (execStandInFailure p s) := by
  unfold execStandInFailure
  split
  · exact onlyIf_grows _ _ _ hs (State.pavShuffle_grows _ _ _ hs)
  · exact .next hs

theorem execDoublingEnd_grows {reserve : PavIx} (hs : Grows z s) : GrowsR z (execDoublingEnd reserve s) := by
  unfold execDoublingEnd
  split
  · exact .next (State.endDoubling_grows _ _ _ hs)
  · exact .next hs

/-! ### The commands of Machine/ServerPorts.lean -/

theorem execWindowClosed_grows {n : SrvIx} {entry : BitVec 12} (hs : Grows z s) : GrowsR z (execWindowClosed n entry s) := by
  unfold execWindowClosed
  dsimp only
  split
  · exact onlyIf_grows _ _ _ hs (State.settleSrv_grows _ _ (State.windowEnd_grows _ _ _ hs))
  · exact .next hs

theorem execTransportWrite_grows {n : SrvIx} {f : TFrame} (hs : Grows z s) : GrowsR z (execTransportWrite n f s) := by
  unfold execTransportWrite
  refine onlyIf_grows _ _ _ hs ?_
  extract_lets g known
  split
  next t stopped => exact State.checkFrame_grows _ _ _ _ _ _ _ _ hs stopped
  next e w _ =>
    extract_lets counted broken blocked tagged started
    have hcounted : Grows z counted := State.modWindow_grows _ _ _ _ (State.srvCount_grows _ _ _ hs)
    have htagged : Grows z tagged := by
      unfold tagged
      split
      · split
        · split
          · exact State.modPav_grows _ _ _ hcounted
          · exact hcounted
        · exact hcounted
      · split
        · exact State.modPav_grows _ _ _ hcounted
        · exact hcounted
    have hstarted : Grows z started := .ite _ hcounted (State.modSrv_grows _ _ _ htagged)
    clear_value started broken
    refine .ite _ (State.sendDone_grows _ _ _ _ _ _ _ hcounted) ?_
    split
    · exact State.sendDone_grows _ _ _ _ _ _ _ (State.srvCount_grows _ _ _ (State.brokenTag_grows _ _ _ hcounted))
    · split
      · exact hstarted
      · exact .ite _ (State.modSrv_grows _ _ _ hstarted) (State.landIncoming_grows _ _ _ _ _ _ hstarted)

theorem execTransportRead_grows {n : SrvIx} {f : TFrame} (hs : Grows z s) : GrowsR z (execTransportRead n f s) := by
  unfold execTransportRead
  refine onlyIf_grows _ _ _ hs ?_
  dsimp only
  split
  next t stopped => exact State.checkFrame_grows _ _ _ _ _ _ _ _ hs stopped
  · exact .ite _ (State.modWindow_grows _ _ _ _ (State.srvCount_grows _ _ _ hs)) (State.addOut_grows _ _ _
      (State.modWindow_grows _ _ _ _ (State.srvCount_grows _ _ _ hs)))

theorem execBind_grows {n : SrvIx} {f : TFrame} (hs : Grows z s) : GrowsR z (execBind n f s) := by
  unfold execBind
  refine onlyIf_grows _ _ _ hs ?_
  dsimp only
  split
  next t stopped => exact State.checkFrame_grows _ _ _ _ _ _ _ _ hs stopped
  · exact State.sendDone_grows _ _ _ _ _ _ _ (State.modWindow_grows _ _ _ _ (State.srvCount_grows _ _ _ hs))

theorem execDone_grows {n : SrvIx} {f : TFrame} (hs : Grows z s) : GrowsR z (execDone n f s) := by
  unfold execDone
  refine onlyIf_grows _ _ _ hs ?_
  extract_lets g
  split
  next t stopped => exact State.answerFrame_grows _ _ _ hs stopped
  next e w _ =>
    extract_lets counted
    have hcounted : Grows z counted := State.modWindow_grows _ _ _ _ (State.srvCount_grows _ _ _ hs)
    split
    · exact hcounted
    · extract_lets ended told
      have hended : Grows z ended := State.modSrv_grows _ _ _ hcounted
      have htold : Grows z told :=
        .ite _ (State.wake_grows _ _ (State.modWindow_grows _ _ _ _ (State.srvCount_grows _ _ _ hended))) hended
      exact .ite _ (State.pumpOut_grows _ _ (State.failOut_grows _ _ _ _ hcounted)) (State.pumpOut_grows _ _ htold)

theorem execTransportNack_grows {n : SrvIx} {f : TFrame} (hs : Grows z s) : GrowsR z (execTransportNack n f s) := by
  unfold execTransportNack
  refine onlyIf_grows _ _ _ hs ?_
  dsimp only
  split
  next t stopped => exact State.answerFrame_grows _ _ _ hs stopped
  · split
    · exact State.modWindow_grows _ _ _ _ (State.srvCount_grows _ _ _ (State.srvCount_grows _ _ _ hs))
    · split
      · exact .ite _ (State.pumpOut_grows _ _ (State.failOut_grows _ _ _ _ (State.modWindow_grows _ _ _ _ (State.srvCount_grows
          _ _ _ (State.srvCount_grows _ _ _ hs))))) (State.sendParts_grows _ _ _ _ _ (State.modSrv_grows _ _ _
          (State.modWindow_grows _ _ _ _ (State.srvCount_grows _ _ _ (State.srvCount_grows _ _ _ hs)))))
      · exact State.modSrv_grows _ _ _ (State.modWindow_grows _ _ _ _ (State.srvCount_grows _ _ _ (State.srvCount_grows _ _ _
          hs)))
      · exact State.pumpOut_grows _ _ (State.failOut_grows _ _ _ _ (State.modWindow_grows _ _ _ _ (State.srvCount_grows _ _ _
          (State.srvCount_grows _ _ _ hs))))
      · exact State.pumpOut_grows _ _ (State.failOut_grows _ _ _ _ (State.modWindow_grows _ _ _ _ (State.srvCount_grows _ _ _
          (State.srvCount_grows _ _ _ hs))))
      · exact State.modWindow_grows _ _ _ _ (State.srvCount_grows _ _ _ (State.srvCount_grows _ _ _ hs))

theorem execTransferTimer_grows {n : SrvIx} {peer : BitVec 48} {xid : BitVec 16} {handle : BitVec 32} (hs : Grows z s) :
    GrowsR z (execTransferTimer n peer xid handle s) := by
  unfold execTransferTimer
  dsimp only
  split
  · exact .next hs
  · exact .ite _ (.next hs) (.ite _ (.next (State.nackMissing_grows _ _ _ _ _ (State.modSrv_grows _ _ _ hs))) (.next
      (State.sendDone_grows _ _ _ _ _ _ _ (State.srvCount_grows _ _ _ (State.modSrv_grows _ _ _ hs)))))

theorem execOutgoingResend_grows {n : SrvIx} {xid : BitVec 16} (hs : Grows z s) : GrowsR z (execOutgoingResend n xid s) := by
  unfold execOutgoingResend
  dsimp only
  split
  · exact .next hs
  · exact .ite _ (.next (State.pumpOut_grows _ _ (State.failOut_grows _ _ _ _ hs))) (.next (State.sendParts_grows _ _ _ _ _
      (State.modSrv_grows _ _ _ hs)))

theorem execBusyRetry_grows {n : SrvIx} {xid : BitVec 16} {expired : Bool} (hs : Grows z s) :
    GrowsR z (execBusyRetry n xid expired s) := by
  unfold execBusyRetry
  dsimp only
  split
  · exact .next hs
  · exact .ite _ (.next (State.pumpOut_grows _ _ (State.failOut_grows _ _ _ _ hs))) (.next (State.sendParts_grows _ _ _ _ _
      (State.modSrv_grows _ _ _ hs)))

theorem execServerPortRetrain_grows {n : SrvIx} {ber : BitVec 32} (hs : Grows z s) :
    GrowsR z (execServerPortRetrain n ber s) :=
  onlyIf_grows _ _ _ (State.modSrv_grows _ _ _ hs) (State.srvCount_grows _ _ _ (State.modSrv_grows _ _ _ (State.modSrv_grows _
    _ _ hs)))

theorem execFootbridgeRetrain_grows {n : Fin 9} {errors : Nat} {bits : Nat} {lanes : List (LinkId × Nat)} (hs : Grows z s) :
    GrowsR z (execFootbridgeRetrain n errors bits lanes s) :=
  onlyIf_grows _ _ _ hs (.ite _ (State.modLink_grows _ _ _ (State.failLanes_grows _ _ _ hs)) (State.flashWrite_grows _ _ _ _
    (State.modLink_grows _ _ _ (State.failLanes_grows _ _ _ hs))))

theorem execHeldGrant_grows {r : Receiver} (hs : Grows z s) : GrowsR z (execHeldGrant r s) := by
  unfold execHeldGrant
  dsimp only
  refine .next ?_
  split
  · exact State.pumpOut_grows _ _ (State.pumpIn_grows _ _ (State.pumpReads_grows _ _ (State.grantHeld_grows _ _ hs)))
  · exact State.pumpReads_grows _ _ (State.grantHeld_grows _ _ hs)

/-! ### The commands of Machine/Allots.lean -/

theorem execPlotScrub_grows {p : PlotIx} (hs : Grows z s) : GrowsR z (execPlotScrub p s) :=
  .ite _ (.next (State.progressTo_grows _ _ _ _ _ _ (State.modPlot_grows _ _ _ (State.eachPav_grows _ _ _ (.ite _ hs
    (State.scrubStart_grows _ _ hs)))))) (.next hs)

theorem execPlotScrubDone_grows {p : PlotIx} {failedPavs : List (Fin 4)} {failedCells : List (Fin 4 × Fin 1088)} (hs : Grows z s) :
    GrowsR z (execPlotScrubDone p failedPavs failedCells s) := by
  unfold execPlotScrubDone
  dsimp only
  refine .ite _ (.next hs) (.next ?_)
  refine State.progressEnd_grows _ _ _ ?_
  split
  · exact State.modAllot_grows _ _ _ (State.modPlot_grows _ _ _ (State.each_grows _ _ _ (State.each_grows _ _ _
      (State.modPlot_grows _ _ _ hs) (fun _ _ h => State.bistCell_grows _ _ _ _ h)) (fun _ _ h => State.bistFail_grows _ _ h)))
  · exact State.each_grows _ _ _ (State.each_grows _ _ _ (State.modPlot_grows _ _ _ hs) (fun _ _ h => State.bistCell_grows _ _
      _ _ h)) (fun _ _ h => State.bistFail_grows _ _ h)

theorem execHbmZeroingDone_grows {a : AllotIx} (hs : Grows z s) : GrowsR z (execHbmZeroingDone a s) :=
  .ite _ (.next hs) (.next (State.progressEnd_grows _ _ _ (State.modAllot_grows _ _ _ (Grows.hbmSet _ hs (fun h =>
    Store.wf_foldl_zeroRows _ _ _ _ h)))))

theorem execAllotmentOpenDone_grows {a : AllotIx} {ok : Bool} (hs : Grows z s) : GrowsR z (execAllotmentOpenDone a ok s) := by
  unfold execAllotmentOpenDone
  extract_lets x joined closed failed parcel opened served
  have hfailed : Grows z failed :=
    State.each_grows _ _ _ (State.modAllot_grows _ _ _ (State.dropDeal_grows _ _ hs)) (fun _ _ => State.scrubStart_grows _ _)
  have hserved : Grows z served :=
    State.idleFn_grows _ _ _ (State.replaceFailed_grows _ _ _ (State.modAllot_grows _ _ _ (State.putParcel_grows _ _ hs)))
  exact .ite _ (.next hs) (.ite _ (.next (.ite _ (State.event_grows _ _ _ _ _ _ hfailed) hfailed))
    (.ite _ (.next hs) (.next (.ite _ (State.event_grows _ _ _ _ _ _ hserved) hserved))))

theorem execAllotmentCloseDone_grows {a : AllotIx} (hs : Grows z s) : GrowsR z (execAllotmentCloseDone a s) := by
  unfold execAllotmentCloseDone
  extract_lets x ended idle closed holders
  have hclosed : Grows z closed := State.modAllot_grows _ _ _ (State.idleFn_grows _ _ _ (State.endDoublings_grows _ _ hs))
  exact .ite _ (.next hs) (.ite _ (.ite _ (.next hs) (.next (State.closeSteps_grows _ _ hs))) (.ite _ (.next hs)
    (.ite _ (.ite _ (.next (State.startOpen_grows _ _ _ hclosed))
      (.next (State.event_grows _ _ _ _ _ _ (State.modAllot_grows _ _ _ hclosed)))) (.next hclosed))))

/-! ### The commands of Machine/MatrixLoad.lean -/

theorem execTileLoadDone_grows {p : PavIx} (hs : Grows z s) : GrowsR z (execTileLoadDone p s) :=
  onlyIf_grows _ _ _ hs (State.settlePosts_grows _ _ (State.release_grows _ _ _ (State.modME_grows _ _ _ hs)))

/-! ### The commands of Machine/MatrixRun.lean -/

theorem execRowIssue_grows {p : PavIx} (hs : Grows z s) : GrowsR z (execRowIssue p s) := by
  unfold execRowIssue
  dsimp only
  split
  · exact onlyIf_grows _ _ _ hs (State.drainRows_grows _ _ _ _ _ hs)
  · exact onlyIf_grows _ _ _ hs (.ite _ (State.maccStep_grows _ _ _ hs) (State.mrunStep_grows _ _ _ hs))
  · exact .next hs

theorem execDrainStart_grows {p : PavIx} (hs : Grows z s) : GrowsR z (execDrainStart p s) := by
  unfold execDrainStart
  dsimp only
  split
  · exact onlyIf_grows _ _ _ hs (State.drainRows_grows _ _ _ _ _ hs)
  · exact .next hs

/-! ### The commands of Machine/MatrixCheck.lean -/

theorem execRowVerdict_grows {p : PavIx} {o : VerdictObs} (hs : Grows z s) : GrowsR z (execRowVerdict p o s) := by
  unfold execRowVerdict
  split
  · exact .next hs
  · extract_lets taken judged
    have htaken : Grows z taken := State.modME_grows _ _ _ hs
    have hjudged : Grows z judged := by
      unfold judged
      split
      · exact htaken
      · exact State.meFault_grows _ _ _ _ _ (State.poisonRow_grows _ _ _ _ htaken)
    clear_value judged
    refine .next (.ite _ ?_ hjudged)
    split
    · exact State.passDone_grows _ _ _ hjudged
    · exact hjudged

theorem execShadowShift_grows {p : PavIx} {os : List (Fin 512 × VerdictObs)} (hs : Grows z s) :
    GrowsR z (execShadowShift p os s) := by
  unfold execShadowShift
  dsimp only
  split
  · exact .next hs
  · refine .next ?_
    refine .ite _ ?_ (State.each_grows _ _ _ (State.modME_grows _ _ _ hs) (fun _ _ h => State.meFault_grows _ _ _ _ _
      (State.modME_grows _ _ _ h)))
    split
    · exact State.passDone_grows _ _ _ (State.each_grows _ _ _ (State.modME_grows _ _ _ hs) (fun _ _ h => State.meFault_grows _
        _ _ _ _ (State.modME_grows _ _ _ h)))
    · exact State.each_grows _ _ _ (State.modME_grows _ _ _ hs) (fun _ _ h => State.meFault_grows _ _ _ _ _ (State.modME_grows
        _ _ _ h))

theorem execForecastSlotDisabled_grows {p : PavIx} {slot : Fin 64} (hs : Grows z s) :
    GrowsR z (execForecastSlotDisabled p slot s) :=
  .ite _ (.next (State.event_grows _ _ _ _ _ _ (State.record_grows _ _ (State.modPav_grows _ _ _ hs)))) (.next hs)

/-! ### The commands of Machine/Cells.lean -/

theorem execAdd_grows {c : CellXY} {gd : RegIx} {ga : RegIx} {b : Src} (hs : Grows z s) : GrowsR z (execAdd c gd ga b s) :=
  State.alu_grows _ _ _ _ hs

theorem execSub_grows {c : CellXY} {gd : RegIx} {ga : RegIx} {b : Src} (hs : Grows z s) : GrowsR z (execSub c gd ga b s) :=
  State.alu_grows _ _ _ _ hs

theorem execAnd_grows {c : CellXY} {gd : RegIx} {ga : RegIx} {b : Src} (hs : Grows z s) : GrowsR z (execAnd c gd ga b s) :=
  State.alu_grows _ _ _ _ hs

theorem execOr_grows {c : CellXY} {gd : RegIx} {ga : RegIx} {b : Src} (hs : Grows z s) : GrowsR z (execOr c gd ga b s) :=
  State.alu_grows _ _ _ _ hs

theorem execXor_grows {c : CellXY} {gd : RegIx} {ga : RegIx} {b : Src} (hs : Grows z s) : GrowsR z (execXor c gd ga b s) :=
  State.alu_grows _ _ _ _ hs

theorem execShifts_grows {c : CellXY} {k : ShiftKind} {gd : RegIx} {ga : RegIx} {b : Src} (hs : Grows z s) :
    GrowsR z (execShifts c k gd ga b s) := by
  unfold execShifts
  split
  · exact State.onCore_grows _ _ _ hs (fun _ _ _ => State.trapStop_grows _ _ _ _ hs)
  · exact State.aluOpen_grows _ _ _ _ _ _ _ hs
  · exact State.aluOpen_grows _ _ _ _ _ _ _ hs
  · exact State.aluOpen_grows _ _ _ _ _ _ _ hs

theorem execSetLessThan_grows {c : CellXY} {unsigned : Bool} {gd : RegIx} {ga : RegIx} {b : Src} (hs : Grows z s) :
    GrowsR z (execSetLessThan c unsigned gd ga b s) :=
  State.alu_grows _ _ _ _ hs

theorem execMin_grows {c : CellXY} {gd : RegIx} {ga : RegIx} {b : Src} (hs : Grows z s) : GrowsR z (execMin c gd ga b s) :=
  State.alu_grows _ _ _ _ hs

theorem execMax_grows {c : CellXY} {gd : RegIx} {ga : RegIx} {b : Src} (hs : Grows z s) : GrowsR z (execMax c gd ga b s) :=
  State.alu_grows _ _ _ _ hs

theorem execLoadUpperImmediate_grows {c : CellXY} {gd : RegIx} {imm : BitVec 21} (hs : Grows z s) :
    GrowsR z (execLoadUpperImmediate c gd imm s) :=
  State.alu_grows _ _ _ _ hs

theorem execMul_grows {c : CellXY} {gd : RegIx} {ga : RegIx} {gb : RegIx} (hs : Grows z s) :
    GrowsR z (execMul c gd ga gb s) :=
  State.alu_grows _ _ _ _ hs

theorem execMulh_grows {c : CellXY} {gd : RegIx} {ga : RegIx} {gb : RegIx} (hs : Grows z s) :
    GrowsR z (execMulh c gd ga gb s) :=
  State.alu_grows _ _ _ _ hs

theorem execMulhu_grows {c : CellXY} {gd : RegIx} {ga : RegIx} {gb : RegIx} (hs : Grows z s) :
    GrowsR z (execMulhu c gd ga gb s) :=
  State.alu_grows _ _ _ _ hs

theorem execDiv_grows {c : CellXY} {gd : RegIx} {ga : RegIx} {gb : RegIx} (hs : Grows z s) :
    GrowsR z (execDiv c gd ga gb s) :=
  State.aluOpen_grows _ _ _ _ _ _ _ hs

theorem execRem_grows {c : CellXY} {gd : RegIx} {ga : RegIx} {gb : RegIx} (hs : Grows z s) :
    GrowsR z (execRem c gd ga gb s) :=
  State.aluOpen_grows _ _ _ _ _ _ _ hs

theorem execDivu_grows {c : CellXY} {gd : RegIx} {ga : RegIx} {gb : RegIx} (hs : Grows z s) :
    GrowsR z (execDivu c gd ga gb s) :=
  State.aluOpen_grows _ _ _ _ _ _ _ hs

theorem execRemu_grows {c : CellXY} {gd : RegIx} {ga : RegIx} {gb : RegIx} (hs : Grows z s) :
    GrowsR z (execRemu c gd ga gb s) :=
  State.aluOpen_grows _ _ _ _ _ _ _ hs

theorem execFadd_grows {c : CellXY} {gd : RegIx} {ga : RegIx} {gb : RegIx} (hs : Grows z s) :
    GrowsR z (execFadd c gd ga gb s) :=
  State.fpu_grows _ _ _ _ hs

theorem execFsub_grows {c : CellXY} {gd : RegIx} {ga : RegIx} {gb : RegIx} (hs : Grows z s) :
    GrowsR z (execFsub c gd ga gb s) :=
  State.fpu_grows _ _ _ _ hs

theorem execFmul_grows {c : CellXY} {gd : RegIx} {ga : RegIx} {gb : RegIx} (hs : Grows z s) :
    GrowsR z (execFmul c gd ga gb s) :=
  State.fpu_grows _ _ _ _ hs

theorem execFfma_grows {c : CellXY} {gd : RegIx} {ga : RegIx} {gb : RegIx} (hs : Grows z s) :
    GrowsR z (execFfma c gd ga gb s) :=
  State.fpu_grows _ _ _ _ hs

theorem execFmin_grows {c : CellXY} {gd : RegIx} {ga : RegIx} {gb : RegIx} (hs : Grows z s) :
    GrowsR z (execFmin c gd ga gb s) :=
  State.fpuOpen_grows _ _ _ _ _ _ _ hs

theorem execFmax_grows {c : CellXY} {gd : RegIx} {ga : RegIx} {gb : RegIx} (hs : Grows z s) :
    GrowsR z (execFmax c gd ga gb s) :=
  State.fpuOpen_grows _ _ _ _ _ _ _ hs

theorem execFcmp_grows {c : CellXY} {r : FRel} {gd : RegIx} {ga : RegIx} {gb : RegIx} (hs : Grows z s) :
    GrowsR z (execFcmp c r gd ga gb s) :=
  State.fpu_grows _ _ _ _ hs

theorem execFcvt_grows {c : CellXY} {d : FCvtDir} {gd : RegIx} {ga : RegIx} (hs : Grows z s) :
    GrowsR z (execFcvt c d gd ga s) :=
  State.fpuOpen_grows _ _ _ _ _ _ _ hs

theorem execFdiv_grows {c : CellXY} {gd : RegIx} {ga : RegIx} {gb : RegIx} (hs : Grows z s) :
    GrowsR z (execFdiv c gd ga gb s) :=
  State.fpu_grows _ _ _ _ hs

theorem execFsqrt_grows {c : CellXY} {gd : RegIx} {ga : RegIx} (hs : Grows z s) : GrowsR z (execFsqrt c gd ga s) :=
  State.fpu_grows _ _ _ _ hs

theorem execLd_grows {c : CellXY} {size : MemSize} {gd : RegIx} {ga : RegIx} {off : BitVec 16} (hs : Grows z s) :
    GrowsR z (execLd c size gd ga off s) :=
  State.onCore_grows _ _ _ hs (fun _ _ _ => State.access_grows _ _ _ _ _ _ _ hs (fun _ => State.coreLoad_grows _ _ _ _ _ _ _
    (State.fresh_grows _ hs)))

theorem execSt_grows {c : CellXY} {size : MemSize} {gd : RegIx} {ga : RegIx} {off : BitVec 16} (hs : Grows z s) :
    GrowsR z (execSt c size gd ga off s) :=
  State.onCore_grows _ _ _ hs (fun _ _ _ => State.access_grows _ _ _ _ _ _ _ hs (fun _ => State.coreStore_grows _ _ _ _ _
    (State.setCore_grows _ _ _ _ hs)))

theorem execLdp_grows {c : CellXY} {gd : RegIx} {ga : RegIx} {off : BitVec 16} (hs : Grows z s) :
    GrowsR z (execLdp c gd ga off s) :=
  State.onCore_grows _ _ _ hs (fun _ _ _ => .ite _ (State.trapStop_grows _ _ _ _ hs) (State.access_grows _ _ _ _ _ _ _ hs (fun
    _ => State.coreLoad_grows _ _ _ _ _ _ _ hs)))

theorem execStp_grows {c : CellXY} {gd : RegIx} {ga : RegIx} {off : BitVec 16} (hs : Grows z s) :
    GrowsR z (execStp c gd ga off s) :=
  State.onCore_grows _ _ _ hs (fun _ _ _ => .ite _ (State.trapStop_grows _ _ _ _ hs) (State.access_grows _ _ _ _ _ _ _ hs (fun
    _ => State.coreStore_grows _ _ _ _ _ (State.setCore_grows _ _ _ _ hs))))

theorem execCompareAndBranch_grows {c : CellXY} {k : BranchCond} {ga : RegIx} {gb : RegIx} {off : BitVec 16} (hs : Grows z s) :
    GrowsR z (execCompareAndBranch c k ga gb off s) :=
  State.onCore_grows _ _ _ hs (fun _ _ _ => State.setCore_grows _ _ _ _ hs)

theorem execJump_grows {c : CellXY} {off : BitVec 26} (hs : Grows z s) : GrowsR z (execJump c off s) :=
  State.onCore_grows _ _ _ hs (fun _ _ _ => State.setCore_grows _ _ _ _ hs)

theorem execJumpAndLink_grows {c : CellXY} {off : BitVec 26} (hs : Grows z s) : GrowsR z (execJumpAndLink c off s) :=
  State.onCore_grows _ _ _ hs (fun _ _ _ => State.setCore_grows _ _ _ _ hs)

theorem execSigc_grows {c : CellXY} {ga : RegIx} {gb : RegIx} (hs : Grows z s) : GrowsR z (execSigc c ga gb s) :=
  State.onCore_grows _ _ _ hs (fun _ _ _ => State.emit_grows _ _ (State.setCore_grows _ _ _ _ hs))

theorem execRdctr_grows {c : CellXY} {gd : RegIx} {ga : RegIx} (hs : Grows z s) : GrowsR z (execRdctr c gd ga s) :=
  State.onCore_grows _ _ _ hs (fun _ _ _ => State.setCore_grows _ _ _ _ hs)

theorem execWfe_grows {c : CellXY} (hs : Grows z s) : GrowsR z (execWfe c s) :=
  State.onCore_grows _ _ _ hs (fun _ _ _ => State.setCore_grows _ _ _ _ hs)

theorem execWfeWake_grows {c : CellXY} (hs : Grows z s) : GrowsR z (execWfeWake c s) := by
  unfold execWfeWake
  dsimp only
  split
  · exact onlyIf_grows _ _ _ hs (State.setCore_grows _ _ _ _ hs)
  · exact .next hs

theorem execCsrr_grows {c : CellXY} {gd : RegIx} {r : BitVec 12} (hs : Grows z s) : GrowsR z (execCsrr c gd r s) := by
  unfold execCsrr
  refine State.onCore_grows _ _ _ hs ?_
  intro _ _ _
  split
  · exact .ite _ (State.setCore_grows _ _ _ _ hs) (State.trapStop_grows _ _ _ _ hs)
  · exact State.trapStop_grows _ _ _ _ hs

theorem execCsrw_grows {c : CellXY} {ga : RegIx} {r : BitVec 12} (hs : Grows z s) : GrowsR z (execCsrw c ga r s) :=
  State.onCore_grows _ _ _ hs (fun _ _ _ => .ite _ (State.trapStop_grows _ _ _ _ hs) (State.setCore_grows _ _ _ _ hs))

theorem execTrap_grows {c : CellXY} (hs : Grows z s) : GrowsR z (execTrap c s) :=
  State.onCore_grows _ _ _ hs (fun _ _ _ => State.setCore_grows _ _ _ _ hs)

theorem execTret_grows {c : CellXY} (hs : Grows z s) : GrowsR z (execTret c s) :=
  State.onCore_grows _ _ _ hs (fun _ _ _ => .ite _ (State.setCore_grows _ _ _ _ hs) (State.trapStop_grows _ _ _ _ hs))

theorem execCoreFence_grows {c : CellXY} (hs : Grows z s) : GrowsR z (execCoreFence c s) :=
  State.onCore_grows _ _ _ hs (fun _ _ _ => State.setCore_grows _ _ _ _ hs)

/-! ### The commands of Machine/Sessions.lean -/

theorem execSessionTimeout_grows {session : BitVec 16} (hs : Grows z s) : GrowsR z (execSessionTimeout session s) := by
  unfold execSessionTimeout
  split
  · exact onlyIf_grows _ _ _ hs (State.endSession_grows _ _ hs)
  · exact .next hs

/-! ### The commands of Machine/DictWrite.lean -/

theorem execParcelRedeal_grows {a : AllotIx} (hs : Grows z s) : GrowsR z (execParcelRedeal a s) :=
  .ite _ (.next hs) (.ite _ (.next (State.modLodge_grows _ _ (State.modAllot_grows _ _ _ hs))) (.ite _ (.next hs) (.next
    (State.startHeld_grows _ _ (State.replaceFailed_grows _ _ _ (State.putParcel_grows _ _ (State.modAllot_grows _ _ _
    (State.endDoublings_grows _ _ hs))))))))

theorem execDrillPackageCheckDone_grows (hs : Grows z s) : GrowsR z (execDrillPackageCheckDone s) := by
  unfold execDrillPackageCheckDone
  dsimp only
  split
  · exact .next hs
  · exact .ite _ (.next (State.progressEnd_grows _ _ _ (State.flashWrite_grows _ _ _ _ (State.modLodge_grows _ _ hs)))) (.next
      (State.progressEnd_grows _ _ _ (State.modLodge_grows _ _ hs)))

/-! ### The commands of Machine/Host.lean -/

theorem execEventRingWrite_grows {h : PortIx} {f : FnIx} (hs : Grows z s) : GrowsR z (execEventRingWrite h f s) := by
  unfold execEventRingWrite
  dsimp only
  split
  · exact .next hs
  · split
    · exact .next hs
    · exact .ite _ (.next hs) (.next (State.msix_grows _ _ _ _ (State.modFn_grows _ _ _ _ (State.emit_grows _ _
        (State.modAllot_grows _ _ _ hs)))))

theorem execQueueOpen_grows {h : PortIx} {f : FnIx} (hs : Grows z s) : GrowsR z (execQueueOpen h f s) := by
  unfold execQueueOpen
  split
  · exact onlyIf_grows _ _ _ hs (State.qOpen_grows _ _ _ hs)
  · exact .next hs

theorem execQueueClose_grows {h : PortIx} {f : FnIx} (hs : Grows z s) : GrowsR z (execQueueClose h f s) := by
  unfold execQueueClose
  split
  · exact onlyIf_grows _ _ _ hs (State.qClose_grows _ _ _ hs)
  · exact .next hs

theorem execSubmissionDoorbell_grows {h : PortIx} {f : FnIx} {q : BitVec 16} {v : BitVec 32} (hs : Grows z s) :
    GrowsR z (execSubmissionDoorbell h f q v s) := by
  unfold execSubmissionDoorbell
  dsimp only
  split
  · exact .ite _ (.next (State.portCount_grows _ _ _ (State.failQueue_grows _ _ _ _ hs))) (.next (State.modQueue_grows _ _ _ _
      hs))
  · exact .next hs

theorem execCompletionDoorbell_grows {h : PortIx} {f : FnIx} {q : BitVec 16} {v : BitVec 32} (hs : Grows z s) :
    GrowsR z (execCompletionDoorbell h f q v s) := by
  unfold execCompletionDoorbell
  dsimp only
  split
  · exact .ite _ (.next (State.portCount_grows _ _ _ (State.failQueue_grows _ _ _ _ hs))) (.next (State.modQueue_grows _ _ _ _
      hs))
  · exact .next hs

theorem execCommandFetch_grows {h : PortIx} {f : FnIx} {q : BitVec 16} {e : BitVec 512} {memError : Bool} (hs : Grows z s) :
    GrowsR z (execCommandFetch h f q e memError s) := by
  unfold execCommandFetch
  split
  · exact .next hs
  · extract_lets n x id head c counted taken
    have htaken : Grows z taken := State.charge_grows _ _ _ _ (State.modQueue_grows _ _ _ _ (State.modAllot_grows _ _ _ hs))
    have refuse (a status : Nat) : Grows z (taken.completeWake a n id status 0) := State.completeWake_grows _ _ _ _ _ _ htaken
    exact .ite _ (.next hs) (.ite _ (.next (State.failQueue_grows _ _ _ _ hs))
      (.ite _ (.next (refuse _ _)) (.ite _ (.next (refuse _ _)) (.next htaken))))

theorem execInterruptCoalesceTimeout_grows {h : PortIx} {f : FnIx} {q : BitVec 16} (hs : Grows z s) :
    GrowsR z (execInterruptCoalesceTimeout h f q s) := by
  unfold execInterruptCoalesceTimeout
  dsimp only
  split
  · exact onlyIf_grows _ _ _ hs (State.queueInterrupt_grows _ _ _ hs)
  · exact .next hs

theorem execRegisterWrite_grows {h : PortIx} {f : FnIx} {off : BitVec 16} {v : BitVec 64} {wide : Bool} (hs : Grows z s) :
    GrowsR z (execRegisterWrite h f off v wide s) :=
  onlyIf_grows _ _ _ hs (.ite _ (State.bar0Write_grows _ _ _ _ _ (State.bar0Write_grows _ _ _ _ _ hs)) (State.bar0Write_grows _
    _ _ _ _ hs))

theorem execBar4Read_grows {h : PortIx} {f : FnIx} {off : BitVec 36} {len : BitVec 13} (hs : Grows z s) :
    GrowsR z (execBar4Read h f off len s) := by
  unfold execBar4Read
  dsimp only
  refine .ite _ (.next hs) ?_
  split
  · exact .next (State.emit_grows _ _ (.ite _ (State.portCount_grows _ _ _ (State.targetGet_grows _ _ _ _ hs))
      (State.targetGet_grows _ _ _ _ hs)))
  · exact .next (State.emit_grows _ _ (.ite _ (State.portCount_grows _ _ _ (State.localGet_grows _ _ _ _ _ hs))
      (State.localGet_grows _ _ _ _ _ hs)))
  · exact .next (State.emit_grows _ _ (.ite _ (State.portCount_grows _ _ _ (State.localGet_grows _ _ _ _ _ hs))
      (State.localGet_grows _ _ _ _ _ hs)))
  · exact .next (State.emit_grows _ _ (State.portCount_grows _ _ _ hs))

theorem execBar4Write_grows {h : PortIx} {f : FnIx} {off : BitVec 36} {v : List Byte} {poisoned : Bool} (hs : Grows z s) :
    GrowsR z (execBar4Write h f off v poisoned s) := by
  unfold execBar4Write
  dsimp only
  refine .ite _ (.next hs) ?_
  split
  · exact .next (State.targetPut_grows _ _ _ _ _ _ (.ite _ (State.portCount_grows _ _ _ hs) hs))
  · exact .next (State.localPut_grows _ _ _ _ _ _ _ _ (.ite _ (State.portCount_grows _ _ _ hs) hs))
  · exact .next (State.localPut_grows _ _ _ _ _ _ _ _ (.ite _ (State.portCount_grows _ _ _ hs) hs))
  · exact .next (State.record_grows _ _ (.ite _ (State.portCount_grows _ _ _ hs) hs))

/-! ### The commands of Machine/Commands.lean -/

theorem execLaunch_grows {a : AllotIx} {q : BitVec 16} (hs : Grows z s) : GrowsR z (execLaunch a q s) :=
  State.starting_grows _ _ _ _ _ hs (fun _ => .ite _ (State.completeWake_grows _ _ _ _ _ _ hs) (.ite _ (State.cmdTo_grows _ _ _
    _ _ hs) (.ite _ (State.completeWake_grows _ _ _ _ _ _ hs) (State.beginLaunch_grows _ _ _ _ hs))))

theorem execJobEnd_grows {a : AllotIx} {job : BitVec 64} (hs : Grows z s) : GrowsR z (execJobEnd a job s) := by
  unfold execJobEnd
  split
  · split
    · exact onlyIf_grows _ _ _ hs (State.finishJob_grows _ _ _ _ hs)
    · exact .next hs
  · exact .next hs

theorem execCopy_grows {a : AllotIx} {q : BitVec 16} {hd : HostRead} (hs : Grows z s) : GrowsR z (execCopy a q hd s) := by
  unfold execCopy
  dsimp only
  refine .ite _ (.next hs) ?_
  split
  · exact State.tryCopy_grows _ _ _ _ _ hs
  · refine .ite _ (.next hs) ?_
    split
    · exact .ite _ (.next hs) (.ite _ (.next (State.completeWake_grows _ _ _ _ _ _ hs)) (State.tryCopy_grows _ _ _ _ _ hs))
    · exact .next hs

theorem execPcieCompletionTimeout_grows {a : AllotIx} {q : BitVec 16} (hs : Grows z s) :
    GrowsR z (execPcieCompletionTimeout a q s) := by
  unfold execPcieCompletionTimeout
  dsimp only
  split
  · exact .next (State.endCopy_grows _ _ _ _ _ _ (State.portCount_grows _ _ _ hs))
  · exact .next hs

theorem execWclose_grows {a : AllotIx} {q : BitVec 16} (hs : Grows z s) : GrowsR z (execWclose a q s) := by
  unfold execWclose
  refine State.starting_grows _ _ _ _ _ hs ?_
  intro _
  dsimp only
  split
  · refine .ite _ ?_ (State.completeWake_grows _ _ _ _ _ _ hs)
    refine .ite _ (State.closeWindow_grows _ _ _ (State.modWindow_grows _ _ _ _ (State.cmdTo_grows _ _ _ _ _ hs))) ?_
    split
    · exact State.completeWake_grows _ _ _ _ _ _ (State.modWindow_grows _ _ _ _ (State.modWindow_grows _ _ _ _
        (State.cmdTo_grows _ _ _ _ _ hs)))
    · exact State.completeWake_grows _ _ _ _ _ _ hs
  · exact State.completeWake_grows _ _ _ _ _ _ hs

theorem execWaitEventTimeout_grows {a : AllotIx} {q : BitVec 16} (hs : Grows z s) : GrowsR z (execWaitEventTimeout a q s) := by
  unfold execWaitEventTimeout
  split
  · exact .next (State.completeWake_grows _ _ _ _ _ _ hs)
  · exact .next hs

theorem execSignal_grows {a : AllotIx} {q : BitVec 16} (hs : Grows z s) : GrowsR z (execSignal a q s) :=
  State.starting_grows _ _ _ _ _ hs (fun _ => .ite _ (.ite _ (State.completeWake_grows _ _ _ _ _ _ hs)
    (State.completeWake_grows _ _ _ _ _ _ (State.modSeq_grows _ _ _ hs))) (State.completeWake_grows _ _ _ _ _ _
    (State.modAllot_grows _ _ _ hs)))

theorem execLoadImage_grows {a : AllotIx} {q : BitVec 16} {hd : HostRead} (hs : Grows z s) :
    GrowsR z (execLoadImage a q hd s) := by
  unfold execLoadImage
  refine .ite _ (.next hs) ?_
  split
  · exact State.loadImage_grows _ _ _ _ _ hs
  · split
    · exact .ite _ (.next hs) (.ite _ (.next (State.completeWake_grows _ _ _ _ _ _ hs)) (State.loadImage_grows _ _ _ _ _ hs))
    · exact .next hs

theorem execQueryProgress_grows {a : AllotIx} {q : BitVec 16} (hs : Grows z s) : GrowsR z (execQueryProgress a q s) := by
  unfold execQueryProgress
  refine State.starting_grows _ _ _ _ _ hs ?_
  intro _
  dsimp only
  refine .ite _ (.ite _ (State.completeWake_grows _ _ _ _ _ _ hs) (.ite _ (State.completeWake_grows _ _ _ _ _ _ hs)
    (State.answerQueryProgress_grows _ _ _ _ _ _ _ _ hs))) ?_
  split
  · split
    · exact State.answerQueryProgress_grows _ _ _ _ _ _ _ _ (State.progressTo_grows _ _ _ _ _ _ (State.assignProgress_grows _ _
        _ hs))
    · exact State.answerQueryProgress_grows _ _ _ _ _ _ _ _ (State.assignProgress_grows _ _ _ hs)
  · split
    · exact State.answerQueryProgress_grows _ _ _ _ _ _ _ _ hs
    · exact State.answerQueryProgress_grows _ _ _ _ _ _ _ _ hs

theorem execAbortJob_grows {a : AllotIx} {q : BitVec 16} (hs : Grows z s) : GrowsR z (execAbortJob a q s) := by
  unfold execAbortJob
  refine State.starting_grows _ _ _ _ _ hs ?_
  intro _
  dsimp only
  split
  · exact State.completeWake_grows _ _ _ _ _ _ hs
  · exact .ite _ (State.waitStart_grows _ _ _ _ (State.stopJob_grows _ _ _ _ (State.modJob_grows _ _ _ _ hs)))
      (State.finishJob_grows _ _ _ _ (State.waitStart_grows _ _ _ _ hs))

/-! ### The commands of Machine/Dma.lean -/

theorem execDcopyFinish_grows {p : PavIx} {k : Fin 4} {e : XferEnd} (hs : Grows z s) : GrowsR z (execDcopyFinish p k e s) := by
  unfold execDcopyFinish
  dsimp only
  split
  · refine .ite _ (.next hs) ?_
    split
    · exact .next hs
    · exact .next (State.dcopyLand_grows _ _ _ _ _ _ hs)
    · exact onlyIf_grows _ _ _ hs (State.dcopyLand_grows _ _ _ _ _ _ hs)
  · exact .next hs

theorem execPrecvItem_grows {p : PavIx} {port : Fin 16} (hs : Grows z s) : GrowsR z (execPrecvItem p port s) := by
  unfold execPrecvItem
  dsimp only
  split
  · split
    · exact onlyIf_grows _ _ _ hs (State.precvLand_grows _ _ _ _ _ (State.modPav_grows _ _ _ hs))
    · exact .next hs
  · exact .next hs

/-! ### The commands of Machine/Control.lean -/

theorem execWaitEnd_grows {p : PavIx} {i : StreamIx} (hs : Grows z s) : GrowsR z (execWaitEnd p i s) := by
  unfold execWaitEnd
  dsimp only
  split
  · exact onlyIf_grows _ _ _ hs (State.hold_grows _ _ _ _ hs)
  · exact .next hs

theorem execSyncwRelease_grows {p : PavIx} {i : StreamIx} (hs : Grows z s) : GrowsR z (execSyncwRelease p i s) := by
  unfold execSyncwRelease
  dsimp only
  split
  · exact onlyIf_grows _ _ _ hs (State.hold_grows _ _ _ _ hs)
  · exact .next hs

/-! ### The commands of Machine/Pcie.lean -/

theorem execLinkDown_grows {h : PortIx} {surprise : Bool} (hs : Grows z s) : GrowsR z (execLinkDown h surprise s) :=
  onlyIf_grows _ _ _ hs (.ite _ (State.hostCount_grows _ _ _ (State.portReset_grows _ _ hs)) (State.portReset_grows _ _ hs))

/-! ### The commands of Machine/Power.lean -/

theorem execPowerControlTick_grows {readings : List RailReading} (hs : Grows z s) :
    GrowsR z (execPowerControlTick readings s) :=
  .next (State.each_grows _ _ _ (State.modLodge_grows _ _ (State.fresh_grows _ (State.modLodge_grows _ _ hs))) (fun _ _ h =>
    .ite _ h (State.modPlot_grows _ _ _ h)))

theorem execAlertLow_grows {g : Fin 17} (hs : Grows z s) : GrowsR z (execAlertLow g s) :=
  .ite _ (.next hs) (.next (.ite _ (State.modGroup_grows _ _ _ hs) (State.each_grows _ _ _ (State.modGroup_grows _ _ _ hs) (fun
    _ _ h => State.modPlot_grows _ _ _ h))))

theorem execAlertClear_grows {g : Fin 17} (hs : Grows z s) : GrowsR z (execAlertClear g s) :=
  onlyIf_grows _ _ _ hs (State.each_grows _ _ _ (State.modGroup_grows _ _ _ hs) (fun _ _ h => State.modPlot_grows _ _ _ h))

theorem execShortDetected_grows {d : Domain} (hs : Grows z s) : GrowsR z (execShortDetected d s) :=
  onlyIf_grows _ _ _ hs (State.loseForGood_grows _ _ (State.modLodge_grows _ _ (State.shortOut_grows _ _ hs)))

theorem execPgLoss_grows {g : Fin 17} (hs : Grows z s) : GrowsR z (execPgLoss g s) :=
  onlyIf_grows _ _ _ hs (State.each_grows _ _ _ (State.modGroup_grows _ _ _ hs) (fun _ _ h => State.loseForGood_grows _ _ h))

theorem execPllRelock_grows {p : PlotIx} {bistOk : List (Fin 4)} (hs : Grows z s) : GrowsR z (execPllRelock p bistOk s) :=
  .ite _ (.next hs) (.next (State.modPlot_grows _ _ _ (State.backPlot_grows _ _ (State.each_grows _ _ _ (State.relink_grows _ _
    (State.modPlot_grows _ _ _ hs)) (fun _ _ h => State.changePav_grows _ _ _ h)))))

theorem execDerate_grows {p : PlotIx} (hs : Grows z s) : GrowsR z (execDerate p s) :=
  .ite _ (.next hs) (.next (State.avsNext_grows _ _ (State.record_grows _ _ (State.modPlot_grows _ _ _ hs))))

theorem execThermalWarning_grows {p : PlotIx} {temp : BitVec 32} (hs : Grows z s) : GrowsR z (execThermalWarning p temp s) :=
  onlyIf_grows _ _ _ (State.setTemp_grows _ _ _ hs) (State.event_grows _ _ _ _ _ _ (State.modPlot_grows _ _ _
    (State.setTemp_grows _ _ _ hs)))

theorem execThermalDutyStep_grows {p : PlotIx} {temp : BitVec 32} (hs : Grows z s) :
    GrowsR z (execThermalDutyStep p temp s) :=
  .ite _ (.next (State.modPlot_grows _ _ _ (State.setTemp_grows _ _ _ hs))) (.ite _ (.next (State.modPlot_grows _ _ _
    (State.setTemp_grows _ _ _ hs))) (.next (State.setTemp_grows _ _ _ hs)))

theorem execShed_grows {p : PlotIx} {temp : BitVec 32} (hs : Grows z s) : GrowsR z (execShed p temp s) :=
  onlyIf_grows _ _ _ (State.setTemp_grows _ _ _ hs) (State.event_grows _ _ _ _ _ _ (State.shedPlot_grows _ _ _ _
    (State.record_grows _ _ (State.setTemp_grows _ _ _ hs))))

theorem execCut_grows {p : PlotIx} {temp : BitVec 32} (hs : Grows z s) : GrowsR z (execCut p temp s) :=
  onlyIf_grows _ _ _ (State.setTemp_grows _ _ _ hs) (State.cutPlot_grows _ _ _ _ (State.record_grows _ _ (State.setTemp_grows _
    _ _ hs)))

theorem execThermTrip_grows {site : HeatSite} {temp : BitVec 32} (hs : Grows z s) : GrowsR z (execThermTrip site temp s) := by
  unfold execThermTrip
  dsimp only
  refine .ite _ (.next hs) ?_
  split
  · exact .next (State.trip_grows _ _ _ (.ite _ (State.cutPlot_grows _ _ _ _ (State.record_grows _ _ (State.setTemp_grows _ _ _
      hs))) (State.setTemp_grows _ _ _ hs)))
  · exact .next (State.trip_grows _ _ _ (.ite _ (State.loseForGood_grows _ _ (State.modSeg_grows _ _ _ hs)) (State.modSeg_grows
      _ _ _ hs)))

theorem execPlotReturn_grows {p : PlotIx} {temp : BitVec 32} (hs : Grows z s) : GrowsR z (execPlotReturn p temp s) := by
  unfold execPlotReturn
  dsimp only
  refine .ite _ (.next (State.setTemp_grows _ _ _ hs)) ?_
  split
  · exact .next (State.modPlot_grows _ _ _ (State.setTemp_grows _ _ _ hs))
  · exact .next (State.plotOpened_grows _ _ (State.backPlot_grows _ _ (State.setTemp_grows _ _ _ hs)))
  · exact .next (State.backPlot_grows _ _ (State.setTemp_grows _ _ _ hs))

theorem execFlashSectorWrite_grows (hs : Grows z s) : GrowsR z (execFlashSectorWrite s) := by
  unfold execFlashSectorWrite
  dsimp only
  split
  · exact .ite _ (.next hs) (.next (State.sectorDone_grows _ _ _ (.ite _ (State.modLodge_grows _ _ hs) hs)))
  · exact .next hs

/-! ### The commands of Machine/Startup.lean -/

theorem execAuxPowerOn_grows (hs : Grows z s) : GrowsR z (execAuxPowerOn s) :=
  .ite _ (.next hs) (.next (.ite _ (State.modLodge_grows _ _ (State.modLodge_grows _ _ hs)) (State.boot_grows _
    (State.modLodge_grows _ _ hs))))

theorem execLodgeResetAssert_grows (hs : Grows z s) : GrowsR z (execLodgeResetAssert s) :=
  .ite _ (.next hs) (.next (.ite _ (State.emit_grows _ _ (State.modLodge_grows _ _ (State.modLodge_grows _ _ (State.wipe_grows
    _ _ (State.stopFlash_grows _ hs))))) (State.modLodge_grows _ _ (State.wipe_grows _ _ (State.stopFlash_grows _ hs)))))

theorem execLodgeResetRelease_grows (hs : Grows z s) : GrowsR z (execLodgeResetRelease s) :=
  .ite _ (.next hs) (.next (.ite _ (State.boot_grows _ (State.modLodge_grows _ _ hs)) (State.modLodge_grows _ _ hs)))

theorem execPowerGood_grows {g : Option (Fin 17)} (hs : Grows z s) : GrowsR z (execPowerGood g s) :=
  .ite _ (.next hs) (.next (State.settleStep1_grows _ (State.modLodge_grows _ _ (State.modGroup_grows _ _ _ hs))))

theorem execSegmentPowerOn_grows (hs : Grows z s) : GrowsR z (execSegmentPowerOn s) :=
  .ite _ (.next hs) (.next (State.settleStart_grows _ (State.each_grows _ _ _ hs (fun _ _ h => .ite _ (State.each_grows _ _ _
    (State.modSeg_grows _ _ _ h) (fun _ _ h => State.modStack_grows _ _ _ h)) (State.modSeg_grows _ _ _ (State.segTrained_grows
    _ _ _ (State.loseDomain_grows _ _ h)))))))

theorem execSegmentTrainingDone_grows {n : SegIx} {stacksOk : List StackIx} (hs : Grows z s) :
    GrowsR z (execSegmentTrainingDone n stacksOk s) :=
  .ite _ (.next hs) (.next (State.settleStart_grows _ (State.modSeg_grows _ _ _ (State.segTrained_grows _ _ _ hs))))

theorem execPlotWave_grows {w : Fin 7} (hs : Grows z s) : GrowsR z (execPlotWave w s) :=
  .ite _ (.next hs) (.next (State.settleStart_grows _ (State.each_grows _ _ _ (State.modLodge_grows _ _ hs) (fun _ _ h =>
    State.wavePlot_grows _ _ h))))

theorem execBistDone_grows {p : PlotIx} {r : BistResult} (hs : Grows z s) : GrowsR z (execBistDone p r s) := by
  unfold execBistDone
  extract_lets x lines columns cells pavilions tracks done
  have hlines : Grows z lines := State.each_grows _ _ _ hs (fun _ _ => State.bistLine_grows _ _ _ _)
  have hcolumns : Grows z columns := State.each_grows _ _ _ hlines (fun _ _ => State.bistColumn_grows _ _ _ _)
  have hcells : Grows z cells := State.each_grows _ _ _ hcolumns (fun _ _ => State.bistCell_grows _ _ _ _)
  have hpavilions : Grows z pavilions := State.each_grows _ _ _ hcells (fun _ _ => State.bistFail_grows _ _)
  have htracks : Grows z tracks := State.each_grows _ _ _ hpavilions (fun _ _ => State.failWires_grows _ _ _)
  have hdone : Grows z done := State.modPlot_grows _ _ _ htracks
  exact .ite _ (.next hs) (.next (State.settleStart_grows _ (.ite _ hdone (State.flashWrite_grows _ _ _ _ hdone))))

theorem execLinkCheck_grows {l : LinkId} {ok : Bool} {okAgain : Bool} {lanes : List (LinkId × Nat)} {again : List (LinkId × Nat)} (hs : Grows z s) :
    GrowsR z (execLinkCheck l ok okAgain lanes again s) := by
  unfold execLinkCheck
  dsimp only
  refine .ite _ (.next hs) (.next ?_)
  refine .ite _ ?_ ?_
  · refine State.settleLinks_grows _ (.ite _ ?_ ?_)
    · split
      · exact .ite _ (State.modLink_grows _ _ _ hs) (State.flashWrite_grows _ _ _ _ (State.failLanes_grows _ _ _
          (State.modLink_grows _ _ _ hs)))
      · exact State.modLink_grows _ _ _ hs
    · split
      · exact State.record_grows _ _ (State.each_grows _ _ _ (State.flashWrite_grows _ _ _ _ (State.failLanes_grows _ _ _
          (State.modLink_grows _ _ _ hs))) (fun _ _ h => State.withdraw_grows _ _ h))
      · exact State.srvCount_grows _ _ _ (State.modSrv_grows _ _ _ (State.modLink_grows _ _ _ hs))
      · exact State.modHost_grows _ _ _ (State.modLink_grows _ _ _ hs)
      · exact State.failStack_grows _ _ (State.modLink_grows _ _ _ hs)
      · exact State.withdraw_grows _ _ (State.modLink_grows _ _ _ hs)
  · refine .ite _ ?_ ?_
    · split
      · exact .ite _ (State.modLink_grows _ _ _ hs) (State.flashWrite_grows _ _ _ _ (State.failLanes_grows _ _ _
          (State.modLink_grows _ _ _ hs)))
      · exact State.modLink_grows _ _ _ hs
    · split
      · exact State.record_grows _ _ (State.each_grows _ _ _ (State.flashWrite_grows _ _ _ _ (State.failLanes_grows _ _ _
          (State.modLink_grows _ _ _ hs))) (fun _ _ h => State.withdraw_grows _ _ h))
      · exact State.srvCount_grows _ _ _ (State.modSrv_grows _ _ _ (State.modLink_grows _ _ _ hs))
      · exact State.modHost_grows _ _ _ (State.modLink_grows _ _ _ hs)
      · exact State.failStack_grows _ _ (State.modLink_grows _ _ _ hs)
      · exact State.withdraw_grows _ _ (State.modLink_grows _ _ _ hs)

theorem execServerLinkTraining_grows {n : SrvIx} {ok : Bool} {gelbuson : Bool} (hs : Grows z s) :
    GrowsR z (execServerLinkTraining n ok gelbuson s) :=
  .ite _ (.next hs) (.ite _ (.next (State.modSrv_grows _ _ _ hs)) (.next (State.srvCount_grows _ _ _ (State.modSrv_grows _ _ _
    hs))))

theorem execModuleReady_grows (hs : Grows z s) : GrowsR z (execModuleReady s) :=
  .ite _ (.next hs) (.ite _ (.next (.ite _ (State.progressEnd_grows _ _ _ hs) hs)) (.next (State.event_grows _ _ _ _ _ _
    (State.progressEnd_grows _ _ _ (State.modLodge_grows _ _ hs)))))

/-! ### The commands of Machine/Deal.lean -/

theorem execDealStart_grows {a : Option AllotIx} (hs : Grows z s) : GrowsR z (execDealStart a s) := by
  unfold execDealStart
  dsimp only
  refine .ite _ (.next hs) ?_
  split
  · exact .ite _ (.next hs) (.next (State.openDeal_grows _ _ _ (State.each_grows _ _ _ (.ite _ hs (State.modLodge_grows _ _
      hs)) (fun _ _ h => State.eachPav_grows _ _ _ (State.modPlot_grows _ _ _ h)))))
  · exact .ite _ (.next hs) (.next (State.openDeal_grows _ _ _ (State.assignProgress_grows _ _ _ (State.each_grows _ _ _
      (State.each_grows _ _ _ (State.modAllot_grows _ _ _ (State.modLodge_grows _ _ hs)) (fun _ _ h => State.eachPav_grows _ _
      _ h)) (fun _ _ h => State.each_grows _ _ _ h (fun _ _ h => State.modPav_grows _ _ _ h))))))

theorem execCard_grows {c : Card} {missed : List DealTarget} (hs : Grows z s) : GrowsR z (execCard c missed s) := by
  unfold execCard
  dsimp only
  split
  · exact .next hs
  · split
    · exact .next hs
    · exact .ite _ (.next hs) (.next (State.modLodge_grows _ _ (State.each_grows _ _ _ (State.emit_grows _ _ hs) (fun _ _ h =>
        .ite _ (State.deliver_grows _ _ _ _ (State.modPlot_grows _ _ _ h)) (State.modPlot_grows _ _ _ h)))))

theorem execDeckEnd_grows (hs : Grows z s) : GrowsR z (execDeckEnd s) := by
  unfold execDeckEnd
  dsimp only
  split
  · exact .next hs
  · exact .ite _ (.next hs) (.next (State.settleDeal_grows _ (State.each_grows _ _ _ (State.modLodge_grows _ _ hs) (fun _ _ h
      => State.gateCount_grows _ _ (State.modPlot_grows _ _ _ h)))))

theorem execDealRoundEnd_grows {p : PlotIx} (hs : Grows z s) : GrowsR z (execDealRoundEnd p s) := by
  unfold execDealRoundEnd
  dsimp only
  split
  · exact .next hs
  · refine .ite _ (.next hs) (.ite _ (.next (State.settleDeal_grows _ (State.gateCount_grows _ _ hs))) ?_)
    refine .ite _ (.next (State.modPlot_grows _ _ _ hs)) (.next ?_)
    refine State.settleDeal_grows _ (State.modPlot_grows _ _ _ ?_)
    refine State.each_grows _ _ _ (State.each_grows _ _ _ hs (fun _ _ h => State.revoke_grows _ _ _ h)) ?_
    intro _ _ h
    split
    · exact .ite _ h (State.dealFail_grows _ _ h)
    · exact h

theorem execStartupStepBound_grows {n : StepNo} (hs : Grows z s) : GrowsR z (execStartupStepBound n s) := by
  unfold execStartupStepBound
  dsimp only
  split
  · exact .next hs
  · refine .ite _ (.next hs) ?_
    split
    · exact .next (.ite _ (State.endStep1_grows _ hs) hs)
    · exact .ite _ (.next hs) (.next (State.settleStart_grows _ (State.each_grows _ _ _ hs (fun _ _ h => State.segTrained_grows
        _ _ _ h))))
    · exact .ite _ (.next hs) (.next (State.settleStart_grows _ (State.each_grows _ _ _ hs (fun _ _ h => State.modPlot_grows _
        _ _ (State.each_grows _ _ _ h (fun _ _ h => State.bistFail_grows _ _ h))))))
    · split
      · exact .ite _ (.next hs) (.next (State.settleDeal_grows _ (State.each_grows _ _ _ (State.modLodge_grows _ _ hs) (fun _ _
          h => State.loseForGood_grows _ _ h))))
      · exact .next hs
    · exact .ite _ (.next hs) (.next (State.settleLinks_grows _ (State.each_grows _ _ _ hs (fun _ _ h => State.withdraw_grows _
        _ h))))
    · exact .next hs

/-! ### The commands of Machine/Drills.lean -/

theorem execDrill_grows {u : DrillUnit} {pass : Bool} {again : Bool} (hs : Grows z s) :
    GrowsR z (execDrill u pass again s) := by
  unfold execDrill
  dsimp only
  refine .ite _ (.next hs) (.ite _ (.next (State.drilled_grows _ _ _ _ hs)) ?_)
  refine .ite _ (.next (State.drilled_grows _ _ _ _ (State.record_grows _ _ hs))) ?_
  split
  · exact .next (State.recover_grows _ _ _ (.ite _ (State.modME_grows _ _ _ (State.modLodge_grows _ _ (State.drilled_grows _ _
      _ _ (State.record_grows _ _ hs)))) (State.modLodge_grows _ _ (State.drilled_grows _ _ _ _ (State.record_grows _ _ hs)))))
  · exact .next (.ite _ (State.failPav_grows _ _ (State.modLodge_grows _ _ (State.drilled_grows _ _ _ _ (State.record_grows _ _
      hs)))) (State.modLodge_grows _ _ (State.drilled_grows _ _ _ _ (State.record_grows _ _ hs))))

theorem execCoalescerSend_grows {n : CoalNode} (hs : Grows z s) : GrowsR z (execCoalescerSend n s) := by
  unfold execCoalescerSend
  dsimp only
  split
  · refine .next (State.modLodge_grows _ _ ?_)
    split
    · exact State.modPlot_grows _ _ _ hs
    · exact State.modSeg_grows _ _ _ hs
  · exact .next hs

theorem execRecordArrival_grows (hs : Grows z s) : GrowsR z (execRecordArrival s) := by
  unfold execRecordArrival
  split
  · exact .next (State.logRecord_grows _ _ (State.modLodge_grows _ _ hs))
  · exact .next hs

/-! ### The commands of Machine/Moves.lean -/

theorem execMovq_grows {c : CellXY} {ga : RegIx} (hs : Grows z s) : GrowsR z (execMovq c ga s) :=
  State.onCore_grows _ _ _ hs (fun _ _ _ => .ite _ hs (State.access_grows _ _ _ _ _ _ _ hs (fun _ => State.coreLoad_grows _ _ _
    _ _ _ _ hs)))

theorem execMoveTransferStart_grows {c : CellXY} (hs : Grows z s) : GrowsR z (execMoveTransferStart c s) := by
  unfold execMoveTransferStart
  dsimp only
  split
  · split
    · exact onlyIf_grows _ _ _ hs (State.moveStart_grows _ _ _ _ _ _ _ hs)
    · exact .next hs
  · exact .next hs

theorem execMoveTransferFinish_grows {c : CellXY} {i : Fin 4} {e : XferEnd} (hs : Grows z s) :
    GrowsR z (execMoveTransferFinish c i e s) := by
  unfold execMoveTransferFinish
  dsimp only
  split
  · split
    · exact .next hs
    · split
      · exact onlyIf_grows _ _ _ hs (State.moveLand_grows _ _ _ _ _ _ hs)
      · exact onlyIf_grows _ _ _ hs (State.moveFail_grows _ _ _ _ hs)
      · exact .next hs
  · exact .next hs

/-! ### The commands of Machine/Garden.lean -/

theorem execCorrectionWriteBack_grows {p : PavIx} {cell : Fin 1088} {bank : Fin 4} (hs : Grows z s) :
    GrowsR z (execCorrectionWriteBack p cell bank s) := by
  unfold execCorrectionWriteBack
  dsimp only
  split
  · exact .next hs
  · exact onlyIf_grows _ _ _ hs (State.modPav_grows _ _ _ (State.fresh_grows _ hs))

theorem execGardenPatrolScrub_grows {p : PavIx} {cell : Fin 1088} {bank : Fin 4} (hs : Grows z s) :
    GrowsR z (execGardenPatrolScrub p cell bank s) :=
  onlyIf_grows _ _ _ hs (State.modPav_grows _ _ _ (State.each_grows _ _ _ hs (fun _ _ h => State.patrolRow_grows _ _ _ h)))

theorem execTagWaitEnd_grows {p : PavIx} {tag : Fin 65536} (hs : Grows z s) : GrowsR z (execTagWaitEnd p tag s) :=
  .ite _ (.next (State.failTag_grows _ _ _ _ (State.brokenTag_grows _ _ _ hs))) (.next (State.each_grows _ _ _ hs (fun _ _ h =>
    State.retryWaiter_grows _ _ _ _ h)))

/-! ### The commands of Machine/Marks.lean -/

theorem execMarkTaken_grows {p : PavIx} (hs : Grows z s) : GrowsR z (execMarkTaken p s) := by
  unfold execMarkTaken
  dsimp only
  split
  · exact onlyIf_grows _ _ _ hs (State.takeMark_grows _ _ _ hs)
  · exact .next hs

theorem execMarkVerified_grows {p : PavIx} (hs : Grows z s) : GrowsR z (execMarkVerified p s) := by
  unfold execMarkVerified
  dsimp only
  split
  · exact .ite _ (.next hs) (.next (State.settleMarks_grows _ _ (State.modSeq_grows _ _ _ hs)))
  · exact .next hs

theorem execDigestReadback_grows {p : PavIx} {c : DigestCmp} (hs : Grows z s) : GrowsR z (execDigestReadback p c s) := by
  unfold execDigestReadback
  dsimp only
  split
  · exact onlyIf_grows _ _ _ hs (State.readBack_grows _ _ _ _ _ hs)
  · exact .next hs

/-! ### The commands of Machine/Promenade.lean -/

theorem execSteeringResolve_grows {p : PlotIx} {u : Fin 32} (hs : Grows z s) : GrowsR z (execSteeringResolve p u s) := by
  unfold execSteeringResolve
  dsimp only
  split
  · exact .next hs
  · refine .ite _ (.next hs) ?_
    split
    · exact .next (State.skewFault_grows _ _ _ _ _ hs)
    · exact .next (State.steerFlow_grows _ _ _ (State.sendUnit_grows _ _ _ _ (State.modPlot_grows _ _ _ hs)))

theorem execMergeEmit_grows {p : PlotIx} {m : Fin 16} {ok : Bool} (hs : Grows z s) : GrowsR z (execMergeEmit p m ok s) := by
  unfold execMergeEmit
  dsimp only
  split
  · split
    · exact .next (.ite _ (State.circuitFault_grows _ _ _ _ hs) (State.putBeats_grows _ _ _ _ _ (State.modPlot_grows _ _ _ hs)))
    · refine .ite _ (.next hs) ?_
      split
      · exact .ite _ (.next (State.circuitFault_grows _ _ _ _ hs)) (.next (.ite _ (State.consumeMerge_grows _ _ _ _
          (State.putBeats_grows _ _ _ _ _ (State.modPlot_grows _ _ _ hs))) (State.putBeats_grows _ _ _ _ _ (State.modPlot_grows
          _ _ _ hs))))
      · exact .next hs
  · exact .next hs

theorem execBeatArrival_grows {p : PlotIx} {src : Fin 512} {b : Beat} {e : BeatErr} (hs : Grows z s) :
    GrowsR z (execBeatArrival p src b e s) := by
  unfold execBeatArrival
  dsimp only
  split
  · refine .ite _ (.next hs) ?_
    split
    · exact .next (State.circuitFault_grows _ _ _ _ (State.popBeat_grows _ _ _ hs))
    · exact .next (.ite _ (State.sourceGo_grows _ _ _ _ (State.modPlot_grows _ _ _ (State.beatOn_grows _ _ _ _ _ hs)))
        (State.beatOn_grows _ _ _ _ _ hs))
    · exact .next (.ite _ (State.sourceGo_grows _ _ _ _ (State.beatOn_grows _ _ _ _ _ hs)) (State.beatOn_grows _ _ _ _ _ hs))
  · exact .next hs

theorem execSkewTimeout_grows {p : PlotIx} {join : Fin 48} (hs : Grows z s) : GrowsR z (execSkewTimeout p join s) :=
  .ite _ (.next hs) (.ite _ (onlyIf_grows _ _ _ hs (State.skewFault_grows _ _ _ _ _ hs)) (onlyIf_grows _ _ _ hs
    (State.skewFault_grows _ _ _ _ _ hs)))

theorem execSectionEnd_grows {a : AllotIx} (hs : Grows z s) : GrowsR z (execSectionEnd a s) :=
  .ite _ (.next hs) (.ite _ (.next (State.dropTunnels_grows _ _ (State.enterSection_grows _ _ _ (State.boundary_grows _ _
    (State.discardBeats_grows _ _ _ hs))))) (.next (State.modAllot_grows _ _ _ (State.modLaunch_grows _ _ _
    (State.boundary_grows _ _ (State.discardBeats_grows _ _ _ hs))))))

/-! ### The commands of Machine/Ring.lean -/

theorem execEventResend_grows {seq : BitVec 16} (hs : Grows z s) : GrowsR z (execEventResend seq s) := by
  unfold execEventResend
  dsimp only
  split
  · exact .ite _ (.next hs) (.ite _ (.next (State.modLodge_grows _ _ hs)) (.next (State.ringOut_grows _ _ (State.modLodge_grows
      _ _ hs))))
  · exact .next hs

theorem execSync_grows {f : HFrame} {residence : BitVec 64} (hs : Grows z s) : GrowsR z (execSync f residence s) :=
  onlyIf_grows _ _ _ hs (.ite _ (State.followSync_grows _ _ (State.arriveAs_grows _ _ _ hs)) (State.arriveAs_grows _ _ _ hs))

theorem execSyncSend_grows (hs : Grows z s) : GrowsR z (execSyncSend s) :=
  .ite _ (.next (State.modLodge_grows _ _ (State.sendRing_grows _ _ (State.nextSeq_grows _ hs)))) (.next hs)

theorem execDelayReq_grows {f : HFrame} (hs : Grows z s) : GrowsR z (execDelayReq f s) :=
  .ite _ (.next hs) (.ite _ (onlyIf_grows _ _ _ hs (State.modLodge_grows _ _ (State.sendRing_grows _ _ (State.nextSeq_grows _
    hs)))) (.next (State.ringIn_grows _ _ hs)))

theorem execFrameForward_grows {f : HFrame} (hs : Grows z s) : GrowsR z (execFrameForward f s) :=
  .next (.ite _ (State.serve_grows _ _ (Grows.ite2 _ (State.arriveAs_grows _ _ _ (State.fresh_grows _ hs)) (State.arrive_grows
    _ _ hs))) (Grows.ite2 _ (State.arriveAs_grows _ _ _ (State.fresh_grows _ hs)) (State.arrive_grows _ _ hs)))

/-! ### Every command, and every step -/

theorem exec_grows (hs : Grows z s) (c : Instr) : GrowsR z (exec c s) := by
  cases c with
  | mgeom => exact State.instr_grows _ _ _ _ _ _ hs (fun _ h => State.runMgeom_grows _ _ _ _ h)
  | mload => exact State.instr_grows _ _ _ _ _ _ hs (fun _ h => State.runMload_grows _ _ _ _ h)
  | tileLoadDone => exact execTileLoadDone_grows hs
  | moset => exact State.instr_grows _ _ _ _ _ _ hs (fun _ h => State.runMoset_grows _ _ _ _ h)
  | mpset => exact State.instr_grows _ _ _ _ _ _ hs (fun _ h => State.runMpset_grows _ _ _ _ h)
  | mfset => exact State.instr_grows _ _ _ _ _ _ hs (fun _ h => State.runMfset_grows _ _ _ _ h)
  | mrun => exact State.instr_grows _ _ _ _ _ _ hs (fun _ h => State.runMrun_grows _ _ _ _ h)
  | macc => exact State.instr_grows _ _ _ _ _ _ hs (fun _ h => State.runMacc_grows _ _ _ _ h)
  | rowIssue => exact execRowIssue_grows hs
  | rowVerdict => exact execRowVerdict_grows hs
  | shadowShift p o => exact execShadowShift_grows (os := o) hs
  | drainStart => exact execDrainStart_grows hs
  | lineRetirement => exact execLineRetirement_grows hs
  | forecastSlotDisabled => exact execForecastSlotDisabled_grows hs
  | forecastWindowEnd => exact onlyIf_grows _ _ _ hs (State.modPav_grows _ _ _ hs)
  | munpk => exact State.instr_grows _ _ _ _ _ _ hs (fun _ h => State.runMunpk_grows _ _ _ _ _ h)
  | mpack => exact State.instr_grows _ _ _ _ _ _ hs (fun _ h => State.runMpack_grows _ _ _ _ _ h)
  | vadd => exact State.instr_grows _ _ _ _ _ _ hs (fun _ h => State.runVadd_grows _ _ _ _ _ h)
  | vsub => exact State.instr_grows _ _ _ _ _ _ hs (fun _ h => State.runVsub_grows _ _ _ _ _ h)
  | vmul => exact State.instr_grows _ _ _ _ _ _ hs (fun _ h => State.runVmul_grows _ _ _ _ _ h)
  | vfma => exact State.instr_grows _ _ _ _ _ _ hs (fun _ h => State.runVfma_grows _ _ _ _ _ h)
  | vfmai => exact State.instr_grows _ _ _ _ _ _ hs (fun _ h => State.runVfmai_grows _ _ _ _ _ h)
  | vaddi => exact State.instr_grows _ _ _ _ _ _ hs (fun _ h => State.runVaddi_grows _ _ _ _ _ h)
  | vmuli => exact State.instr_grows _ _ _ _ _ _ hs (fun _ h => State.runVmuli_grows _ _ _ _ _ h)
  | vmax => exact State.instr_grows _ _ _ _ _ _ hs (fun _ h => State.runVmax_grows _ _ _ _ _ h)
  | vmin => exact State.instr_grows _ _ _ _ _ _ hs (fun _ h => State.runVmin_grows _ _ _ _ _ h)
  | vabs => exact State.instr_grows _ _ _ _ _ _ hs (fun _ h => State.runVabs_grows _ _ _ _ _ h)
  | vneg => exact State.instr_grows _ _ _ _ _ _ hs (fun _ h => State.runVneg_grows _ _ _ _ _ h)
  | vbcast => exact State.instr_grows _ _ _ _ _ _ hs (fun _ h => State.runVbcast_grows _ _ _ _ _ h)
  | viadd => exact State.instr_grows _ _ _ _ _ _ hs (fun _ h => State.runViadd_grows _ _ _ _ _ h)
  | vimul => exact State.instr_grows _ _ _ _ _ _ hs (fun _ h => State.runVimul_grows _ _ _ _ _ h)
  | vilog => exact State.instr_grows _ _ _ _ _ _ hs (fun _ h => State.runVilog_grows _ _ _ _ _ h)
  | vishi => exact State.instr_grows _ _ _ _ _ _ hs (fun _ h => State.runVishi_grows _ _ _ _ _ h)
  | vcmp => exact State.instr_grows _ _ _ _ _ _ hs (fun _ h => State.runVcmp_grows _ _ _ _ _ h)
  | vcmpi => exact State.instr_grows _ _ _ _ _ _ hs (fun _ h => State.runVcmpi_grows _ _ _ _ _ h)
  | vicmp => exact State.instr_grows _ _ _ _ _ _ hs (fun _ h => State.runVicmp_grows _ _ _ _ _ h)
  | vsel => exact State.instr_grows _ _ _ _ _ _ hs (fun _ h => State.runVsel_grows _ _ _ _ _ h)
  | vpst => exact State.instr_grows _ _ _ _ _ _ hs (fun _ h => State.runVpst_grows _ _ _ _ _ h)
  | vpld => exact State.instr_grows _ _ _ _ _ _ hs (fun _ h => State.runVpld_grows _ _ _ _ _ h)
  | vpcnt => exact State.instr_grows _ _ _ _ _ _ hs (fun _ h => State.runVpcnt_grows _ _ _ _ _ h)
  | vcvt => exact State.instr_grows _ _ _ _ _ _ hs (fun _ h => State.runVcvt_grows _ _ _ _ _ h)
  | vpkmx => exact State.instr_grows _ _ _ _ _ _ hs (fun _ h => State.runVpkmx_grows _ _ _ _ _ h)
  | vupmx => exact State.instr_grows _ _ _ _ _ _ hs (fun _ h => State.runVupmx_grows _ _ _ _ _ h)
  | vsplit => exact State.instr_grows _ _ _ _ _ _ hs (fun _ h => State.runVsplit_grows _ _ _ _ _ h)
  | vi2f => exact State.instr_grows _ _ _ _ _ _ hs (fun _ h => State.runVi2f_grows _ _ _ _ _ h)
  | vf2i => exact State.instr_grows _ _ _ _ _ _ hs (fun _ h => State.runVf2i_grows _ _ _ _ _ h)
  | vrcp => exact State.instr_grows _ _ _ _ _ _ hs (fun _ h => State.runVrcp_grows _ _ _ _ _ h)
  | vrsqrt => exact State.instr_grows _ _ _ _ _ _ hs (fun _ h => State.runVrsqrt_grows _ _ _ _ _ h)
  | vexp2 => exact State.instr_grows _ _ _ _ _ _ hs (fun _ h => State.runVexp2_grows _ _ _ _ _ h)
  | vlog2 => exact State.instr_grows _ _ _ _ _ _ hs (fun _ h => State.runVlog2_grows _ _ _ _ _ h)
  | vtanh => exact State.instr_grows _ _ _ _ _ _ hs (fun _ h => State.runVtanh_grows _ _ _ _ _ h)
  | vsigm => exact State.instr_grows _ _ _ _ _ _ hs (fun _ h => State.runVsigm_grows _ _ _ _ _ h)
  | vred => exact State.instr_grows _ _ _ _ _ _ hs (fun _ h => State.runVred_grows _ _ _ _ _ h)
  | vscan => exact State.instr_grows _ _ _ _ _ _ hs (fun _ h => State.runVscan_grows _ _ _ _ _ h)
  | vgath => exact State.instr_grows _ _ _ _ _ _ hs (fun _ h => State.runVgath_grows _ _ _ _ _ h)
  | vflags => exact State.instr_grows _ _ _ _ _ _ hs (fun _ h => State.runVflags_grows _ _ _ _ _ h)
  | dcopy => exact State.instr_grows _ _ _ _ _ _ hs (fun _ h => State.runDcopy_grows _ _ _ _ h)
  | dcopyFinish => exact execDcopyFinish_grows hs
  | psend => exact State.instr_grows _ _ _ _ _ _ hs (fun _ h => State.runPsend_grows _ _ _ _ h)
  | precv => exact State.instr_grows _ _ _ _ _ _ hs (fun _ h => State.runPrecv_grows _ _ _ _ h)
  | precvItem => exact execPrecvItem_grows hs
  | nop => exact State.instr_grows _ _ _ _ _ _ hs (fun _ h => State.runNop_grows _ _ _ _ h)
  | wait => exact State.instr_grows _ _ _ _ _ _ hs (fun _ h => State.runWait_grows _ _ _ _ h)
  | waitEnd => exact execWaitEnd_grows hs
  | halt => exact State.instr_grows _ _ _ _ _ _ hs (fun _ h => State.runHalt_grows _ _ _ _ h)
  | loop => exact State.instr_grows _ _ _ _ _ _ hs (fun _ h => State.runLoop_grows _ _ _ _ h)
  | syncw => exact State.instr_grows _ _ _ _ _ _ hs (fun _ h => State.runSyncw_grows _ _ _ _ h)
  | syncwRelease => exact execSyncwRelease_grows hs
  | synca => exact State.instr_grows _ _ _ _ _ _ hs (fun _ h => State.runSynca_grows _ _ _ _ h)
  | cpost => exact State.instr_grows _ _ _ _ _ _ hs (fun _ h => State.runCpost_grows _ _ _ _ h)
  | fence => exact State.instr_grows _ _ _ _ _ _ hs (fun _ h => State.runFence_grows _ _ _ _ h)
  | markp => exact State.instr_grows _ _ _ _ _ _ hs (fun _ h => State.runMarkp_grows _ _ _ _ h)
  | stalledIssue => exact onlyIf_grows _ _ _ hs (State.issueAny_grows _ _ _ hs)
  | stallLimit => exact onlyIf_grows _ _ _ hs (State.programFault_grows _ _ _ _ _ hs)
  | runStart => exact onlyIf_grows _ _ _ hs (State.startRun_grows _ _ hs)
  | runEnd => exact onlyIf_grows _ _ _ hs (State.endRun_grows _ _ hs)
  | markTaken => exact execMarkTaken_grows hs
  | markVerified => exact execMarkVerified_grows hs
  | digestReadback => exact execDigestReadback_grows hs
  | add => exact execAdd_grows hs
  | sub => exact execSub_grows hs
  | and => exact execAnd_grows hs
  | or => exact execOr_grows hs
  | xor => exact execXor_grows hs
  | shifts => exact execShifts_grows hs
  | setLessThan => exact execSetLessThan_grows hs
  | min => exact execMin_grows hs
  | max => exact execMax_grows hs
  | loadUpperImmediate => exact execLoadUpperImmediate_grows hs
  | mul => exact execMul_grows hs
  | mulh => exact execMulh_grows hs
  | mulhu => exact execMulhu_grows hs
  | div => exact execDiv_grows hs
  | divu => exact execDivu_grows hs
  | rem => exact execRem_grows hs
  | remu => exact execRemu_grows hs
  | fadd => exact execFadd_grows hs
  | fsub => exact execFsub_grows hs
  | fmul => exact execFmul_grows hs
  | ffma => exact execFfma_grows hs
  | fmin => exact execFmin_grows hs
  | fmax => exact execFmax_grows hs
  | fcmp => exact execFcmp_grows hs
  | fcvt => exact execFcvt_grows hs
  | fdiv => exact execFdiv_grows hs
  | fsqrt => exact execFsqrt_grows hs
  | ld => exact execLd_grows hs
  | st => exact execSt_grows hs
  | ldp => exact execLdp_grows hs
  | stp => exact execStp_grows hs
  | compareAndBranch => exact execCompareAndBranch_grows hs
  | jump => exact execJump_grows hs
  | jumpAndLink => exact execJumpAndLink_grows hs
  | movq => exact execMovq_grows hs
  | sigc => exact execSigc_grows hs
  | rdctr => exact execRdctr_grows hs
  | wfe => exact execWfe_grows hs
  | wfeWake => exact execWfeWake_grows hs
  | csrr => exact execCsrr_grows hs
  | csrw => exact execCsrw_grows hs
  | trap => exact execTrap_grows hs
  | tret => exact execTret_grows hs
  | coreFence => exact execCoreFence_grows hs
  | moveTransferStart => exact execMoveTransferStart_grows hs
  | moveTransferFinish => exact execMoveTransferFinish_grows hs
  | correctionWriteBack => exact execCorrectionWriteBack_grows hs
  | gardenPatrolScrub => exact execGardenPatrolScrub_grows hs
  | tagWaitEnd => exact execTagWaitEnd_grows hs
  | tagTimeout => exact .next (State.failTag_grows _ _ _ _ hs)
  | plotScrub => exact execPlotScrub_grows hs
  | plotScrubDone => exact execPlotScrubDone_grows hs
  | beatArrival => exact execBeatArrival_grows hs
  | steeringResolve => exact execSteeringResolve_grows hs
  | skewTimeout => exact execSkewTimeout_grows hs
  | mergeEmit => exact execMergeEmit_grows hs
  | sectionEnd => exact execSectionEnd_grows hs
  | sectionFreeze => exact onlyIf_grows _ _ _ hs (State.recover_grows _ _ _ hs)
  | req => exact execReq_grows hs
  | read => exact execRead_grows hs
  | reply => exact execReply_grows hs
  | data => exact execData_grows hs
  | nack => exact execNack_grows hs
  | signalPacket => exact execSignalPacket_grows hs
  | control => exact execControl_grows hs
  | granule => exact execGranule_grows hs
  | heldGrant => exact execHeldGrant_grows hs
  | fullRetry => exact execFullRetry_grows hs
  | requestTimeout => exact execRequestTimeout_grows hs
  | landingTimeout => exact execLandingTimeout_grows hs
  | doneQuery => exact execDoneQuery_grows hs
  | escapeSet => exact onlyIf_grows _ _ _ hs (State.emit_grows _ _ hs)
  | ageRaise => exact .next (State.emit_grows _ _ hs)
  | linkErrorWindow => exact execLinkErrorWindow_grows hs
  | linkWithdrawal => exact execLinkWithdrawal_grows hs
  | granuleResend => exact execGranuleResend_grows hs
  | hbmPatrolScrub => exact onlyIf_grows _ _ _ hs (State.modStack_grows _ _ _ (.ite _ (State.lineRead_grows _ _ hs) hs))
  | pcReplacement => exact execPcReplacement_grows hs
  | stackFailed => exact .next (State.failStack_grows _ _ hs)
  | hbmRetrain => exact execHbmRetrain_grows hs
  | hbmZeroingDone => exact execHbmZeroingDone_grows hs
  | relayOpen => exact onlyIf_grows _ _ _ hs (State.settleStep1_grows _ (State.emit_grows _ _ (State.modLodge_grows _ _ hs)))
  | watchdogExpiry => exact onlyIf_grows _ _ _ hs (State.emit_grows _ _ (State.modLodge_grows _ _ hs))
  | expeditedRead => exact ringCmd_grows _ _ _ _ hs
  | expeditedWrite => exact ringCmd_grows _ _ _ _ hs
  | segmentedRead => exact ringCmd_grows _ _ _ _ hs
  | segmentedWrite => exact ringCmd_grows _ _ _ _ hs
  | segmentedTransferDrop => exact onlyIf_grows _ _ _ hs (State.dropTransfer_grows _ _ _ _ hs)
  | blockControl => exact ringCmd_grows _ _ _ _ hs
  | blockWrite => exact ringCmd_grows _ _ _ _ hs
  | abort => exact ringCmd_grows _ _ _ _ hs
  | eventAck => exact ringCmd_grows _ _ _ _ hs
  | eventResend => exact execEventResend_grows hs
  | sync => exact execSync_grows hs
  | syncSend => exact execSyncSend_grows hs
  | delayReq => exact execDelayReq_grows hs
  | delayResp => exact ringCmd_grows _ _ _ _ hs
  | syncLost => exact onlyIf_grows _ _ _ hs (State.event_grows _ _ _ _ _ _ (State.modLodge_grows _ _ hs))
  | frameForward => exact execFrameForward_grows hs
  | stationAssign => exact onlyIf_grows _ _ _ hs (State.ringIn_grows _ _ hs)
  | objectWrite => exact .next (State.putObject_grows _ _ _ _ _ hs)
  | counterReadClear => exact onlyIf_grows _ _ _ hs (State.getObject_grows _ _ _ _ hs)
  | moduleStop => exact .next (State.putObject_grows _ _ _ _ _ hs)
  | moduleOperate => exact .next (State.putObject_grows _ _ _ _ _ hs)
  | allotmentOpen => exact .next (State.putObject_grows _ _ _ _ _ hs)
  | allotmentClose => exact .next (State.putObject_grows _ _ _ _ _ hs)
  | allotmentOpenDone => exact execAllotmentOpenDone_grows hs
  | allotmentCloseDone => exact execAllotmentCloseDone_grows hs
  | plotDisable => exact .next (State.putObject_grows _ _ _ _ _ hs)
  | plotEnable => exact .next (State.putWith_grows _ _ _ _ _ _ hs (fun _ h => State.plotWrite_grows _ _ _ _ h))
  | pavilionDisable => exact .next (State.putObject_grows _ _ _ _ _ hs)
  | pavilionEnable => exact .next (State.putWith_grows _ _ _ _ _ _ hs (fun _ h => State.pavWrite_grows _ _ _ _ h))
  | hostPortDisable => exact .next (State.putObject_grows _ _ _ _ _ hs)
  | hostPortEnable => exact .next (State.putObject_grows _ _ _ _ _ hs)
  | serverPortDisable => exact .next (State.putObject_grows _ _ _ _ _ hs)
  | serverPortEnable => exact .next (State.putObject_grows _ _ _ _ _ hs)
  | forecastRearm => exact .next (State.putObject_grows _ _ _ _ _ hs)
  | overlaySelect => exact .next (State.putObject_grows _ _ _ _ _ hs)
  | parcelRedeal => exact execParcelRedeal_grows hs
  | attachWrite => exact .next (State.putObject_grows _ _ _ _ _ hs)
  | serverPortsWrite => exact .next (State.putObject_grows _ _ _ _ _ hs)
  | powerCapWrite => exact .next (State.putObject_grows _ _ _ _ _ hs)
  | activeBaseWrite => exact .next (State.putObject_grows _ _ _ _ _ hs)
  | imageErase => exact .next (State.putObject_grows _ _ _ _ _ hs)
  | imageCheckDone => exact .ite _ (.next (State.progressEnd_grows _ _ _ (State.modLodge_grows _ _ hs))) (.next hs)
  | logRecordRead => exact .next (State.getObject_grows _ _ _ _ hs)
  | logPositionWrite => exact .next (State.putObject_grows _ _ _ _ _ hs)
  | logLostRead => exact .next (State.getObject_grows _ _ _ _ hs)
  | logClear => exact .next (State.putObject_grows _ _ _ _ _ hs)
  | nonceWrite => exact .next (State.putObject_grows _ _ _ _ _ hs)
  | reportRead => exact .next (State.getObject_grows _ _ _ _ hs)
  | serviceUnlock => exact .next (State.putObject_grows _ _ _ _ _ hs)
  | serviceUnlockExpiry => exact .next (State.modLodge_grows _ _ hs)
  | debugOpen => exact .next (State.putObject_grows _ _ _ _ _ hs)
  | firmwareWrite => exact .next (State.answer_grows _ _ _ _ (State.dictWrite_grows _ _ _ _ _ _ hs))
  | drillPackageCheckDone => exact execDrillPackageCheckDone_grows hs
  | hello => exact sessionCmd_grows _ _ _ hs
  | accept => exact sessionCmd_grows _ _ _ hs
  | close => exact sessionCmd_grows _ _ _ hs
  | wkeySet => exact sessionCmd_grows _ _ _ hs
  | wkeyDel => exact sessionCmd_grows _ _ _ hs
  | ownersSet => exact sessionCmd_grows _ _ _ hs
  | sessionTimeout => exact execSessionTimeout_grows hs
  | handshakeTimeout => exact .next (State.modLodge_grows _ _ hs)
  | getMeasurements => exact .next (State.emit_grows _ _ hs)
  | mailboxRead => exact onlyIf_grows _ _ _ hs (State.mbxRead_grows _ _ _ _ hs)
  | mailboxWrite => exact onlyIf_grows _ _ _ hs (State.mbxWrite_grows _ _ _ _ hs)
  | registerWrite => exact execRegisterWrite_grows hs
  | evqCtrlWrite => exact onlyIf_grows _ _ _ hs (State.modFn_grows _ _ _ _ hs)
  | evqHeadWrite => exact onlyIf_grows _ _ _ hs (State.modFn_grows _ _ _ _ hs)
  | eventRingWrite => exact execEventRingWrite_grows hs
  | queueOpen => exact execQueueOpen_grows hs
  | queueClose => exact execQueueClose_grows hs
  | submissionDoorbell => exact execSubmissionDoorbell_grows hs
  | completionDoorbell => exact execCompletionDoorbell_grows hs
  | commandFetch => exact execCommandFetch_grows hs
  | interruptCoalesceTimeout => exact execInterruptCoalesceTimeout_grows hs
  | bar4Read => exact execBar4Read_grows hs
  | bar4Write => exact execBar4Write_grows hs
  | launch => exact execLaunch_grows hs
  | jobEnd => exact execJobEnd_grows hs
  | copy => exact execCopy_grows hs
  | wopen => exact State.starting_grows _ _ _ _ _ hs (fun _ => State.wopen_grows _ _ _ _ (State.cmdTo_grows _ _ _ _ _ hs))
  | wclose => exact execWclose_grows hs
  | mark => exact State.starting_grows _ _ _ _ _ hs (fun _ => State.waitStart_grows _ _ _ _ hs)
  | hostFence => exact State.starting_grows _ _ _ _ _ hs (fun _ => State.waitStart_grows _ _ _ _ hs)
  | waitEvent => exact State.starting_grows _ _ _ _ _ hs (fun _ => State.waitStart_grows _ _ _ _ hs)
  | waitEventTimeout => exact execWaitEventTimeout_grows hs
  | signal => exact execSignal_grows hs
  | loadImage => exact execLoadImage_grows hs
  | queryProgress => exact execQueryProgress_grows hs
  | abortJob => exact execAbortJob_grows hs
  | perstAssert => exact .next (State.modHost_grows _ _ _ (State.portReset_grows _ _ hs))
  | perstRelease => exact onlyIf_grows _ _ _ hs (State.latchBars_grows _ _ (State.modHost_grows _ _ _ hs))
  | linkDown => exact execLinkDown_grows hs
  | linkUp => exact onlyIf_grows _ _ _ hs (State.modHost_grows _ _ _ hs)
  | flr => exact onlyIf_grows _ _ _ hs (State.hostCount_grows _ _ _ (State.quiesceFn_grows _ _ _ hs))
  | d3hotEntry => exact onlyIf_grows _ _ _ hs (State.quiesceFn_grows _ _ _ hs)
  | transportWrite => exact execTransportWrite_grows hs
  | transportRead => exact execTransportRead_grows hs
  | bind => exact execBind_grows hs
  | done => exact execDone_grows hs
  | transportNack => exact execTransportNack_grows hs
  | transferTimer => exact execTransferTimer_grows hs
  | outgoingResend => exact execOutgoingResend_grows hs
  | busyRetry => exact execBusyRetry_grows hs
  | windowClosed => exact execWindowClosed_grows hs
  | serverPortRetrain => exact execServerPortRetrain_grows hs
  | footbridgeRetrain => exact execFootbridgeRetrain_grows hs
  | drill => exact execDrill_grows hs
  | forcedDrill => exact onlyIf_grows _ _ _ hs (State.modPav_grows _ _ _ hs)
  | coalescerSend => exact execCoalescerSend_grows hs
  | recordArrival => exact execRecordArrival_grows hs
  | replay => exact execReplay_grows hs
  | freezeAbandon => exact execFreezeAbandon_grows hs
  | cellShuffle => exact execCellShuffle_grows hs
  | pavilionShuffle => exact execPavilionShuffle_grows hs
  | plotShuffle => exact execPlotShuffle_grows hs
  | doubling => exact execDoubling_grows hs
  | contextSwitch => exact execContextSwitch_grows hs
  | standInFailure => exact execStandInFailure_grows hs
  | doublingEnd => exact execDoublingEnd_grows hs
  | powerControlTick => exact execPowerControlTick_grows hs
  | alertLow => exact execAlertLow_grows hs
  | alertClear => exact execAlertClear_grows hs
  | avsStep => exact .next (State.avsNext_grows _ _ (State.modLodge_grows _ _ hs))
  | shortDetected => exact execShortDetected_grows hs
  | pgLoss => exact execPgLoss_grows hs
  | pllLockLoss => exact onlyIf_grows _ _ _ hs (State.modPlot_grows _ _ _ (State.loseDomain_grows _ _ hs))
  | pllRelock => exact execPllRelock_grows hs
  | derate => exact execDerate_grows hs
  | thermalWarning => exact execThermalWarning_grows hs
  | thermalDutyStep => exact execThermalDutyStep_grows hs
  | shed => exact execShed_grows hs
  | cut => exact execCut_grows hs
  | thermTrip => exact execThermTrip_grows hs
  | thermTripRelease => exact onlyIf_grows _ _ _ hs (State.emit_grows _ _ (State.modLodge_grows _ _ hs))
  | plotReturn => exact execPlotReturn_grows hs
  | ageingMeasurement => exact .next (State.flashWrite_grows _ _ _ _ (State.each_grows _ _ _ hs (fun _ _ h => State.aged_grows
    _ _ h)))
  | flashSectorWrite => exact execFlashSectorWrite_grows hs
  | auxPowerOn => exact execAuxPowerOn_grows hs
  | auxPowerLoss => exact onlyIf_grows _ _ _ hs (State.emit_grows _ _ (State.wipe_grows _ _ (State.stopFlash_grows _ hs)))
  | lodgeResetAssert => exact execLodgeResetAssert_grows hs
  | lodgeResetRelease => exact execLodgeResetRelease_grows hs
  | segmentPowerOn => exact execSegmentPowerOn_grows hs
  | plotWave => exact execPlotWave_grows hs
  | bistDone => exact execBistDone_grows hs
  | dealStart => exact execDealStart_grows hs
  | card => exact execCard_grows hs
  | deckEnd => exact execDeckEnd_grows hs
  | dealRoundEnd => exact execDealRoundEnd_grows hs
  | linkCheck => exact execLinkCheck_grows hs
  | moduleReady => exact execModuleReady_grows hs
  | ringPortLinkChange => exact onlyIf_grows _ _ _ hs (State.modLodge_grows _ _ hs)
  | spineBreak => exact .next (State.breakSpine_grows _ _ _ hs)
  | powerGood => exact execPowerGood_grows hs
  | startupStepBound => exact execStartupStepBound_grows hs
  | segmentTrainingDone => exact execSegmentTrainingDone_grows hs
  | holdUpCharged => exact .next (.ite _ (State.record_grows _ _ (State.modLodge_grows _ _ hs)) (State.modLodge_grows _ _ hs))
  | pcieCompletionTimeout => exact execPcieCompletionTimeout_grows hs
  | progressIndexRelease => exact onlyIf_grows _ _ _ hs (State.modLodge_grows _ _ hs)
  | serverLinkTraining => exact execServerLinkTraining_grows hs
  | ideKmKeyProg => exact onlyIf_grows _ _ _ hs (State.modFn_grows _ _ _ _ hs)

theorem State.tick_grows (hs : Grows z s) : Grows z s.tick := by
  unfold State.tick
  split
  case h_4 =>
    exact .ite _ (hs.nsSet _) (.ite _ (Grows.nsSet _ (State.modLodge_grows _ _ hs)) (State.modLodge_grows _ _ hs))
  all_goals exact hs

end

/-- A step changes HBM as its command does, or as a tick does, whatever the queue holds. -/
theorem step_keeps_hbm_wf {s t : State} (h : step s = .next t) (hw : s.hbm.wf = true) : t.hbm.wf = true := by
  unfold step at h
  split at h
  case h_1 =>
    cases h
    exact (State.tick_grows (Grows.refl s)).hbm hw
  case h_2 c rest hp => exact ((exec_grows (Grows.refl { s with pending := rest }) c).of_next t h).hbm hw

/-- Settles O60: every state that a command answers `Grows` from the one that it met. -/
theorem commandsKeepQueue : Obligations.CommandsKeepQueue := by
  intro c s t h
  obtain ⟨pending, out, free, _⟩ := (exec_grows (Grows.refl s) c).of_next t h
  exact ⟨pending, out, free⟩

/-- Settles O58: the canonical form of HBM is what `State.safe` says. -/
theorem stepKeepsHbmCanonical : Obligations.StepKeepsHbmCanonical :=
  fun _ _ safe h => step_keeps_hbm_wf h safe

/-- Settles O56: the queue's front decides between the two arms of `step`, and the phase of start-up between those of a tick. -/
theorem stepRunsFront : Obligations.StepRunsFront := by
  refine ⟨fun c rest s h => ?front, fun c s => rfl, fun s h => ?idle⟩
  case front => simp only [step, h]
  case idle =>
    have ticks : step s = .next s.tick := by simp only [step, h]
    refine ⟨ticks, fun off => ?before, fun ready steady => ?after⟩
    case before => rw [ticks, State.tick, off]
    case after =>
      rw [ticks, State.tick, ready]
      exact congrArg _ (if_pos (.inl steady))

end Sys2Proof.Machine

/-! Completion of the PCIe events of a host port (R375, R376, R378). -/

namespace Sys2Proof.Machine

/-- Settles O41: what each event asks of its port or its link is what its command's condition tests. -/
theorem pcieCompletes : Obligations.PcieCompletes := by
  intro h f s
  dsimp only
  refine ⟨rfl, fun held => onlyIf_of_true _ _ held, fun w r trains powered high enabled down => ?trained,
    fun up => ⟨onlyIf_of_true _ _ up, onlyIf_of_true _ _ up, onlyIf_of_true _ _ up, onlyIf_of_true _ _ up, fun key ide => ?key⟩⟩
  case trained => exact onlyIf_of_true _ _ (by simp [trains, powered, high, enabled, down])
  case key => exact onlyIf_of_true _ _ (by simp [up, ide])

end Sys2Proof.Machine

/-! Completion of the security and image commands (R365, R371, R444, R526, R536, R539, R540). -/

namespace Sys2Proof.Machine

section
variable {s : State} {r : Requester} {v : List Byte}

/-! ### Writes of the security objects and of the firmware (R526, R536, R539, R540) -/

theorem writeObject_nonce (s : State) (r : Requester) (v : List Byte) :
    s.writeObject r 0x6000 1 v false = (0, s.setNonce r v) := by
  simp [State.writeObject, blockOnly]

theorem writeObject_unlock (s : State) (r : Requester) (v : List Byte) :
    s.writeObject r 0x6000 5 v false = s.unlockWrite r v := by
  simp [State.writeObject, blockOnly]

/-- R526: an image whose trailer verifies is the next firmware, and goes to flash. -/
theorem writeObject_firmware (ht : trailerOk 0 [] v = true) (hl : v.length ≤ 8 * 2 ^ 20) (hh : s.holdupLow = false) :
    s.writeObject r 0x7F00 1 v true = (0, (s.modLodge (fun l => { l with fwNext := some (firmwareOf v) })).flashWrite
      .firmware 0 (sectorsOf v.length)) := by
  have fits : ¬ (!trailerOk 0 [] v ∨ 8 * 2 ^ 20 < v.length) := by simp [ht]; omega
  calc s.writeObject r 0x7F00 1 v true
      = s.firmwareWrite v := by simp [State.writeObject]
    _ = _ := by rw [State.firmwareWrite, if_neg fits, hh]; rfl

theorem firmwareWrite_of_valid (h : s.writeCheck r 0x7F00 1 v.length = 0) (ht : trailerOk 0 [] v = true)
    (hl : v.length ≤ 8 * 2 ^ 20) (hh : s.holdupLow = false) : exec (.firmwareWrite r v) s =
      .next (((s.modLodge (fun l => { l with fwNext := some (firmwareOf v) })).flashWrite .firmware 0
        (sectorsOf v.length)).emit (.answer r 0 [])) := by
  show execFirmwareWrite r v s = _
  simp only [execFirmwareWrite, State.dictWrite, h, writeObject_firmware ht hl hh]
  rfl

/-! ### Images and drill packages that have been checked (R365, R371, R444) -/

theorem imageCheckDone_of_stored {n : Fin 64} (h : (s.image n.val).status = 1)
    (hj : s.lodge.flashJobs.any (fun j => j.region == .images && j.slot == n.val) = false) :
    let ok := trailerOk 2 s.lodge.sec.owners (s.image n.val).content && imgOk (s.image n.val).content
    exec (.imageCheckDone n) s = .next ((s.modLodge (fun l => { l with
      images := tset l.images n.val { s.image n.val with status := if ok then 2 else 3 } })).progressEnd 0x50 (if ok then 2 else 3)) :=
  if_pos ⟨h, by rw [hj]; rfl⟩

section
variable {d : List Byte} (hd : s.lodge.drillNew = some d)
include hd

theorem drillPackageCheckDone_of_invalid (ht : trailerOk 1 [] d = false) : exec .drillPackageCheckDone s =
    .next ((s.modLodge (fun l => { l with drillNew := none, drillStatus := 3 })).progressEnd 0x50 3) := by
  show execDrillPackageCheckDone s = _
  simp [execDrillPackageCheckDone, hd, ht]

/-- R444: without a package in use, its serial counts as 0. -/
theorem drillPackageCheckDone_of_newer (hh : (packageHead d).1 = true) (ht : trailerOk 1 [] d = true)
    (hn : ∀ x, s.lodge.drill = some x → x.serial.toNat < (packageHead d).2.1) (h1 : 1 ≤ (packageHead d).2.1)
    (hv : (packageHead d).2.2 ≤ s.lodge.fw.version.toNat) : exec .drillPackageCheckDone s =
      .next (((s.modLodge (fun l => { l with
        drill := some { content := d, serial := BitVec.ofNat 32 (packageHead d).2.1 }, drillNew := none
        drillStatus := 2 })).flashWrite .drill 0 (sectorsOf d.length)).progressEnd 0x50 2) := by
  have newer : (s.lodge.drill.map (fun x => x.serial.toNat)).getD 0 < (packageHead d).2.1 := by
    cases inUse : s.lodge.drill with
    | none => exact h1
    | some x => exact hn x inUse
  show execDrillPackageCheckDone s = _
  simp [execDrillPackageCheckDone, hd, hh, ht, newer, hv]

end

/-- R371: a parcel whose overlay is of another base waits for its deal. -/
theorem parcelRedeal_of_due {a : AllotIx} (he : (s.allot a.val).enable = .open_) (hr : (s.allot a.val).redealDue = true)
    (hj : (s.allot a.val).jobs = []) (hd : (s.allot a.val).dealing = false) (hp : (s.parcelFor a.val).isSome = true) :
    exec (.parcelRedeal a) s = .next ((s.modAllot a.val (fun y => { y with dealing := true })).modLodge (fun l =>
      { l with dealQueue := l.dealQueue ++ [a] })) := by
  show execParcelRedeal a s = _
  simp [execParcelRedeal, he, hr, hj, hd, hp]

end

/-- Settles O38: each write passes its checks, and each event has the lemma above. -/
theorem imagesComplete : Obligations.ImagesComplete := by
  intro r s
  refine ⟨fun n len h => ?nonce, fun v h => ?unlock, rfl, fun v => firmwareWrite_of_valid, fun n => imageCheckDone_of_stored,
    fun d hd => ⟨drillPackageCheckDone_of_invalid hd, drillPackageCheckDone_of_newer hd⟩, fun a => parcelRedeal_of_due⟩
  case nonce =>
    rw [← len] at h
    exact congrArg Host.Outcome.next (putObject_of_check h (writeObject_nonce s r n))
  case unlock =>
    have written : State.putObject s r 0x6000 5 v = State.answered r (s.unlockWrite r v) :=
      putObject_of_check h (writeObject_unlock s r v)
    exact ⟨congrArg _ written, congrArg _ written⟩

end Sys2Proof.Machine

/-! Completion of the last steps of an allotment's opening and closing (R383, R384). -/

namespace Sys2Proof.Machine

section
variable {a : AllotIx} {s : State}

/-- R383: an opening that fails destroys the keys and scrubs the plots that have joined. -/
theorem allotmentOpenDone_of_failed (he : (s.allot a.val).enable = .opening) (hp : (s.allot a.val).pendOpen = false) :
    let t := (s.dropDeal a.val).modAllot a.val (fun x => { x with
      enable := .failed, key := none, wkeys := [], claims := 0, zeroed := false })
    exec (.allotmentOpenDone a false) s = .next (t.each ((plotsIn (s.allot a.val).plots).filter
      (fun p => t.ownerOf p == some a.val)) State.scrubStart) := by
  show execAllotmentOpenDone a false s = _
  simp [execAllotmentOpenDone, he, hp]

theorem allotmentOpenDone_of_joined (he : (s.allot a.val).enable = .opening) (hp : (s.allot a.val).pendOpen = false)
    (hj : (plotsIn (s.allot a.val).plots).all (fun p => s.ownerOf p == some a.val) = true)
    (ho : (plotsIn (s.allot a.val).plots).any (fun p => (s.plot p).out) = false) (hz : (s.allot a.val).zeroed = true)
    (hc : (s.allot a.val).claims = 0) (hn : s.parcelFor a.val = none) :
    exec (.allotmentOpenDone a true) s = .next ((((s.putParcel a.val).modAllot a.val (fun x => { x with
      enable := .open_, dealing := false, pendOpen := false, counters := [], queues := [], evq := [] })).replaceFailed
        a.val (fun _ => true)).idleFn (s.allot a.val).hostPort.toNat (s.allot a.val).pf.toNat) := by
  show execAllotmentOpenDone a true s = _
  simp only [execAllotmentOpenDone, he, hp, hj, ho, hz, hc, hn]
  rfl

/-- R384: with its plots gone and scrubbed, a closing allotment reads closed. -/
theorem allotmentCloseDone_of_left (he : (s.allot a.val).enable = .closing) (hd : (s.allot a.val).closeDue = false)
    (ho : s.closedOut a.val = true)
    (hs : (plotsIn (s.allot a.val).plots).all (fun p => s.ownerOf p != some a.val && !(s.plot p).scrubbing) = true) :
    exec (.allotmentCloseDone a) s = .next (((s.endDoublings ((plotsIn (s.allot a.val).plots).flatMap pavsOf)).idleFn
      (s.allot a.val).hostPort.toNat (s.allot a.val).pf.toNat).modAllot a.val (fun y => { y with
        enable := .closed, key := none, wkeys := [], queues := [], jobs := [], evq := [], counters := [], parcel := none
        chunks := [], sections := [], sectionActive := false, frozen := none, frozenNext := [], pavMap := [], tunnels := []
        spills := [], taint := [], keep := [], zeroed := false, tried := [], overlayPending := none, redealDue := false
        attachPending := none })) := by
  show execAllotmentCloseDone a s = _
  simp only [execAllotmentCloseDone, he, hd, ho, hs]
  rfl

end

/-- Settles O39: each last step's condition holds, and what it answers is the lemma above. -/
theorem allotmentStepsComplete : Obligations.AllotmentStepsComplete := by
  intro a s
  exact ⟨allotmentOpenDone_of_failed, allotmentOpenDone_of_joined,
    fun he hd ho hs => ⟨_, allotmentCloseDone_of_left he hd ho hs⟩⟩

end Sys2Proof.Machine

/-! Completion of a host function's queues and of its event ring (R386, R389, R390, R398). -/

namespace Sys2Proof.Machine

/-! ### A queue that has been charged (R397) -/

/-- R397: the arbiter charges a queue's deficit alone. -/
@[simp] theorem charge_sqHead (s : State) (a q cost : Nat) :
    (((s.charge a q cost).allot a).queue q).sqHead = ((s.allot a).queue q).sqHead := by
  rw [State.charge, State.queue_modQueue_same]
  dsimp only
  split <;> rfl

@[simp] theorem charge_cmds (s : State) (a q cost : Nat) :
    (((s.charge a q cost).allot a).queue q).cmds = ((s.allot a).queue q).cmds := by
  rw [State.charge, State.queue_modQueue_same]
  dsimp only
  split <;> rfl

section
variable {h : PortIx} {f : FnIx} {a : Nat} {s : State}

/-! ### Queue pairs and doorbells (R386, R389) -/

section
variable {q : Nat} (hq : s.selQueue h.val f.val = some (a, q)) (hu : s.fnUp h.val f.val = true)
include hq hu

theorem queueOpen_of_selected (hr : s.lodge.isReady = true) : exec (.queueOpen h f) s = .next (s.qOpen a q) := by
  show execQueueOpen h f s = _
  rw [execQueueOpen, hq]
  exact onlyIf_of_true _ _ (by rw [hu, hr]; rfl)

theorem queueClose_of_selected : exec (.queueClose h f) s = .next (s.qClose a q) := by
  show execQueueClose h f s = _
  rw [execQueueClose, hq]
  exact onlyIf_of_true _ _ hu

end

theorem submissionDoorbell_of_bell {q : BitVec 16} (v : BitVec 32) (hb : s.bellQueue h.val f.val q = some a) :
    exec (.submissionDoorbell h f q v) s = .next (if ((s.allot a).queue q.toNat).sqLen ≤ bits v.toNat 15 0 then
      (s.failQueue a q.toNat 4).portCount h.val 11
      else s.modQueue a q.toNat (fun y => { y with sqTail := bits v.toNat 15 0 })) := by
  show execSubmissionDoorbell h f q v s = _
  rw [execSubmissionDoorbell, hb]
  exact (apply_ite Host.Outcome.next _ _ _).symm

theorem completionDoorbell_of_bell {q : BitVec 16} (v : BitVec 32) (hb : s.bellQueue h.val f.val q = some a) :
    exec (.completionDoorbell h f q v) s = .next (if ((s.allot a).queue q.toNat).cqLen ≤ bits v.toNat 15 0 then
      (s.failQueue a q.toNat 4).portCount h.val 11
      else s.modQueue a q.toNat (fun y => { y with cqHead := bits v.toNat 15 0 })) := by
  show execCompletionDoorbell h f q v s = _
  rw [execCompletionDoorbell, hb]
  exact (apply_ite Host.Outcome.next _ _ _).symm

section
variable (ho : s.openFn h.val f.val = some a) (hu : s.fnUp h.val f.val = true)
include ho

/-! ### The fetch of an entry (R386, R390) -/

/-- The command that a fetch of the entry e makes of it. -/
def State.fetched (s : State) (a q : Nat) (e : BitVec 512) : Cmd :=
  { id := (s.allot a).fetchCount + 1, entry := e, state := .fetched
    sqhead := (((s.allot a).queue q).sqHead + 1) % ((s.allot a).queue q).sqLen, recovered := false, record := 0, poisoned := false
    position := 0, started := s.ns, waits := none, written := false }

/-- R386: the state in which the queue has moved past the entry e and holds its command. -/
def State.afterFetch (s : State) (a q : Nat) (e : BitVec 512) : State :=
  ((s.modAllot a (fun y => { y with fetchCount := (s.fetched a q e).id })).modQueue a q (fun y => { y with
    sqHead := (s.fetched a q e).sqhead, cmds := y.cmds ++ [s.fetched a q e] })).charge a q 64

include hu

theorem commandFetch_of_memError {q : BitVec 16} (e : BitVec 512) (hr : s.lodge.isReady = true)
    (hf : ((s.allot a).queue q.toNat).fetchable = true) :
    exec (.commandFetch h f q e true) s = .next (s.failQueue a q.toNat 5) := by
  show execCommandFetch h f q e true s = _
  simp [execCommandFetch, ho, hu, hr, hf]

theorem commandFetch_of_known {q : BitVec 16} {e : BitVec 512} (hr : s.lodge.isReady = true)
    (hf : ((s.allot a).queue q.toNat).fetchable = true) (hm : s.lodge.moduleState = 3)
    (hk : ∀ c : Cmd, c.entry = e → c.known = true) :
    exec (.commandFetch h f q e false) s = .next (s.afterFetch a q.toNat e) := by
  have known := hk (s.fetched a q.toNat e) rfl
  have operates : ¬ ((s.afterFetch a q.toNat e).lodge.moduleState = 1 ∨ (s.afterFetch a q.toNat e).lodge.moduleState = 2) := by
    have same : (s.afterFetch a q.toNat e).lodge = s.lodge := rfl
    rw [same, hm]; decide
  have goes : ¬ (!s.fnUp h.val f.val || !s.lodge.isReady || !((s.allot a).queue q.toNat).fetchable) = true := by
    rw [hu, hr, hf]; decide
  show execCommandFetch h f q e false s = _
  simp only [execCommandFetch, ho]
  rw [if_neg goes, if_neg Bool.false_ne_true]
  exact (if_neg operates).trans (if_neg (by rw [State.fetched] at known; rw [known]; decide))

omit ho hu

theorem afterFetch_sqHead (q : Nat) (e : BitVec 512) : (((s.afterFetch a q e).allot a).queue q).sqHead =
    (((s.allot a).queue q).sqHead + 1) % ((s.allot a).queue q).sqLen := by
  rw [State.afterFetch, charge_sqHead, State.queue_modQueue_same]
  rfl

theorem afterFetch_last (q : Nat) (e : BitVec 512) :
    (((s.afterFetch a q e).allot a).queue q).cmds.getLast?.map (·.entry) = some e := by
  rw [State.afterFetch, charge_cmds, State.queue_modQueue_same]
  simp [State.fetched]

include ho

theorem interruptCoalesceTimeout_of_due {q : BitVec 16} (hn : ((s.allot a).queue q.toNat).uncoalesced ≠ 0)
    (hd : ((s.allot a).queue q.toNat).firstAt + 1000 * bits ((s.allot a).queue q.toNat).coal.toNat 31 16 ≤ s.ns) :
    exec (.interruptCoalesceTimeout h f q) s = .next (s.queueInterrupt a q.toNat) := by
  show execInterruptCoalesceTimeout h f q s = _
  rw [execInterruptCoalesceTimeout, ho]
  exact onlyIf_of_true _ _ (decide_eq_true ⟨hn, hd⟩)

/-! ### The event ring (R398) -/

include hu

theorem evqCtrlWrite_of_open (v : BitVec 32) :
    exec (.evqCtrlWrite h f v) s = .next (s.modFn h.val f.val (fun x => x.setEvqCtrl v)) :=
  onlyIf_of_true _ _ (by rw [hu, ho]; rfl)

theorem evqHeadWrite_of_open (v : BitVec 32) :
    exec (.evqHeadWrite h f v) s = .next (s.modFn h.val f.val (fun x => { x with evqHead := v &&& 0xFFF })) :=
  onlyIf_of_true _ _ (by rw [hu, ho]; rfl)

theorem eventRingWrite_of_room {e : Event} {rest : List Event} (he : (s.allot a).evq = e :: rest)
    (hon : (s.fn h.val f.val).evqOn = true)
    (hn : ((s.fn h.val f.val).evqTail + 1) % (s.fn h.val f.val).evqLen ≠
      (s.fn h.val f.val).evqHead.toNat % (s.fn h.val f.val).evqLen) :
    let x := s.fn h.val f.val
    let n := (x.evqTail + 1) % x.evqLen
    exec (.eventRingWrite h f) s = .next ((((s.modAllot a (fun y => { y with evq := rest })).emit (.hostWrite h
      (x.evqBase + BitVec.ofNat 64 (32 * x.evqTail)) (eventEntry e x.evqPhase) [false] false)).modFn h.val f.val (fun y => { y with
        evqTail := n, evqPhase := if n = 0 then !y.evqPhase else y.evqPhase })).msix h f (bits x.evqCtrl.toNat 26 16)) := by
  show execEventRingWrite h f s = _
  simp [execEventRingWrite, ho, he, hu, hon, hn]

end
end

/-- Settles O43: with the function up and its allotment open, each access does what its lemma above says. -/
theorem queuesComplete : Obligations.QueuesComplete := by
  intro h f a s ho hu hr
  refine ⟨fun q hq => ⟨queueOpen_of_selected hq hu hr, queueClose_of_selected hq hu⟩,
    fun q v hb => ⟨submissionDoorbell_of_bell v hb, completionDoorbell_of_bell v hb⟩,
    fun q e hf => ⟨commandFetch_of_memError ho hu e hr hf, fun hm hk => ?fetched⟩,
    fun q => interruptCoalesceTimeout_of_due ho, fun v => ⟨evqCtrlWrite_of_open ho hu v, evqHeadWrite_of_open ho hu v⟩,
    fun e rest => eventRingWrite_of_room ho hu⟩
  case fetched => exact ⟨_, commandFetch_of_known ho hu hr hf hm hk, afterFetch_sqHead _ _, afterFetch_last _ _⟩

end Sys2Proof.Machine

/-! Completion of the start of queue commands (R391–R399, R407, R416). A command that its queue may start runs what its opcode means,
so each start is a fact about that meaning alone. -/

namespace Sys2Proof.Machine

section
variable {a : AllotIx} {q : BitVec 16} {c : Cmd} {s : State}

/-- R390: a queue of an open allotment, at a Ready module that operates, may start the command c. -/
structure MayStart (s : State) (a : AllotIx) (q : BitVec 16) (c : Cmd) : Prop where
  enable : (s.allot a.val).enable = .open_
  ready : s.lodge.isReady = true
  startable : ((s.allot a.val).queue q.toNat).startable = some c
  operates : s.lodge.moduleState = 3

theorem MayStart.starting {op : Nat} {f : Cmd → State} {t : State} (h : MayStart s a q c) (hop : c.op = op) (hf : f c = t) :
    s.starting a.val q.toNat op f = .next t := by
  have goes : ¬ ((s.allot a.val).enable != .open_ || !s.lodge.isReady) = true := by rw [h.enable, h.ready]; decide
  have runs : ¬ (s.lodge.moduleState = 1 ∨ s.lodge.moduleState = 2) := by rw [h.operates]; decide
  rw [State.starting, if_neg goes, h.startable, ← hf]
  exact (if_neg (not_not_intro hop)).trans (if_neg runs)

variable (h : MayStart s a q c)
include h

theorem launch_of_fit (hop : c.op = 1) (h0 : c.a0 ≠ 0) (h1 : c.a1 % 64 = 0) (hl : bits c.a2 31 0 ≤ 65536)
    (hf : s.hbmFits a.val c.a1 (bits c.a2 31 0) = true) (hj : (s.allot a.val).job c.a0 = none)
    (hn : (s.allot a.val).launchJob = none) (hr : (s.allot a.val).redealDue = false) (hd : (s.allot a.val).dealing = false)
    (hg : s.launchable a.val = true) : exec (.launch a q) s = .next (s.beginLaunch a.val q.toNat c) :=
  h.starting hop (by simp [h0, h1, Nat.not_lt.mpr hl, hf, hj, hn, hr, hd, hg])

theorem wclose_of_open {m e : Nat} {w : Window} (hop : c.op = 4) (hw : s.windowOf (bits c.a0 31 0) = some (m, e, w))
    (ha : w.allotment = a) (hc : w.closing = false) : exec (.wclose a q) s =
      .next (((s.cmdTo a.val q.toNat c.id .running).modWindow m e (fun w => { w with
        closers := w.closers ++ [{ queue := q.toNat, cmd := c.id }] })).closeWindow m e) :=
  h.starting hop (by simp [hw, ha, hc])

theorem signal_of_counter (hop : c.op = 8) (h0 : c.a0 % 2 = 1) : exec (.signal a q) s =
    .next ((s.modAllot a.val (fun x => { x with
      counters := tset x.counters (bits c.a1 5 0) (tget 0 x.counters (bits c.a1 5 0) + BitVec.ofNat 64 c.a2) })).completeWake
        a.val q.toNat c.id stOK 0) :=
  h.starting hop (if_neg (by omega))

/-- R391: a SIGNAL of a sync counter reaches a presented pavilion of the allotment. -/
theorem signal_of_pavilion (hop : c.op = 8) (h0 : c.a0 % 2 = 0) (hp : bits c.a1 7 0 < 224)
    (ha : s.allotOfPav (bits c.a1 7 0) = some a.val) (hr : (s.pav (bits c.a1 7 0)).role ≠ .reserve) :
    let k := bits c.a1 11 8
    exec (.signal a q) s = .next ((s.modSeq (s.mappedTo a.val (bits c.a1 7 0)) (fun x => { x with
      ctrs := x.ctrs.set k (lget 0 x.ctrs k + BitVec.ofNat 32 c.a2) })).completeWake a.val q.toNat c.id stOK 0) :=
  h.starting hop (by simp [h0, Nat.not_le.mpr hp, ha, hr])

theorem queryProgress_of_index (hop : c.op = 0x0A) (hb : bit c.a0 32 = true) (hlo : 0x7000 ≤ bits c.a0 15 0)
    (hhi : bits c.a0 15 0 < 0x7100) (hv : s.mailView (s.portOf a.val).val (s.pfOf a.val).val (bits c.a0 15 0) 1 false = 0) :
    let i := bits c.a0 15 0
    let y := tget Progress.idle s.lodge.progress (i - 0x7000)
    exec (.queryProgress a q) s =
      .next (s.answerQueryProgress a.val q.toNat c i y.position.toNat y.total.toNat y.state.toNat) :=
  h.starting hop (by simp [hb, Nat.not_lt.mpr hlo, Nat.not_le.mpr hhi, hv])

theorem abortJob_of_launch {j : Job} (hop : c.op = 0x0B) (hj : (s.allot a.val).job c.a0 = some j) (hl : j.launch = true) :
    exec (.abortJob a q) s = .next (((s.modJob a.val c.a0 (fun k => { k with
      aborted := k.aborted || k.ended.isNone })).stopJob a.val stRefusedState 0).waitStart a.val q.toNat c) :=
  h.starting hop (by simp [hj, hl])

end

/-- Settles O44: the queue starts the command, which does what its opcode means. -/
theorem commandsComplete : Obligations.CommandsComplete := by
  intro a q c s he hr hs hm
  have h : MayStart s a q c := ⟨he, hr, hs, hm⟩
  exact ⟨launch_of_fit h, fun hop => h.starting hop rfl, fun m e w => wclose_of_open h, fun hop => h.starting hop rfl,
    fun hop => h.starting hop rfl, fun hop => h.starting hop rfl, signal_of_counter h, signal_of_pavilion h,
    queryProgress_of_index h, fun j => abortJob_of_launch h⟩

end Sys2Proof.Machine

/-! Completion of the other events of queue commands (R365, R391–R393, R399). -/

namespace Sys2Proof.Machine

section
variable {a : AllotIx} {q : BitVec 16} {s : State} {c : Cmd}

/-! ### COPY (R391, R393) -/

/-- R391: a running COPY from HBM whose ends are admitted, clear and not broken moves its bytes. That no tag is broken (hask) decides
the match on what the tags answer. -/
theorem tryCopy_of_clear {a q len : Nat} {c : Cmd} {dst : Nat × Place} (hd : HostRead) (hlen : bits c.a2 39 0 = len)
    (hdst : s.copyPlace a (bits c.a2 47 44) c.a1 len true = dst) (hst : c.state = .running) (h1 : 1 ≤ len)
    (hsp : bits c.a2 43 40 = 1) (hsrc : (s.copyPlace a 1 c.a0 len false).1 = 0) (hok : dst.1 = 0)
    (hfence : s.placeFenced a dst.2 = false) (hfree : s.copyBlocked a (.hbm c.a0) dst.2 len = false)
    (hask : ∀ p t, s.copyAsk a dst.2 len ≠ (p, .broken t)) (hsave : (s.saveCopy a (.hbm c.a0) dst.2 len).1 = .nothing) :
    s.tryCopy a q c hd =
      .next ((s.saveCopy a (.hbm c.a0) dst.2 len).2.runCopy a q c (.hbm c.a0) dst.2 len ([], [])) := by
  have src : (s.copyPlace a 1 c.a0 len false).2 = .hbm c.a0 := rfl
  have nofence : s.placeFenced a (.hbm c.a0) = false := rfl
  have started : (c.state == .fetched) = false := by rw [hst]; rfl
  have fits : ¬ (len = 0 ∨ (1 = 0 ∧ bits c.a2 47 44 = 0) ∨ (false && c.a3 != 0 && ((s.allot a).job c.a3).isSome) = true) := by
    simp; omega
  simp only [State.tryCopy, hlen, hdst, hsp, src, started]
  rw [if_neg fits, if_neg (not_not_intro hsrc), if_neg (not_not_intro hok)]
  simp only [nofence, hfence, hfree, Bool.or_self, hsave, if_true, reduceCtorEq, if_false]

theorem copy_of_clear {dst : Nat × Place} {len : Nat} (hlen : bits c.a2 39 0 = len)
    (hdst : s.copyPlace a.val (bits c.a2 47 44) c.a1 len true = dst) (he : (s.allot a.val).enable = .open_)
    (hr : s.lodge.isReady = true) (hq : ((s.allot a.val).queue q.toNat).cmds = [c]) (hop : c.op = 2) (hst : c.state = .running)
    (h1 : 1 ≤ len) (hsp : bits c.a2 43 40 = 1) (hsrc : (s.copyPlace a.val 1 c.a0 len false).1 = 0) (hok : dst.1 = 0)
    (hfence : s.placeFenced a.val dst.2 = false) (hfree : s.copyBlocked a.val (.hbm c.a0) dst.2 len = false)
    (hask : ∀ p t, s.copyAsk a.val dst.2 len ≠ (p, .broken t))
    (hsave : (s.saveCopy a.val (.hbm c.a0) dst.2 len).1 = .nothing) : exec (.copy a q .waiting) s =
      .next ((s.saveCopy a.val (.hbm c.a0) dst.2 len).2.runCopy a.val q.toNat c (.hbm c.a0) dst.2 len ([], [])) := by
  have src : (s.copyPlace a.val 1 c.a0 len false).2 = .hbm c.a0 := rfl
  have goes : ¬ ((s.allot a.val).enable == .closed || !s.lodge.isReady) = true := by rw [he, hr]; decide
  show execCopy a q .waiting s = _
  rw [execCopy, if_neg goes, hq, List.find?_cons_of_pos (by simp [hop, hst, hlen, hdst, hsp, src, hfree])]
  exact tryCopy_of_clear _ hlen hdst hst h1 hsp hsrc hok hfence hfree hask hsave

/-! ### LOAD_IMAGE (R365) -/

theorem loadImage_of_data {b : List Byte} {p : List Bool} (he : (s.allot a.val).enable = .open_) (hr : s.lodge.isReady = true)
    (hq : ((s.allot a.val).queue q.toNat).cmds = [c]) (hop : c.op = 9) (hst : c.state = .running) (hn : bits c.a2 5 0 ≠ 0)
    (h1 : c.a1 ≠ 0) (hfit : s.imageFits (bits c.a2 5 0) c.a1 = true) (him : (s.image (bits c.a2 5 0)).status = 0)
    (hh : s.holdupLow = false) (hb : b.length = c.a1) (hp : p.length = (b.length + 63) / 64) (hok : p.any id = false) :
    exec (.loadImage a q (.data b p)) s = .next (((s.storeImage (bits c.a2 5 0) b (some a)).modQueue a.val q.toNat (fun y => { y with
      cmds := y.cmds.map (fun k => if k.id = c.id then { k with state := .waiting, position := c.a1 } else k) })).charge
        a.val q.toNat c.a1) := by
  have goes : ¬ ((s.allot a.val).enable != .open_ || !s.lodge.isReady) = true := by rw [he, hr]; decide
  have whole : HostRead.whole (.data b p) c.a1 = .data b p := by
    rw [← hb, HostRead.whole, if_neg (lt_irrefl _), List.take_length, ← hp, List.take_length]
  have fits : ¬ (bits c.a2 5 0 = 0 ∨ c.a1 = 0 ∨ (!s.imageFits (bits c.a2 5 0) c.a1) = true) := by simp [hn, h1, hfit]
  have empty : ¬ (!((s.image (bits c.a2 5 0)).status == 0 ||
      ((s.image (bits c.a2 5 0)).writer == some a && !s.slotInUse (bits c.a2 5 0)))) = true := by simp [him]
  show execLoadImage a q (.data b p) s = _
  rw [execLoadImage, if_neg goes, hq, List.find?_cons_of_pos (by simp [hop, hst])]
  simp only [State.loadImage, whole]
  rw [if_neg fits, if_neg empty, hh, if_neg Bool.false_ne_true, hok, if_neg Bool.false_ne_true]

/-! ### Ends and timeouts (R392, R393, R399) -/

theorem jobEnd_of_settled {job : BitVec 64} {j : Job} {st : BitVec 8} (hj : (s.allot a.val).job job.toNat = some j)
    (he : j.ended = some st) (hr : j.record ≠ pendingRecord) (hl : j.launch = true → (s.holdersOf a.val).all s.settled = true) :
    exec (.jobEnd a job) s = .next (s.finishJob a.val j st.toNat) := by
  have settled : (!j.launch || (s.holdersOf a.val).all s.settled) = true := by
    cases launch : j.launch with
    | false => rfl
    | true => exact hl launch
  show execJobEnd a job s = _
  simp only [execJobEnd, hj, he]
  exact onlyIf_of_true _ _ (by rw [settled, bne_iff_ne.mpr hr]; rfl)

theorem waitEventTimeout_of_late (hq : ((s.allot a.val).queue q.toNat).cmds = [c]) (hop : c.op = 7) (hst : c.state = .waiting)
    (h3 : c.a3 ≠ 0) (hd : c.started + c.a3 ≤ s.ns) :
    exec (.waitEventTimeout a q) s = .next (s.completeWake a.val q.toNat c.id stTimeout 0) := by
  show execWaitEventTimeout a q s = _
  rw [execWaitEventTimeout, hq, List.find?_cons_of_pos (by simp [hop, hst, h3, hd])]

theorem pcieCompletionTimeout_of_loadImage (hq : ((s.allot a.val).queue q.toNat).cmds = [c]) (hop : c.op = 9)
    (hst : c.state = .running) : exec (.pcieCompletionTimeout a q) s =
      .next ((s.portCount (s.portOf a.val).val 7).endCopy a.val q.toNat c stTimeout 0) := by
  show execPcieCompletionTimeout a q s = _
  simp only [execPcieCompletionTimeout, hq]
  rw [List.find?_cons_of_pos (by simp [hop, hst])]

theorem progressIndexRelease_of_over {k : Fin 160} (ho : (tget Progress.idle s.lodge.progress (0x60 + k.val)).owner.isSome = true)
    (hst : (tget Progress.idle s.lodge.progress (0x60 + k.val)).state ≠ 1)
    (hd : 10 ^ 9 + (tget Progress.idle s.lodge.progress (0x60 + k.val)).ended ≤ s.ns) : exec (.progressIndexRelease k) s =
      .next (s.modLodge (fun l => { l with progress := tdel l.progress (0x60 + k.val) })) :=
  onlyIf_of_true _ _ (by rw [ho, bne_iff_ne.mpr hst, decide_eq_true hd]; rfl)

end

/-- Settles O45: each event finds the command or the job that it is about, and its condition holds. -/
theorem commandEventsComplete : Obligations.CommandEventsComplete := by
  intro a q s
  refine ⟨fun c => ?copy, fun c b p => loadImage_of_data, fun job j st => jobEnd_of_settled, fun c => waitEventTimeout_of_late,
    fun c => pcieCompletionTimeout_of_loadImage, fun k => progressIndexRelease_of_over⟩
  case copy =>
    intro len src dst he hr hq hop hst h1 hsp hsrc hok hfence hfree hask r hsave
    have source : src = s.copyPlace a.val 1 c.a0 len false := by rw [← hsp]
    have place : src.2 = .hbm c.a0 := by rw [source]; rfl
    rw [place] at hfree
    simp only [r, place] at hsave ⊢
    exact copy_of_clear rfl rfl he hr hq hop hst h1 hsp (source ▸ hsrc) hok hfence hfree hask hsave

end Sys2Proof.Machine

/-! Completion of the transport frames that pass their checks (R409, R410, R412, R413). -/

namespace Sys2Proof.Machine

/-- R246: the tags of the range that an incoming transfer writes start to fill. -/
def State.fillTags (t : State) (w : Window) (off len : Nat) : State :=
  match t.windowTags w off len with
  | some (p, ts) => t.modPav p (fun x => x.fillStart ts)
  | none => t

section
variable {n : SrvIx} {g : TFrame} {e : Nat} {w : Window} {s : State}

/-! ### WRITE frames (R410, R412, R413) -/

section
variable (ha : g.isA 1 = true) (hc : s.checkFrame n.val g.split 0 g.split.offset.toNat g.split.length.toNat
  (s.writeShape n.val g.split) (s.seenWrite n.val g.split) = .accept e w)
include ha hc

/-- R412: a WRITE frame of a transfer that has completed is answered again. -/
theorem transportWrite_of_last (hl : w.last.contains (g.split.peer, g.split.xid) = true) :
    exec (.transportWrite n g) s = .next (((s.srvCount n.val 0).modWindow n.val e (fun _ => w)).sendDone n.val e
      g.split.peer g.split.handle g.split.xid tsOK) := by
  show execTransportWrite n g s = _
  rw [execTransportWrite, onlyIf_of_true _ _ ha]
  simp only [hc, hl, if_true]

theorem transportWrite_of_known {x : Incoming} (hk : (s.srv n.val).incoming.any (fun j => j.is g.split) = true)
    (hl : w.last.contains (g.split.peer, g.split.xid) = false) :
    let t := (s.srvCount n.val 0).modWindow n.val e (fun _ => w)
    (t.srv n.val).incoming.find? (fun j => j.is g.split) = some x → x.tagWait = false → t.windowWaits w = false →
      exec (.transportWrite n g) s = .next (t.landIncoming n.val e w x g.split) := by
  intro t hx hw hq
  show execTransportWrite n g s = _
  rw [execTransportWrite, onlyIf_of_true _ _ ha]
  simp only [hc, hl, hk, if_true, Bool.false_eq_true, if_false]
  simp only [t] at hx hq
  simp [hx, hw, hq, t]

/-- R410, R412: the first frame of a transfer whose range it may write starts the transfer and lands. -/
theorem transportWrite_of_new (hk : (s.srv n.val).incoming.any (fun j => j.is g.split) = false)
    (hl : w.last.contains (g.split.peer, g.split.xid) = false) :
    let t := (s.srvCount n.val 0).modWindow n.val e (fun _ => w)
    let f := g.split
    let x := Incoming.mk f.peer f.xid f.handle f.offset f.length.toNat 0 0 0 t.ns false []
    let u := (t.fillTags w f.offset.toNat f.length.toNat).modSrv n.val (fun y => { y with incoming := y.incoming ++ [x] })
    t.windowBroken w f.offset.toNat f.length.toNat = none → t.incomingBlocked w f.offset.toNat f.length.toNat = false →
      (u.srv n.val).incoming.find? (fun j => j.is f) = some x → u.windowWaits w = false →
      exec (.transportWrite n g) s = .next (u.landIncoming n.val e w x f) := by
  dsimp only
  intro hb hf hx hq
  show execTransportWrite n g s = _
  rw [execTransportWrite, onlyIf_of_true _ _ ha]
  simp only [hc, hl, hk, hb, hf, Bool.false_eq_true, if_false]
  unfold State.fillTags at hx hq ⊢
  cases tags : ((s.srvCount n.val 0).modWindow n.val e (fun _ => w)).windowTags w g.split.offset.toNat g.split.length.toNat with
  | none =>
    simp only [tags] at hx hq
    simp only [hx, hq]
    rfl
  | some pt =>
    simp only [tags] at hx hq
    simp only [State.modPav_ns, hx, hq]
    rfl

end

/-! ### READ and BIND frames (R410, R412) -/

/-- R412: a READ starts its outgoing transfer, once. -/
theorem transportRead_of_accepted (ha : g.isA 2 = true) (hc : s.checkFrame n.val g.split 1 g.split.offset.toNat
      g.split.length.toNat (g.split.data.isEmpty && g.split.bytes == 0) ((s.srv n.val).outgoing.any (fun o =>
        !o.push && o.peer == g.split.peer && o.xid == g.split.xid && o.handle == g.split.handle)) = .accept e w) :
    let t := (s.srvCount n.val 0).modWindow n.val e (fun _ => w)
    exec (.transportRead n g) s = .next (if (s.srv n.val).outgoing.any (fun o =>
        !o.push && o.peer == g.split.peer && o.xid == g.split.xid && o.handle == g.split.handle) then t
      else t.addOut n.val (Outgoing.mk false g.split.peer g.split.xid (BitVec.ofNat 12 e) g.split.handle g.split.offset
        g.split.length.toNat 0 t.ns none false false)) := by
  show execTransportRead n g s = _
  rw [execTransportRead, onlyIf_of_true _ _ ha]
  simp only [hc]

theorem bind_of_accepted (ha : g.isA 7 = true)
    (hc : s.checkFrame n.val g.split 1 0 64 (g.split.data.length == 4 && g.split.bytes == 4) true = .accept e w) :
    exec (.bind n g) s = .next (((s.srvCount n.val 0).modWindow n.val e (fun _ => { w with
      binding := some (g.split.peer, BitVec.ofNat 32 (leNat g.split.data)) })).sendDone n.val e g.split.peer g.split.handle
        g.split.xid tsOK) := by
  show execBind n g s = _
  rw [execBind, onlyIf_of_true _ _ ha]
  simp only [hc]

/-! ### Answers (R412) -/

section
variable {o : Outgoing} (hc : s.answerFrame n.val g.split = .accept e w)
include hc

/-- R412: a DONE ends the transfer that answered a READ. -/
theorem done_of_rdata (ho : ((s.srvCount n.val 0).modWindow n.val e (fun _ => w)).outOf n.val g.split = some o)
    (ha : g.isA 5 = true) (hs : g.split.status = 0) (hp : o.push = false) :
    exec (.done n g) s = .next ((((s.srvCount n.val 0).modWindow n.val e (fun _ => w)).modSrv n.val (fun x =>
      { x with outgoing := x.outgoing.filter (fun y => !o.same y) })).pumpOut n.val) := by
  show execDone n g s = _
  rw [execDone, onlyIf_of_true _ _ ha]
  simp only [hc, ho, hs, hp, ne_eq, not_true_eq_false, if_false, Bool.false_eq_true]

/-- R412: a NACK BUSY delays its transfer, from the first of them on. -/
theorem transportNack_of_busy
    (ho : (((s.srvCount n.val 0).srvCount n.val 9).modWindow n.val e (fun _ => w)).outOf n.val g.split = some o)
    (ha : g.isA 6 = true) (hs : g.split.status = 4) :
    let t := ((s.srvCount n.val 0).srvCount n.val 9).modWindow n.val e (fun _ => w)
    exec (.transportNack n g) s = .next (t.modSrv n.val (fun x => { x with
      outgoing := x.outgoing.map (fun y => if o.same y then
        { y with busySince := some (y.busySince.getD t.ns), busy := true, since := t.ns } else y) })) := by
  show execTransportNack n g s = _
  rw [execTransportNack, onlyIf_of_true _ _ ha]
  simp only [hc, ho, hs]
  rfl

end
end

/-- Settles O46: an accepted frame goes the way that its type and its transfer decide. -/
theorem transportCompletes : Obligations.TransportCompletes := by
  intro n g e w s
  exact ⟨fun ha hc => ⟨transportWrite_of_last ha hc, fun x => transportWrite_of_known ha hc,
      fun hk hl => transportWrite_of_new ha hc hk hl⟩,
    transportRead_of_accepted, bind_of_accepted, fun hc o => ⟨done_of_rdata hc, transportNack_of_busy hc⟩⟩

end Sys2Proof.Machine

/-! Completion of the timers and links of the server ports (R403, R411, R412, R415, R416, R507, R508). -/

namespace Sys2Proof.Machine

section
variable {n : SrvIx} {s : State}

/-! ### Timers of transfers (R411, R412, R416) -/

/-- R411: missing frames are asked for in the first four rounds; after them the transfer is answered TIMEOUT. -/
theorem transferTimer_of_due {peer : BitVec 48} {xid : BitVec 16} {handle : BitVec 32} {i : Incoming}
    (hi : (s.srv n.val).incoming.find? (fun i => i.peer == peer && i.xid == xid && i.handle == handle) = some i)
    (hw : i.tagWait = false) (hd : i.since + s.landingNs ≤ s.ns) : exec (.transferTimer n peer xid handle) s = .next
      (if i.round < 4 then (s.modSrv n.val (fun x => { x with incoming := x.incoming.map (fun j =>
          if j.peer = peer ∧ j.xid = xid ∧ j.handle = handle then { j with round := i.round + 1, since := s.ns } else j) })).nackMissing
            n.val (bits handle.toNat 11 0) i (i.round + 1)
       else ((s.modSrv n.val (fun x => { x with incoming := x.incoming.filter (fun j =>
          !(j.peer == peer && j.xid == xid && j.handle == handle)) })).srvCount n.val 12).sendDone n.val
            (bits handle.toNat 11 0) peer handle xid tsTimeout) := by
  have due : ¬ (i.tagWait = true ∨ s.ns < i.since + s.landingNs) := by simp [hw, hd]
  show execTransferTimer n peer xid handle s = _
  simp only [execTransferTimer, hi]
  rw [if_neg due]
  exact (apply_ite Host.Outcome.next _ _ _).symm

/-- R412: an unanswered transfer is sent again, and fails after its fourth round. -/
theorem outgoingResend_of_due {xid : BitVec 16} {o : Outgoing} (ho : (s.srv n.val).outgoing.find? (fun o => o.xid == xid &&
      !o.wait && !o.busy && decide (o.since + 2 * s.landingNs ≤ s.ns)) = some o) : exec (.outgoingResend n xid) s = .next
      (if 4 ≤ o.rounds then (s.failOut n.val o tsTimeout).pumpOut n.val
       else (s.modSrv n.val (fun x => { x with outgoing := x.outgoing.map (fun y =>
          if o.same y then { y with rounds := y.rounds + 1, since := s.ns } else y) })).sendParts
            n.val o true (List.range (framesOf o.length))) := by
  show execOutgoingResend n xid s = _
  simp only [execOutgoingResend, ho]
  exact (apply_ite Host.Outcome.next _ _ _).symm

/-- R412: a BUSY transfer fails when its time is over, and is sent again before. -/
theorem busyRetry_of_busy {xid : BitVec 16} {o : Outgoing} {expired : Bool} (ho : s.busyOut n.val xid expired = some o) :
    exec (.busyRetry n xid expired) s = .next (if expired then (s.failOut n.val o tsBusy).pumpOut n.val
      else (s.modSrv n.val (fun x => { x with outgoing := x.outgoing.map (fun y =>
        if o.same y then { y with since := s.ns, busy := false } else y) })).sendParts n.val o false
          (List.range (framesOf o.length))) := by
  show execBusyRetry n xid expired s = _
  simp only [execBusyRetry, ho]
  exact (apply_ite Host.Outcome.next _ _ _).symm

theorem windowClosed_of_landed {entry : BitVec 12} {w : Window} (hw : tget? (s.srv n.val).windows entry.toNat = some w)
    (hc : w.closing = true) (hl : (s.srv n.val).incoming.all (fun i =>
      bits i.handle.toNat 11 0 != entry.toNat || i.waiting.isEmpty) = true) :
    exec (.windowClosed n entry) s = .next ((s.windowEnd n.val entry.toNat).settleSrv n.val) := by
  show execWindowClosed n entry s = _
  simp only [execWindowClosed, hw]
  exact onlyIf_of_true _ _ (by rw [hc, hl]; rfl)

/-! ### Links (R403, R415, R507, R508) -/

theorem footbridgeRetrain_of_due {k : Fin 9} {errors bits : Nat} (lanes : List (LinkId × Nat))
    (hd : 1000000000 + (s.link (.span k)).winStart ≤ s.ns) (he : bits < 10 ^ 12 * errors) :
    let t := (s.failLanes k.val lanes).modLink (.span k) (fun x => { x with winStart := s.ns, trained := true })
    exec (.footbridgeRetrain k errors bits lanes) s = .next (if lanes.isEmpty then t else t.flashWrite .repair 0 1) :=
  onlyIf_of_true _ _ (decide_eq_true ⟨hd, he⟩)

/-- R403: a port that has trained is up, in mode 1 only with a Gelbuson module as its peer. -/
theorem serverLinkTraining_of_ok {g : Bool} (ht : s.lodge.portsTrain = true) (hon : (s.seg (n.val / 2)).dom.on = true)
    (hg : (s.srv n.val).mode = 0 ∨ g = true) : exec (.serverLinkTraining n true g) s =
      .next (s.modSrv n.val (fun x => { x with linkUp := true, trained := true, retraining := false })) := by
  have trains : (true && ((s.srv n.val).mode == 0 || g)) = true := by simpa using hg
  have on : ¬ (!s.lodge.portsTrain || !(s.seg (n.val / 2)).dom.on) = true := by simp [ht, hon]
  show execServerLinkTraining n true g s = _
  exact (if_neg on).trans (if_pos trains)

end

/-- Settles O47: each timer is due, and each link event meets its condition. -/
theorem transferTimersComplete : Obligations.TransferTimersComplete := by
  intro n s
  refine ⟨fun peer xid handle i => transferTimer_of_due, fun xid o => outgoingResend_of_due,
    fun xid o => ⟨busyRetry_of_busy, busyRetry_of_busy⟩, fun entry w => windowClosed_of_landed,
    fun ber high => onlyIf_of_true _ _ (decide_eq_true high),
    fun k errors bits hd he => ⟨footbridgeRetrain_of_due [] hd he, fun lanes some_lane => ?repaired⟩, fun g => serverLinkTraining_of_ok⟩
  case repaired =>
    exact (footbridgeRetrain_of_due lanes hd he).trans (congrArg _ (if_neg (by simpa using some_lane)))

end Sys2Proof.Machine


/-! Completion of drills and of the passage of error records (R441, R442, R446–R448). -/

namespace Sys2Proof.Machine

section

variable {s : State}

theorem drill_of_pass {u : DrillUnit} (again : Bool) (hd : s.drillable u = true) :
    exec (.drill u true again) s = .next (s.drilled u true 1) := by
  show execDrill u true again s = _
  simp [execDrill, hd]

theorem drill_of_passedAgain {u : DrillUnit} (hd : s.drillable u = true) :
    exec (.drill u false true) s = .next ((s.record (s.drillRec u 1 false)).drilled u true 2) := by
  show execDrill u false true s = _
  simp [execDrill, hd]

/-- A pavilion at a boundary of its CADENCE and not running is at a boundary in either reading of R448. -/
theorem forcedDrill_of_due {p : PavIx} {a : Nat} (hd : s.lodge.drill.isSome = true) (ha : s.allotOfPav p.val = some a)
    (hf : (s.allot a).frozen = none) (hb : (s.pav p.val).seq.cadBoundary = true) (hr : (s.pav p.val).seq.running = false)
    (ht : (s.pav p.val).lastDrill + 10 ^ 9 * (2 * s.lodge.drillInterval.toNat) ≤ s.ns) :
    exec (.forcedDrill p) s = .next (s.modPav p.val (fun v => { v with drillDue := true })) := by
  apply onlyIf_of_true
  simp only [hd, ha, hf, hb, hr, decide_eq_true ht, Bool.not_false, ite_self, Option.isSome_none, Bool.and_self]

theorem coalescerSend_plot {p : PlotIx} {r : ErrRec} (hr : (s.plot p.val).coal.ready s.ns = some r) :
    exec (.coalescerSend (.plot p)) s = .next ((s.modPlot p.val (fun x => { x with
      coal := { (s.plot p.val).coal with held := (s.plot p.val).coal.held.erase r } })).modLodge (fun l => { l with
        arriving := l.arriving ++ [r] })) := by
  show execCoalescerSend (.plot p) s = _
  simp only [execCoalescerSend, hr]

theorem coalescerSend_segment {g : SegIx} {r : ErrRec} (hr : (s.seg g.val).coal.ready s.ns = some r) :
    exec (.coalescerSend (.segment g)) s = .next ((s.modSeg g.val (fun x => { x with
      coal := { (s.seg g.val).coal with held := (s.seg g.val).coal.held.erase r } })).modLodge (fun l => { l with
        arriving := l.arriving ++ [r] })) := by
  show execCoalescerSend (.segment g) s = _
  simp only [execCoalescerSend, hr]

theorem recordArrival_of_arriving {r : ErrRec} {rest : List ErrRec} (hr : s.lodge.arriving = r :: rest) :
    exec .recordArrival s = .next ((s.modLodge (fun l => { l with arriving := rest })).logRecord r) := by
  show execRecordArrival s = _
  simp only [execRecordArrival, hr]

end

/-- Settles O48: a drill by its result, a record by the coalescer that holds it. -/
theorem drillsComplete : Obligations.DrillsComplete :=
  ⟨fun _ again _ hd => ⟨drill_of_pass again hd, drill_of_passedAgain hd⟩,
   fun _ _ _ hd ha hf hb hr ht => forcedDrill_of_due hd ha hf hb hr ht,
   fun _ _ _ _ => ⟨coalescerSend_plot, coalescerSend_segment, fun _ => recordArrival_of_arriving⟩⟩

end Sys2Proof.Machine


/-! Completion of replay, shuffles, doubling and context switches (R449–R466). -/

namespace Sys2Proof.Machine

/-! ### What keeps the remap table of a plot -/

/-- What one step keeps, a run of steps keeps. -/
theorem State.each_same {α β : Type} (g : State → β) {f : State → α → State} (hf : ∀ t a, g (f t a) = g t) (s : State)
    (l : List α) : g (s.each l f) = g s := by
  show g (l.foldl f s) = g s
  induction l generalizing s with
  | nil => rfl
  | cons a l ih => rw [List.foldl_cons, ih, hf]

section

variable (s : State) (p k : Nat)

theorem plot_remap_record (r : ErrRec) : ((s.record r).plot k).remap = (s.plot k).remap := by
  simp only [State.record]
  split
  case h_1 n _ =>
    by_cases hk : k = n.val
    · rw [hk, State.plot_modPlot_same]
    · rw [State.plot_modPlot_other _ _ _ _ hk]
  case h_2 => rw [State.plot_modSeg]
  case h_3 => rw [plot_logRecord]

theorem plot_remap_gardenSeen (row : Nat) (seen : Seen) (merge : Bool) :
    ((s.gardenSeen p row seen merge).plot k).remap = (s.plot k).remap := by
  cases seen with
  | clean | poisoned => rfl
  | corrected | mended => simp only [State.gardenSeen, State.plot_modPav]
  | uncorrectable => simp only [State.gardenSeen, plot_remap_record, State.plot_modPav]

theorem plot_remap_gardenRead (row : Nat) : ((s.gardenRead p row).2.plot k).remap = (s.plot k).remap := by
  simp only [State.gardenRead, State.gardenTake, plot_remap_gardenSeen]
  split <;> rfl

theorem plot_remap_gardenRows (row n : Nat) : ((s.rowsRead p false row n).2.plot k).remap = (s.plot k).remap := by
  induction n generalizing s row with
  | zero => rfl
  | succ n ih => exact (ih _ _).trans (plot_remap_gardenRead s p k row)

theorem plot_remap_gardenGet (a len : Nat) : ((s.localGet p false a len).2.plot k).remap = (s.plot k).remap :=
  plot_remap_gardenRows s p k _ _

theorem plot_remap_gardenLoad (a : Nat) (d : List Byte) : ((s.gardenLoad p a d).plot k).remap = (s.plot k).remap :=
  State.each_same (fun t => (t.plot k).remap) (fun _ _ => by simp only [State.plot_modPav]) s _

theorem plot_remap_dealCell (n : Nat) : ((s.dealCell p n).plot k).remap = (s.plot k).remap := by
  simp only [State.dealCell]
  split
  · exact State.each_same (fun t => (t.plot k).remap) (fun t _ => State.each_same (fun t => (t.plot k).remap)
      (fun t _ => plot_remap_gardenLoad t p k _ _) t _) s _
  · rfl

theorem plot_remap_recheckCell (n : Nat) : ((s.recheckCell p n).plot k).remap = (s.plot k).remap := by
  simp only [State.recheckCell]
  split
  · refine State.each_same (fun t => (t.plot k).remap) (fun t _ => State.each_same (fun t => (t.plot k).remap)
      (fun t e => ?_) t _) s _
    split
    · exact plot_remap_gardenGet t p k _ _
    · exact (plot_remap_gardenLoad _ p k _ _).trans (plot_remap_gardenGet t p k _ _)
  · rfl

/-- R455: the entry of the dummy replaces the plot's entry for the same position. -/
theorem plot_remap_useDummy (n dummy : Nat) (coreOnly : Bool) (entry : Remap) :
    ((s.useDummy p n dummy coreOnly entry).plot (plotOf p)).remap =
      (s.plot (plotOf p)).remap.filter (fun r => !(r.dx == entry.dx && r.dy == entry.dy)) ++ [entry] := by
  cases coreOnly <;>
    simp [State.useDummy, plot_remap_record, plot_remap_recheckCell, plot_remap_dealCell]

end

/-! ### The commands -/

section

variable {s : State} {a : AllotIx} {p : PavIx}

theorem replay_of_drained {f : Frozen} (hf : (s.allot a.val).frozen = some f) (hs : f.shuffle = false)
    (hc : (s.allot a.val).closeDue = false) (hl : (s.allot a.val).launchJob.isSome = true) (hd : s.drained a.val f = true) :
    exec (.replay a) s = .next (s.replay a.val f) := by
  show execReplay a s = _
  simp only [execReplay, hf]
  exact onlyIf_of_true _ _ (by simp only [hs, hc, hl, hd, Bool.not_false, Bool.and_self])

theorem freezeAbandon_of_due {f : Frozen} (hf : (s.allot a.val).frozen = some f) (ha : f.abandoned = false)
    (ht : 1000000 + f.since ≤ s.ns) : ∃ t : State, exec (.freezeAbandon a) s = .next (t.modAllot a.val (fun x =>
      { x with frozen := some { f with abandoned := true } })) := by
  have due : ¬ (f.abandoned || decide (s.ns < 1000000 + f.since)) = true := by simpa [ha] using ht
  show ∃ t : State, execFreezeAbandon a s = _
  simp only [execFreezeAbandon, hf, if_neg due]
  exact ⟨_, rfl⟩

theorem pavilionShuffle_of_works (hp : s.allotOfPav p.val = some a.val) (hw : s.works a.val p.val = true) :
    exec (.pavilionShuffle p) s = .next (s.pavShuffle a.val p.val) := by
  show execPavilionShuffle p s = _
  simp only [execPavilionShuffle, hp]
  exact onlyIf_of_true _ _ hw

theorem doubling_of_works (hp : s.allotOfPav p.val = some a.val) (hw : s.works a.val p.val = true)
    (hn : (s.alternateFor a.val ((s.allot a.val).targetOf p.val)).isNone = true) (he : (s.pav p.val).partners = []) :
    let u := (s.freezeFor a.val).changePav p.val (fun y => { y with enable := .failed })
    exec (.doubling p) s = .next ((u.double a.val ((s.allot a.val).targetOf p.val) p.val (some p.val)
      (u.plot (plotOf p.val)).offCause.isNone true).shuffleEnd a.val 1) := by
  have alternate : s.alternateFor a.val ((s.allot a.val).targetOf p.val) = none := Option.isNone_iff_eq_none.mp hn
  show execDoubling p s = _
  simp only [execDoubling, hp]
  exact if_neg (by simp [alternate, hw, he])

theorem contextSwitch_of_quiet (hp : s.allotOfPav p.val = some a.val) (he : (s.pav p.val).partners ≠ [])
    (hq : (s.pav p.val).quiet = true) (hf : (s.allot a.val).frozen = none)
    (hr : ∀ c ∈ p.val :: (s.pav p.val).partners, c ≠ (s.pav p.val).context → 8000000 + (s.pav c).outAt ≤ s.ns) :
    let ring := p.val :: (s.pav p.val).partners
    let cur := (s.pav p.val).context
    let next := lget p.val ring ((ring.idxOf cur + 1) % ring.length)
    let t := (s.swapContext p.val next).modPav cur (fun y => { y with outAt := s.ns })
    exec (.contextSwitch p) s = .next (t.shiftTimers a.val p.val next (t.ns - (t.pav next).outAt)) := by
  have rested : (p.val :: (s.pav p.val).partners).any
      (fun c => decide (c ≠ (s.pav p.val).context ∧ s.ns < 8000000 + (s.pav c).outAt)) = false :=
    List.any_eq_false.mpr fun c hc => by simpa using hr c hc
  have partners : (s.pav p.val).partners.isEmpty = false := by simpa using he
  show execContextSwitch p s = _
  simp only [execContextSwitch, hp]
  exact if_neg (by rw [partners, hq, hf, rested]; decide)

theorem standInFailure_of_partners (hp : s.allotOfPav p.val = some a.val) (he : (s.pav p.val).partners ≠ []) :
    exec (.standInFailure p) s = .next (s.pavShuffle a.val p.val) := by
  show execStandInFailure p s = _
  simp only [execStandInFailure, hp]
  exact onlyIf_of_true _ _ (by simpa using he)

theorem doublingEnd_of_allotted (hp : s.allotOfPav p.val = some a.val) :
    exec (.doublingEnd p) s = .next (s.endDoubling a.val p.val) := by
  show execDoublingEnd p s = _
  simp only [execDoublingEnd, hp]

theorem plotShuffle_of_owned {pl : PlotIx} (ho : s.ownerOf pl.val = some a.val) :
    let why := (s.plot pl.val).offCause
    exec (.plotShuffle pl) s = .next (s.plotShuffle a.val pl.val why.isNone
      ((why == some .lost && !((s.plot pl.val).h.on && !(s.plot pl.val).pll)) || why.isNone)) := by
  show execPlotShuffle pl s = _
  simp only [execPlotShuffle, ho]

/-! ### A dead cell (R455, R456, R458) -/

/-- A cell at its own position, which no entry remaps, whose router is not lost with it. -/
structure State.PlainCell (s : State) (p : PavIx) (cell : Fin 1088) (coreOnly : Bool) : Prop where
  position : isSpare (p.val % 4) cell.val = false
  unmapped : (s.plot (plotOf p.val)).remapOf (physLocal (p.val % 4) cell.val).1 (physLocal (p.val % 4) cell.val).2 = none
  unused : (s.plot (plotOf p.val)).remap.find? (fun r => r.ux.val == (physLocal (p.val % 4) cell.val).1 &&
    r.uy.val == (physLocal (p.val % 4) cell.val).2) = none
  routed : coreOnly = true ∨ (s.plot (plotOf p.val)).routerLost (p.val % 4) (physLocal (p.val % 4) cell.val) = false

variable {cell dummy : Fin 1088} {coreOnly : Bool} (hc : s.PlainCell p cell coreOnly)
include hc

theorem State.PlainCell.notLost :
    (!coreOnly && (s.plot (plotOf p.val)).routerLost (p.val % 4) (physLocal (p.val % 4) cell.val)) = false := by
  rcases hc.routed with h | h <;> simp [h]

/-- With no spare cell, or no room in the remap table, the death of the cell is its pavilion's. -/
theorem cellShuffle_asPav (hn : (s.plot (plotOf p.val)).remap.length = 64 ∨
      ((s.cellDead p.val cell.val (!coreOnly)).spareCells p.val).isEmpty = true) :
    exec (.cellShuffle p cell coreOnly dummy) s = (match (s.cellDead p.val cell.val (!coreOnly)).allotOfPav p.val with
      | some a => .next ((s.cellDead p.val cell.val (!coreOnly)).pavShuffle a p.val)
      | none => .next ((s.cellDead p.val cell.val (!coreOnly)).failPav p.val)) := by
  show execCellShuffle p cell coreOnly dummy s = _
  simp only [execCellShuffle, hc.notLost, hc.position, hc.unmapped, Bool.false_and, Option.isSome_none, Bool.and_false,
    Bool.or_self, Bool.false_eq_true, if_false, or_false]
  exact (if_pos hn).trans rfl

/-- With a spare cell that the pavilion may pick, that cell takes the dead cell's position. -/
theorem cellShuffle_dummy {n : Nat}
    (hn : cellNumber (p.val % 4) (physLocal (p.val % 4) cell.val).1 (physLocal (p.val % 4) cell.val).2 = some n)
    (hr : (s.plot (plotOf p.val)).remap.length ≠ 64)
    (he : ((s.cellDead p.val cell.val (!coreOnly)).spareCells p.val).isEmpty = false)
    (hd : ((s.cellDead p.val cell.val (!coreOnly)).dummyPicks p.val).contains dummy.val = true) :
    let dl := physLocal (p.val % 4) cell.val
    let ul := physLocal (p.val % 4) dummy.val
    let entry : Remap :=
      { rdead := !coreOnly, dx := Fin.ofNat 64 dl.1, dy := Fin.ofNat 68 dl.2, ux := Fin.ofNat 64 ul.1, uy := Fin.ofNat 68 ul.2 }
    let t := (s.cellDead p.val cell.val (!coreOnly)).clearKeeps p.val dummy.val
    exec (.cellShuffle p cell coreOnly dummy) s = (match (s.cellDead p.val cell.val (!coreOnly)).allotOfPav p.val with
      | some a => .next (((t.freezeFor a).useDummy p.val n dummy.val coreOnly entry).shuffleEnd a 0)
      | none => .next (t.useDummy p.val n dummy.val coreOnly entry)) := by
  show execCellShuffle p cell coreOnly dummy s = _
  simp only [execCellShuffle, hc.notLost, hc.position, hc.unmapped, hc.unused, hn, hr, he, hd, Bool.false_and, Option.isSome_none,
    Bool.and_false, Bool.or_self, Bool.false_eq_true, if_false, or_false, Bool.not_true]
  cases (s.cellDead p.val cell.val (!coreOnly)).allotOfPav p.val <;> rfl

end

/-- Settles O49: each command by its allotment's state; a dead cell by whether its pavilion has a cell to put in its place. -/
theorem recoveryCompletes : Obligations.RecoveryCompletes := by
  intro a p pl s
  refine ⟨fun f hf => ⟨replay_of_drained hf, freezeAbandon_of_due hf⟩, fun hp => ⟨fun hw =>
    ⟨pavilionShuffle_of_works hp hw, doubling_of_works hp hw⟩, fun he => ⟨contextSwitch_of_quiet hp he,
      standInFailure_of_partners hp he⟩, doublingEnd_of_allotted hp⟩, plotShuffle_of_owned, fun cell dummy coreOnly n => ?cell⟩
  case cell =>
    intro q dl ul u x position unmapped unused routed hn
    have plain : s.PlainCell p cell coreOnly := ⟨position, unmapped, unused, routed⟩
    refine ⟨fun asPav => ⟨fun owned => ?_, fun free => ?_⟩, fun room spare pick =>
      ⟨fun owned => ?_, fun free => ?_, fun v => plot_remap_useDummy v p.val n dummy.val coreOnly _⟩⟩
    · exact (cellShuffle_asPav plain asPav).trans (by rw [owned])
    · exact (cellShuffle_asPav plain asPav).trans (by rw [free])
    · exact (cellShuffle_dummy plain hn room spare pick).trans (by rw [owned])
    · exact (cellShuffle_dummy plain hn room spare pick).trans (by rw [free])

end Sys2Proof.Machine


/-! Completion of the power, clock, ageing and flash commands (R472–R480, R489–R495). -/

namespace Sys2Proof.Machine

section

variable {s : State} {g : Fin 17} {p : PlotIx}

theorem powerControlTick_setsDuty (rs : List RailReading) (s : State) : ∃ t : State, ∃ k : Nat,
    exec (.powerControlTick rs) s = .next (t.each (List.range 56) (fun s p =>
      if (s.group (groupOf (3 * p))).halved then s else s.modPlot p (fun x => { x with capDuty := k }.settleDuty))) :=
  ⟨_, _, rfl⟩

theorem alertLow_of_clear (ha : (s.group g.val).alert = false) (hh : (s.group g.val).halved = false) :
    exec (.alertLow g) s = .next ((s.modGroup g.val (fun x => { x with alert := true, halved := true })).each (plotsOfGroup g.val)
      (fun s p => s.modPlot p (fun x => { x with capDuty := max 1 (min x.capDuty x.heatDuty / 2) }.settleDuty))) := by
  show execAlertLow g s = _
  simp only [execAlertLow, ha, hh, Bool.false_eq_true, if_false]

/-- A plot's clock comes back: H is on, no relock has been tried since the loss, and no allotment waits for the plot. -/
theorem pllRelock_of_lost (ok : List (Fin 4)) (hon : (s.plot p.val).h.on = true) (hp : (s.plot p.val).pll = false)
    (ht : (s.plot p.val).relockTried = false) (hc : (s.plot p.val).offCause = some .lost) (ho : s.ownerOf p.val = none) :
    ∃ t : State, exec (.pllRelock p ok) s = .next (t.modPlot p.val (fun x => { x with enable := .open_ })) := by
  have due : ¬ (!true || false || false || (some OffCause.lost != some .lost) || !true) = true := by decide
  show ∃ t : State, execPllRelock p ok s = _
  simp only [execPllRelock, hon, hp, ht, hc, ho, if_neg due]
  exact ⟨_, rfl⟩

theorem holdUpCharged_reading (mJ : BitVec 32) (s : State) :
    exec (.holdUpCharged mJ false) s = .next (s.modLodge (fun l => { l with holdup := mJ })) := by
  show execHoldUpCharged mJ false s = _
  simp only [execHoldUpCharged, Bool.false_eq_true, false_and, if_false]

/-! ### The sectors of a flash write (R364, R493) -/

variable {j : FlashJob} {rest : List FlashJob}

theorem flashSectorWrite_of_job (hj : s.lodge.flashJobs = j :: rest) (hh : s.holdupLow = false) (hr : j.region ≠ .images) :
    exec .flashSectorWrite s = .next (s.sectorDone j rest) := by
  show execFlashSectorWrite s = _
  simp only [execFlashSectorWrite, hj, hh, hr, Bool.false_eq_true, if_false]

theorem flashJobs_sectorDone_left (hl : 1 < j.left) :
    (s.sectorDone j rest).lodge.flashJobs = { j with left := j.left - 1 } :: rest := by
  simp only [State.sectorDone, if_pos hl, State.lodge_modLodge]

theorem flashJobs_sectorDone_last (hl : j.left ≤ 1) :
    (s.sectorDone j rest).lodge.flashJobs = if j.onB then rest else { j with onB := true, left := j.sectors } :: rest := by
  simp only [State.sectorDone, if_neg (Nat.not_lt.mpr hl), State.lodge_modLodge]

end

/-- Settles O50: each event meets its command's condition, and a flash write moves by its sectors left and its device. -/
theorem powerCompletes : Obligations.PowerCompletes := by
  intro g d p s
  refine ⟨fun rs => powerControlTick_setsDuty rs s, alertLow_of_clear, fun halved => onlyIf_of_true _ _ halved, fun _ _ => rfl,
    fun on => onlyIf_of_true _ _ on, fun good => onlyIf_of_true _ _ good, fun locked => onlyIf_of_true _ _ locked,
    fun ok => pllRelock_of_lost ok, fun m => rfl, fun j rest hj hh hr => ⟨flashSectorWrite_of_job hj hh hr,
      flashJobs_sectorDone_left, fun last onA => ?toB, fun last onB => ?done⟩, fun mJ => holdUpCharged_reading mJ s⟩
  case toB => rw [flashJobs_sectorDone_last last, onA, if_neg Bool.false_ne_true]
  case done => rw [flashJobs_sectorDone_last last, onB, if_pos rfl]

end Sys2Proof.Machine


/-! Completion of the heat commands (R481–R488). -/

namespace Sys2Proof.Machine

section

variable {s : State} {p : PlotIx} {temp : BitVec 32}

theorem derate_of_gap (hd : (s.plot p.val).derateDue = true) (hr : ∀ i ∈ pavsOf p.val, (s.pav i).seq.running = false) :
    ∃ u : State, exec (.derate p) s = .next ((u.record (u.powerRec (.plot p .E) 1 0)).avsNext (3 * p.val)) ∧
      u = s.modPlot p.val (fun x => { x with
        derated := true, derateDue := false, powerState := if x.powerState = 0 then 1 else x.powerState }) := by
  have gap : ∀ late : Bool, (pavsOf p.val).all (fun i => !(s.pav i).seq.running || (late && (s.pav i).seq.cadBoundary)) = true :=
    fun late => List.all_eq_true.mpr fun i hi => by rw [hr i hi]; rfl
  show ∃ u : State, execDerate p s = _ ∧ _
  simp only [execDerate, hd, gap]
  exact ⟨_, rfl, rfl⟩

theorem thermalWarning_of_rise (hw : (s.setTemp p.val temp).lodge.warn.toInt ≤ temp.toInt)
    (hn : ((s.setTemp p.val temp).plot p.val).warned = false) :
    let t := s.setTemp p.val temp
    exec (.thermalWarning p temp) s = .next ((t.modPlot p.val (fun x => { x with warned := true, lastDutyStep := t.ns })).event
      0x0004 p.val (0x2100 + p.val) 3 ((t.ownerOf p.val).getD 0x1F)) :=
  onlyIf_of_true _ _ (by rw [decide_eq_true hw, hn]; rfl)

theorem thermalDutyStep_of_warm (hw : (s.setTemp p.val temp).lodge.warn.toInt ≤ temp.toInt)
    (ht : 10000000 + ((s.setTemp p.val temp).plot p.val).lastDutyStep ≤ (s.setTemp p.val temp).ns) :
    let t := s.setTemp p.val temp
    exec (.thermalDutyStep p temp) s = .next (t.modPlot p.val (fun x =>
      { x with heatDuty := max 8 (x.duty - 8), lastDutyStep := t.ns }.settleDuty)) :=
  if_pos ⟨hw, ht⟩

theorem thermalDutyStep_of_cool (hw : temp.toInt + 16 ≤ (s.setTemp p.val temp).lodge.warn.toInt)
    (ht : 100000000 + ((s.setTemp p.val temp).plot p.val).lastDutyStep ≤ (s.setTemp p.val temp).ns) :
    let t := s.setTemp p.val temp
    exec (.thermalDutyStep p temp) s = .next (t.modPlot p.val (fun x =>
      { x with heatDuty := min 64 (x.heatDuty + 1), lastDutyStep := t.ns }.settleDuty)) :=
  (if_neg fun h => by omega).trans (if_pos ⟨hw, ht⟩)

theorem thermTrip_of_cold (ht : 880 ≤ temp.toInt) (hw : ((s.setTemp p.val temp).plot p.val).warm = false) :
    exec (.thermTrip (.plot p) temp) s = .next ((s.setTemp p.val temp).trip p.val (0x2100 + p.val)) := by
  show execThermTrip (.plot p) temp s = _
  simp only [execThermTrip, if_neg (Int.not_lt.mpr ht), hw, Bool.false_eq_true, if_false]

theorem plotReturn_of_cool {c : Nat} (hc : ((s.setTemp p.val temp).plot p.val).offCause = some .heat)
    (hs : ((s.setTemp p.val temp).plot p.val).coolSince = some c) (ht : 10 * 10 ^ 9 + c ≤ (s.setTemp p.val temp).ns)
    (ho : (s.setTemp p.val temp).ownerOf p.val = none) (he : ((s.setTemp p.val temp).plot p.val).enable = .open_) :
    exec (.plotReturn p temp) s = .next ((s.setTemp p.val temp).backPlot p.val) := by
  have due : ¬ (some OffCause.heat != some .heat || !true || !true) = true := by decide
  show execPlotReturn p temp s = _
  simp only [execPlotReturn, hc, hs, decide_eq_true ht, ho, he, if_neg due]

end

/-- Settles O51: each command by the temperature that it is told, set before its conditions are looked at. -/
theorem heatCompletes : Obligations.HeatCompletes := by
  intro p temp s
  refine ⟨derate_of_gap, thermalWarning_of_rise, thermalDutyStep_of_warm, thermalDutyStep_of_cool, fun warm =>
    ⟨fun hot notCut => ⟨_, onlyIf_of_true _ _ ?shed, rfl⟩, fun hot => onlyIf_of_true _ _ ?cut⟩, thermTrip_of_cold,
    fun low => onlyIf_of_true _ _ low, fun c => plotReturn_of_cool⟩
  case shed => rw [decide_eq_true ⟨hot, notCut⟩, warm]; rfl
  case cut => rw [decide_eq_true hot, warm]; rfl

end Sys2Proof.Machine


/-! Completion of the firmware deal and the bounds of the power-up steps (R496, R513–R518). -/

namespace Sys2Proof.Machine

section

variable {s : State} {a : AllotIx} {d : Deal}

/-! ### The start of a deal (R513) -/

theorem deal_openDeal (u : State) (o : Option AllotIx) (lines : List ManifestLine) : (u.openDeal o lines).lodge.deal =
    some { allotment := o, number := u.lodge.dealNumber, lines := lines, sent := [], ended := false } :=
  State.each_same (fun t => t.lodge.deal) (fun _ _ => by simp only [State.modPlot_lodge]) _ _

theorem lodge_eachPav (u : State) (q : Nat) (f : Pav → Pav) : (u.eachPav q f).lodge = u.lodge :=
  State.each_same State.lodge (fun t i => State.modPav_lodge t i f) u _

theorem dealStart_startUp (hd : s.lodge.deal = none) (hp : s.lodge.phase = .step4) (hb : s.lodge.set.activeBase = 0) :
    exec (.dealStart none) s = .next ((s.each (List.range 56) (fun s p =>
      (s.modPlot p (fun x => { x with gateHand := 0 })).eachPav p (fun v =>
        { v with handAll := 0, hands := [], stageHand := 0 }))).openDeal none (manifestOf (Config.startDeck s.lodge.fw.image))) := by
  have base : s.lodge.set.activeBase.toNat = 0 := by rw [hb]; rfl
  have phase : ¬ (Phase.step4 != .step4) = true := by decide
  show execDealStart none s = _
  simp only [execDealStart, hd, Option.isSome_none, Bool.false_eq_true, if_false, hp, if_neg phase, base, if_true]
  exact congrArg (fun l : Lodge => Host.Outcome.next (State.openDeal _ none (manifestOf (Config.startDeck l.fw.image))))
    (State.each_same State.lodge (fun t q => (lodge_eachPav _ q _).trans (State.modPlot_lodge t q _)) s _)

theorem dealStart_allotment (hd : s.lodge.deal = none) (hp : s.lodge.phase = .ready) (hdue : s.dealDue a = true) :
    ∃ u : State, exec (.dealStart (some a)) s = .next (u.openDeal (some a) (manifestOf (s.parcelDeck a.val))) := by
  have due : ¬ (Phase.ready != .ready || !true) = true := by decide
  show ∃ u : State, execDealStart (some a) s = _
  simp only [execDealStart, hd, Option.isSome_none, Bool.false_eq_true, if_false, hp, hdue, if_neg due]
  exact ⟨_, rfl⟩

/-! ### Cards and rounds (R514–R518) -/

section
variable (hd : s.lodge.deal = some d)
include hd

/-- Every gate that the card names finds it as its manifest line says it is. -/
theorem card_of_line {c : Card} {missed : List DealTarget} {m : ManifestLine}
    (hm : d.lines.find? (fun m => m.number == c.number.val) = some m) (hn : c.deal.toNat = d.number % 256)
    (hl : c.data.length = 4096) (hg : m.digest = digest256 c.data) (hs : m.scope = c.scope) (hs' : m.slot = c.slot)
    (ht : m.target = c.target) : exec (.card c missed) s = .next (((s.emit (.card c.number.val none)).each
      ((s.dealGates d).filter (fun p => cardIn c.scope.toNat c.target.toNat p)) (fun s p => (s.modPlot p (fun x =>
        let cache := x.deal.cache ++ [CacheCard.mk c.number.val c.scope c.slot c.target c.data]
        { x with deal := { x.deal with
          cache := cache.drop (cache.length - 4096)
          missing := x.deal.missing.filter (· != c.number.val) } })).deliver p c missed)).modLodge (fun l => { l with
            deal := l.deal.map (fun d => { d with sent := d.sent ++ [c.number.val] }) })) := by
  have good : (c.data.length == 4096 && m.digest == digest256 c.data && m.scope == c.scope && m.slot == c.slot &&
      m.target == c.target) = true := by
    simp only [hl, hg, hs, hs', ht, beq_self_eq_true, Bool.and_self]
  show execCard c missed s = _
  simp only [execCard, hd, hm, good, if_neg (not_not_intro hn), if_true]

theorem deckEnd_of_sent (he : d.ended = false) (hs : ∀ m ∈ d.lines, d.sent.contains m.number = true) :
    exec .deckEnd s = .next ((s.modLodge (fun l => { l with deal := some { d with ended := true } })).each
      ((s.modLodge (fun l => { l with deal := some { d with ended := true } })).dealGates d)
      (fun s p => (s.modPlot p (fun x => { x with
        deal := { x.deal with ended := true, round := 1 } })).gateCount p)).settleDeal := by
  have sent : d.lines.all (fun m => d.sent.contains m.number) = true := List.all_eq_true.mpr hs
  show execDeckEnd s = _
  simp only [execDeckEnd, hd, he, sent, Bool.not_true, Bool.or_self, Bool.false_eq_true, if_false]

section
variable {p : PlotIx} (he : (s.plot p.val).deal.ended = true) (hr : (s.plot p.val).deal.reported = false)
  (hg : (s.dealGates d).contains p.val = true)
include he hr hg

theorem dealRoundEnd_of_complete (hl : (s.lackingAll p.val).isEmpty = true) :
    exec (.dealRoundEnd p) s = .next (s.gateCount p.val).settleDeal := by
  show execDealRoundEnd p s = _
  simp only [execDealRoundEnd, hd, he, hr, hg, hl, Bool.not_true, Bool.or_self, Bool.false_eq_true, if_false, if_true]

theorem dealRoundEnd_of_lacking (hl : (s.lackingAll p.val).isEmpty = false) (hn : (s.plot p.val).deal.round < 3) :
    exec (.dealRoundEnd p) s = .next (s.modPlot p.val (fun y => { y with
      deal := { y.deal with round := y.deal.round + 1 } })) := by
  show execDealRoundEnd p s = _
  simp only [execDealRoundEnd, hd, he, hr, hg, hl, hn, Bool.not_true, Bool.or_self, Bool.false_eq_true, if_false, if_true]

end
end

/-! ### The bounds of the steps (R496) -/

section
variable {n : StepNo} {t : Nat} (ht : tget? s.lodge.stepStart n.val = some t) (hb : stepBound n.val + t ≤ s.ns)
include ht hb

theorem startupStepBound_step1 (hn : n = 1) (hp : s.lodge.phase = .step1) :
    exec (.startupStepBound n) s = .next s.endStep1 := by
  subst hn
  show execStartupStepBound 1 s = _
  simp only [execStartupStepBound, ht, if_neg (Nat.not_lt.mpr hb), hp]
  rfl

theorem startupStepBound_step2 (hn : n = 2) (hp : s.lodge.phase = .steps23) (hc : s.lodge.computeReset = false) :
    exec (.startupStepBound n) s = .next (s.each ((List.range 8).filter (fun k => !(s.seg k).trainTask)) (fun s k =>
      s.segTrained (Fin.ofNat 8 k) (below 24 (fun i => (s.stack i).trained)))).settleStart := by
  subst hn
  show execStartupStepBound 2 s = _
  simp only [execStartupStepBound, ht, if_neg (Nat.not_lt.mpr hb), hp, hc]
  rfl

theorem startupStepBound_step3 (hn : n = 3) (hp : s.lodge.phase = .steps23) : exec (.startupStepBound n) s =
    .next (s.each ((List.range 56).filter (fun p => !(s.plot p).bistTask && !(s.plot p).out)) (fun s p =>
      (s.each (pavsOf p) State.bistFail).modPlot p (fun x => { x with bistTask := true }))).settleStart := by
  subst hn
  show execStartupStepBound 3 s = _
  simp only [execStartupStepBound, ht, if_neg (Nat.not_lt.mpr hb), hp]
  rfl

theorem startupStepBound_step5 (hn : n = 5) (hp : s.lodge.phase = .step5) : exec (.startupStepBound n) s =
    .next (s.each ((((List.range 56).filter (fun p => !(s.plot p).linkTask && !(s.plot p).out)).flatMap s.checksOf ++
      ((List.range 8).filter (fun k => !(s.seg k).linkTask)).flatMap s.segChecks).filter (fun k => !s.linkSettled k))
        State.withdraw).settleLinks := by
  subst hn
  show execStartupStepBound 5 s = _
  simp only [execStartupStepBound, ht, if_neg (Nat.not_lt.mpr hb), hp]
  rfl

end
end

/-- Settles O53: no deal runs as one starts, and each later command by the deal that runs; a bound by its step. -/
theorem dealCompletes : Obligations.DealCompletes := by
  intro s
  exact ⟨deal_openDeal, fun none_ => ⟨dealStart_startUp none_, fun a => dealStart_allotment none_⟩,
    fun d running => ⟨fun c missed m => card_of_line running, deckEnd_of_sent running, fun p ended waits gate =>
      ⟨dealRoundEnd_of_complete running ended waits gate, dealRoundEnd_of_lacking running ended waits gate⟩⟩,
    fun n t start due => ⟨startupStepBound_step1 start due, startupStepBound_step2 start due, startupStepBound_step3 start due,
      startupStepBound_step5 start due⟩⟩

end Sys2Proof.Machine


/-! Completion of the session steps and of what ends sessions and handshakes (R527, R530–R532, R535). The last fragment of a step
hands the step's data to `State.runStep`, and each step is then one function of that data. -/

namespace Sys2Proof.Machine

/-! ### The last fragment of a step -/

/-- Fragments of the step are taken: a HELLO or ACCEPT comes without a session, another step in one that is open (R347). -/
def State.stepAllowed (t : State) (f : HFrame) : Prop :=
  let step := bits f.param.toNat 15 8
  (step = 1 ∨ step = 3) ∧ f.session = 0 ∨ (step ∈ [0x10, 0x20, 0x21, 0x30] ∧ t.authentic f = true)

/-- The state without the steps that the frame's station had begun in the frame's session. -/
def State.stepEnded (t : State) (f : HFrame) : State :=
  t.modLodge (fun l => { l with stepsIn := l.stepsIn.filter (fun x => !(x.station == f.src && x.session == f.session)) })

theorem stepFragment_of_last {t : State} {f : HFrame} {d : List Byte} (hl : lastFragment t f d) (ha : t.stepAllowed f) :
    t.stepFragment f = (t.stepEnded f).runStep (bits f.param.toNat 15 8) f d := by
  obtain ⟨_, _, short, _, part⟩ := hl
  have code : (if bits f.param.toNat 15 8 = 1 ∨ bits f.param.toNat 15 8 = 3 then (if f.session = 0 then 0 else 0x0A04)
      else if [0x10, 0x20, 0x21, 0x30].contains (bits f.param.toNat 15 8) then (if t.authentic f then 0 else 0x0A07)
      else 0x0A03) = 0 := by
    rcases ha with ⟨outside, none_⟩ | ⟨inside, auth⟩
    · rw [if_pos outside, if_pos none_]
    · have other : ¬ (bits f.param.toNat 15 8 = 1 ∨ bits f.param.toNat 15 8 = 3) := by
        rintro (h | h) <;> rw [h] at inside <;> exact absurd inside (by decide)
      rw [if_neg other, if_pos (List.contains_iff_mem.mpr inside), if_pos auth]
  rcases part with ⟨first, rfl⟩ | ⟨x, found, later, next, rfl⟩
  · cases h : t.lodge.stepsIn.find? (fun x => x.station == f.src && x.session == f.session &&
        x.step == bits f.param.toNat 15 8) with
    | none => simp only [State.stepFragment, code, h, first]; exact (if_pos short)
    | some x => simp only [State.stepFragment, code, h, first]; exact (if_pos short)
  · simp only [State.stepFragment, code, found, later, next, if_false, Nat.lt_irrefl]
    exact if_pos short

theorem serve_stepFragment {t : State} {f : HFrame} {d : List Byte} (hl : lastFragment t f d) : t.serve f = t.stepFragment f := by
  obtain ⟨service, request, _, station, _⟩ := hl
  have speaks : ¬ t.lodge.set.station = 126#8 := station
  simp [State.serve, service, request, speaks]

section
variable {s : State} {f : HFrame} {d : List Byte}

/-- The command of one session step, with the last fragment of that step, delivered. -/
theorem sessionCmd_of_last {n : Nat} (hd : (s.arrive f).1 = true) (hl : lastFragment (s.arrive f).2 f d)
    (hn : bits f.param.toNat 15 8 = n) (ha : (s.arrive f).2.stepAllowed f) :
    sessionCmd f n s = .next (((s.arrive f).2.stepEnded f).runStep n f d) := by
  have ⟨service, request, _⟩ := hl
  rw [sessionCmd, onlyIf_of_true _ _ (by simp [service, request, hn]), ringIn_of_delivered hd, serve_stepFragment hl,
    stepFragment_of_last hl ha, hn]

end

/-! ### What a whole step does -/

section
variable {t : State} {f : HFrame} {d : List Byte}

/-- R530: the HELLO names an owner key, and a session is free. -/
theorem hello_of_named {pub : List Byte} (hl : d.length = 33) (hi : t.hasIdentity = true)
    (hn : t.lodge.sessions.length + (t.lodge.handshakes.filter (fun h => h.station != f.src)).length < 8)
    (hc : d.head? ≠ some 0xFF) (hk : t.lodge.sec.owners[((d.head?).getD 0).toNat]? = some pub) :
    let u := t.fresh.2.fresh.2
    let k := u.freeSession
    let part := natLE 2 k ++ Config.drbg t.free 32 ++ Config.mlKemKey (t.free + 1)
    t.hello f d = ((u.modLodge (fun l => { l with
      nextSession := k
      handshakes := l.handshakes.filter (fun h => h.station != f.src) ++
        [{ station := f.src, key := (d.head?).getD 0, pub := pub, draw := t.free + 1, nr := d.drop 1, number := BitVec.ofNat 16 k
           nm := Config.drbg t.free 32, ek := Config.mlKemKey (t.free + 1), transcript := d ++ part, since := u.ns }]
      })).respond f 0 []).sendStep 2 f.src.toNat 0 (part ++ Config.mlDsaSign (roleContext 5) (d ++ part)) := by
  have owned : ((d.head?).getD 0).toNat < t.lodge.sec.owners.length := (List.getElem?_eq_some_iff.mp hk).1
  have named : ((d.head?).getD 0).toNat ≠ 0xFF := by
    cases d with
    | nil => exact absurd hl (by decide)
    | cons b d => exact fun h => hc (congrArg some (BitVec.eq_of_toNat_eq h))
  have allowed : t.helloRefused f.src ((d.head?).getD 0).toNat d.length = 0 := by
    simp only [State.helloRefused, hl, hi, if_neg (Nat.not_le.mpr hn), if_neg named, decide_eq_true owned, ne_eq, not_true,
      if_false, Bool.not_true, Bool.false_eq_true, if_true]
  have key : lget [] t.lodge.sec.owners ((d.head?).getD 0).toNat = pub := by
    rw [lget, List.getD_eq_getElem?_getD, hk, Option.getD_some]
  simp only [State.hello, allowed, ne_eq, not_true, if_false, BitVec.ofNat_toNat, BitVec.setWidth_eq]
  rw [← key]
  rfl

/-- R531: the ACCEPT's signature verifies under the owner key that the HELLO named. -/
theorem accept_of_verified {h : Handshake} (hl : d.length = 4397)
    (hh : t.lodge.handshakes.find? (fun h => h.station == f.src) = some h) (hk : h.key ≠ 0xFF)
    (hv : Config.mlDsaVerify (roleContext 5) h.pub (h.transcript ++ d.take 1088) (d.drop 1088) = true) :
    let k := shake256 (Config.mlKemDecaps h.draw (d.take 1088) ++ shake256 (h.transcript ++ d.take 1088) 32 ++
      ascii "Holcel session") 64
    t.accept f d = (((t.modLodge (fun l => { l with
      handshakes := l.handshakes.filter (fun x => x.station != f.src) })).modLodge (fun l => { l with
        sessions := l.sessions ++ [{ number := h.number, station := f.src, ka := k.take 32, kw := k.drop 32, framesIn := 0
                                     framesOut := 0, last := t.ns, claim := false, unlock := none }] })).respond f 0 []).sendStep
          4 f.src.toNat h.number.toNat [] := by
  have owner : (h.key == 0xFF) = false := beq_false_of_ne hk
  simp only [State.accept, hh, hl, owner, hv, ne_eq, not_true, if_false, Bool.not_true, Bool.false_eq_true]
  rfl

theorem closeSession_empty : t.closeSession f [] = (t.respond f 0 []).endSession f.session := rfl

theorem wkeySet_of_unwrapped {x : Session} {k : List Byte} (hl : d.length = 45)
    (hi : BitVec.ofNat 32 (leNat (bslice d 1 4)) ≠ 0) (ha : leNat (d.take 1) < 16)
    (ho : (t.allot (leNat (d.take 1))).enable = .open_) (hn : (t.allot (leNat (d.take 1))).wkeys.length < 64)
    (hf : (t.allot (leNat (d.take 1))).wkeys.any (fun k => k.1 == BitVec.ofNat 32 (leNat (bslice d 1 4))) = false)
    (hk : Config.aesUnwrap x.kw (d.drop 5) = some k) :
    t.wkeySet x f d = (t.modAllot (leNat (d.take 1)) (fun y => { y with
      wkeys := y.wkeys ++ [(BitVec.ofNat 32 (leNat (bslice d 1 4)), k)] })).respond f 0 [] := by
  have range : ¬ (BitVec.ofNat 32 (leNat (bslice d 1 4)) = 0 ∨ 16 ≤ leNat (d.take 1)) := not_or.mpr ⟨hi, Nat.not_le.mpr ha⟩
  simp only [State.wkeySet, hl, if_neg range, ho, hf, hk, Nat.not_le.mpr hn, ne_eq, not_true, or_self, if_false,
    Bool.false_eq_true]

theorem wkeyDel_of_unused (hl : d.length = 5) (ha : leNat (d.take 1) < 16)
    (hk : (t.allot (leNat (d.take 1))).wkeys.any (fun k => k.1 == BitVec.ofNat 32 (leNat (bslice d 1 4))) = true)
    (hw : ∀ m, m < 16 → (t.srv m).windows = []) :
    t.wkeyDel f d = (t.modAllot (leNat (d.take 1)) (fun y => { y with
      wkeys := y.wkeys.filter (fun k => k.1 != BitVec.ofNat 32 (leNat (bslice d 1 4))) })).respond f 0 [] := by
  have unused : (List.range 16).any (fun n => (t.srv n).windows.any (fun e => e.2.allotment.val == leNat (d.take 1) && e.2.auth &&
      e.2.key == BitVec.ofNat 32 (leNat (bslice d 1 4)))) = false :=
    List.any_eq_false.mpr fun n hn => by simp [hw n (List.mem_range.mp hn)]
  simp only [State.wkeyDel, hl, Nat.not_le.mpr ha, hk, unused, ne_eq, not_true, Bool.not_true, or_self, if_false,
    Bool.false_eq_true]

/-- R527: a list of n owner keys, signed by an owner. -/
theorem ownersSet_of_signed {x : Session} {n : Nat} {o : List Byte} (hc : x.claim = false) (hn : n ≤ 4)
    (hl : d.length = 1952 * n + 3309) (ho : o ∈ t.lodge.sec.owners)
    (hv : Config.mlDsaVerify (roleContext 2) o (d.take (1952 * n)) (d.drop (1952 * n)) = true) (hh : t.holdupLow = false) :
    t.ownersSet x f d = ((t.modLodge (fun l => { l with sec := { l.sec with
      owners := (List.range n).map (fun i => bslice (d.take (1952 * n)) (1952 * i) 1952) } })).flashWrite
        .security 0 1).respond f 0 [] := by
  have size : d.length - 3309 = 1952 * n := by omega
  have count : 1952 * n / 1952 = n := Nat.mul_div_cancel_left n (by decide)
  have shape : (decide (3309 ≤ d.length) && 1952 * n % 1952 == 0 && decide (n ≤ 4)) = true := by
    rw [decide_eq_true (by omega : 3309 ≤ d.length), decide_eq_true hn, Nat.mul_mod_right]; rfl
  have signed : t.lodge.sec.owners.any (fun k =>
      Config.mlDsaVerify (roleContext 2) k (d.take (1952 * n)) (d.drop (1952 * n))) = true := List.any_eq_true.mpr ⟨o, ho, hv⟩
  simp only [State.ownersSet, hc, Bool.false_eq_true, if_false, Bool.false_or, size, count, shape, signed, hh, Bool.not_true]

end

/-! ### Sessions and handshakes that are over (R532) -/

theorem sessionTimeout_of_over {n : BitVec 16} {x : Session} {s : State} (hx : s.session n = some x)
    (ho : 600 * 10 ^ 9 + x.last ≤ s.ns ∨ 65536 ≤ x.framesIn ∨ 65536 ≤ x.framesOut) :
    exec (.sessionTimeout n) s = .next (s.endSession n) := by
  have ended : x.live s.ns = false := decide_eq_false (by omega)
  show execSessionTimeout n s = _
  simp only [execSessionTimeout, hx]
  exact onlyIf_of_true _ _ (by rw [ended]; rfl)

section
variable {s : State} {f : HFrame} {d : List Byte} (hd : (s.arrive f).1 = true) (hl : lastFragment (s.arrive f).2 f d)
include hd hl

/-- R530, R531: a HELLO or an ACCEPT, without a session. -/
theorem sessionCmd_outside {n : Nat} (hn : bits f.param.toNat 15 8 = n) (h13 : n = 1 ∨ n = 3) (h0 : f.session = 0)
    (hs : ((s.arrive f).2.stepEnded f).sessionOf (ringFrom f) = none) : sessionCmd f n s =
      .next (if n = 1 then ((s.arrive f).2.stepEnded f).hello f d else ((s.arrive f).2.stepEnded f).accept f d) := by
  have allowed : (s.arrive f).2.stepAllowed f := .inl ⟨by rw [hn]; exact h13, h0⟩
  rw [sessionCmd_of_last hd hl hn allowed]
  simp only [State.runStep, hs]

/-- R527, R532, R535: any other step, in a session that is open. -/
theorem sessionCmd_inside {n : Nat} (hn : bits f.param.toNat 15 8 = n) (hm : n ∈ [0x10, 0x20, 0x21, 0x30])
    (ha : (s.arrive f).2.authentic f = true) :
    sessionCmd f n s = .next (((s.arrive f).2.stepEnded f).runStep n f d) :=
  sessionCmd_of_last hd hl hn (.inr ⟨by rw [hn]; exact hm, ha⟩)

end

section
variable {t : State} {f : HFrame} {d : List Byte} {x : Session} (hx : t.sessionOf (ringFrom f) = some x)
include hx

theorem runStep_close : t.runStep 0x10 f d = t.closeSession f d := by simp only [State.runStep, hx]

theorem runStep_wkeySet (hc : x.claim = false) : t.runStep 0x20 f d = t.wkeySet x f d := by
  simp only [State.runStep, hx, hc, Bool.false_eq_true, if_false]

theorem runStep_wkeyDel (hc : x.claim = false) : t.runStep 0x21 f d = t.wkeyDel f d := by
  simp only [State.runStep, hx, hc, Bool.false_eq_true, if_false]

theorem runStep_ownersSet : t.runStep 0x30 f d = t.ownersSet x f d := by simp only [State.runStep, hx]

end

/-- Settles O40: the last fragment of a step hands its data to the step, which its conditions let through. -/
theorem sessionsComplete : Obligations.SessionsComplete := by
  refine ⟨fun f d s hd hl => ?steps, fun n x s => sessionTimeout_of_over, fun st s => rfl⟩
  case steps =>
    refine ⟨fun pub h1 h0 hs hlen hid hfree hff hkey => ?hello, fun h h3 h0 hs hlen hh hk hv => ?accept, fun x auth hx =>
      ⟨fun h10 empty => ?close, ⟨fun k h20 hc hlen hi ha ho hn hf hk => ?set, fun h21 hc hlen ha hk hw => ?del⟩,
        fun n o h30 hc hn hlen ho hv hh => ?owners⟩⟩
    case hello =>
      exact (sessionCmd_outside hd hl h1 (.inl rfl) h0 hs).trans
        (congrArg Host.Outcome.next (hello_of_named hlen hid hfree hff hkey))
    case accept =>
      exact (sessionCmd_outside hd hl h3 (.inr rfl) h0 hs).trans
        (congrArg Host.Outcome.next (accept_of_verified hlen hh hk hv))
    case close =>
      subst empty
      exact (sessionCmd_inside hd hl h10 (by decide) auth).trans
        (congrArg Host.Outcome.next ((runStep_close hx).trans closeSession_empty))
    case set =>
      exact (sessionCmd_inside hd hl h20 (by decide) auth).trans
        (congrArg Host.Outcome.next ((runStep_wkeySet hx hc).trans (wkeySet_of_unwrapped hlen hi ha ho hn hf hk)))
    case del =>
      exact (sessionCmd_inside hd hl h21 (by decide) auth).trans
        (congrArg Host.Outcome.next ((runStep_wkeyDel hx hc).trans (wkeyDel_of_unused hlen ha hk hw)))
    case owners =>
      exact (sessionCmd_inside hd hl h30 (by decide) auth).trans
        (congrArg Host.Outcome.next ((runStep_ownersSet hx).trans (ownersSet_of_signed hc hn hlen ho hv hh)))

end Sys2Proof.Machine
